-- ==== Sys2Proof/Word.lean ====
section
/-! DEFINITION. The word types of the X4 (R5, R28, R161): a 64-bit word, a byte and a 1,024-bit vector register. -/

namespace Sys2Proof

/-- A 64-bit general register, status register or memory word. -/
abbrev Word := BitVec 64

/-- One byte of memory. -/
abbrev Byte := BitVec 8

/-- One vector register of 1,024 bits (R161). -/
abbrev Vec := BitVec 1024

end Sys2Proof
end

