-- ==== Sys2Proof/Machine/Bits.lean ====
section
/-! DEFINITION. Bit-field, sign-extension and byte-order helpers, used by the decoder and by every meaning (R4, R5, R112). -/

namespace Sys2Proof

/-- The n-bit field of `x` that starts at bit `lo` (R4). -/
def fld (x lo n : Nat) : Nat := x / 2 ^ lo % 2 ^ n

/-- `x` with the n-bit field at bit `lo` replaced by the low n bits of `v`. -/
def setFld (x lo n v : Nat) : Nat := x - fld x lo n * 2 ^ lo + v % 2 ^ n * 2 ^ lo

/-- Bit `i` of `x`. -/
def bitOf (x i : Nat) : Bool := Nat.testBit x i

/-- A truth value as 0 or 1. -/
def b2n (b : Bool) : Nat := if b then 1 else 0

/-- The low n bits of `x` read as two's complement (R28). -/
def sgn (x n : Nat) : Int :=
  let y := x % 2 ^ n
  if n = 0 then 0 else if y < 2 ^ (n - 1) then (y : Int) else (y : Int) - (2 ^ n : Nat)

/-- An integer modulo 2^n, as the n-bit pattern that holds it. -/
def wrap (x : Int) (n : Nat) : Nat := (x % ((2 ^ n : Nat) : Int)).toNat

/-- sext(x, n) of R112: the n-bit x sign-extended to 64 bits. -/
def sext (x n : Nat) : Word := BitVec.ofNat 64 (wrap (sgn x n) 64)

/-- zext(x, n) of R112. -/
def zext (x n : Nat) : Word := BitVec.ofNat 64 (x % 2 ^ n)

/-- A 64-bit word from an integer, modulo 2^64. -/
def wordOf (x : Int) : Word := BitVec.ofNat 64 (wrap x 64)

/-- The low n bytes of `v`, lowest first (R5). -/
def toBytes : Nat → Nat → List Nat
  | 0, _ => []
  | n + 1, v => v % 256 :: toBytes n (v / 256)

/-- The little-endian value of a list of bytes (R5). -/
def ofBytes : List Nat → Nat
  | [] => 0
  | b :: bs => b % 256 + 256 * ofBytes bs

/-- `x` rounded up to a multiple of `k`. -/
def roundUp (x k : Nat) : Nat := (x + k - 1) / k * k

/-- The positions of the bits of `x` below `n` that are 1, ascending. -/
def bitsOf (x n : Nat) : List Nat := (List.range n).filter (bitOf x)

/-- The number of bits of `x` below `n` that are 1. -/
def popcount (x n : Nat) : Nat := (bitsOf x n).length

/-- The smallest of a list of numbers, none for the empty list. -/
def leastOf : List Nat → Option Nat
  | [] => none
  | x :: xs => match leastOf xs with
    | none => some x
    | some y => some (if x ≤ y then x else y)

/-- Lane k of width w bits (R161). -/
def lane (x w k : Nat) : Nat := fld x (w * k) w

/-- The number whose first n lanes of w bits are f 0, f 1, … -/
def pack (w n : Nat) (f : Nat → Nat) : Nat := (List.range n).foldr (fun k acc => f k % 2 ^ w + 2 ^ w * acc) 0

end Sys2Proof
end

