-- ==== Sys2Proof/Machine/Sha3.lean ====
section
/-! DEFINITION. SHA3-256 (R324, R372, R394), as FIPS 202 defines it: the manual names the function and does not restate it. The sponge state is one
number of 1,600 bits; the rotations and round constants are computed, as the standard defines them, not listed. -/

namespace Sys2Proof

/-- The 64-bit lane of column x and row y of a sponge state, and a state from a function of column and row. [PRESUMED, log 55] -/
def spongeLane (st x y : Nat) : BitVec 64 := BitVec.ofNat 64 (fld st (64 * (x % 5 + 5 * (y % 5))) 64)
def spongeOf (f : Nat → Nat → BitVec 64) : Nat :=
  ofBytes ((List.range 25).map (fun i => toBytes 8 (f (i % 5) (i / 5)).toNat)).flatten

/-- The linear feedback register of the round constants, x^8 + x^6 + x^5 + x^4 + 1. -/
def sha3Lfsr (r : Nat) : Nat := if bitOf r 7 then (2 * r) ^^^ 0x171 else 2 * r

/-- A round constant and the register after it: its seven output bits stand at bits 0, 1, 3, 7, 15, 31 and 63. -/
def sha3Const (r : Nat) : Nat × Nat :=
  (List.range 7).foldl (fun e j => (e.1 + b2n (bitOf e.2 0) * 2 ^ (2 ^ j - 1), sha3Lfsr e.2)) (0, r)

/-- The tour of the 24 turning lanes from column 1, row 0: after step t a lane stands (t + 1)(t + 2) / 2 bits on. Source column and row, and turn. -/
def sha3Tour : List (Nat × Nat × Nat) :=
  ((List.range 24).foldl (fun e t => (e.1 ++ [(e.2.1, e.2.2, (t + 1) * (t + 2) / 2)], (e.2.2, (2 * e.2.1 + 3 * e.2.2) % 5))) (([] : List (Nat × Nat × Nat)), (1, 0))).1

/-- The turn of a lane; that of column 0, row 0 is 0. -/
def sha3Turn (x y : Nat) : Nat := match sha3Tour.find? (fun e => e.1 == x && e.2.1 == y) with
  | some e => e.2.2
  | none => 0

/-- One round: column parities, turns, the move of lane (x, y) to (y, 2x + 3y), the row map, and the constant in lane (0, 0). -/
def sha3Round (st rc : Nat) : Nat :=
  let parity (x : Nat) : BitVec 64 := (List.range 5).foldl (fun v y => v ^^^ spongeLane st x y) 0
  let mixed := spongeOf (fun x y => spongeLane st x y ^^^ parity (x + 4) ^^^ (parity (x + 1)).rotateLeft 1)
  let moved := spongeOf (fun x y => let u := (x + 3 * y) % 5; (spongeLane mixed u x).rotateLeft (sha3Turn u x))
  spongeOf (fun x y => spongeLane moved x y ^^^ (~~~(spongeLane moved (x + 1) y) &&& spongeLane moved (x + 2) y)) ^^^ rc

/-- The permutation of 24 rounds, the constants drawn from the register as it runs. [PRESUMED, log 55] -/
def sha3Permute (st : Nat) : Nat :=
  ((List.range 24).foldl (fun e _ => let k := sha3Const e.2; (sha3Round e.1 k.1, k.2)) (st, 1)).1

/-- Takes in the first `n` blocks of 136 bytes of a padded message, given as its number. [PRESUMED, log 55] -/
def sha3Absorb : Nat → Nat → Nat → Nat
  | 0, st, _ => st
  | n + 1, st, m => sha3Absorb n (sha3Permute (st ^^^ fld m 0 1088)) (m / 2 ^ 1088)

/-- SHA3-256 of a list of bytes: 32 bytes. The message is followed by 06 and filled up to a block whose last byte has its top bit set. [PRESUMED, log 55] -/
def sha3 (bs : List Nat) : List Nat :=
  let n := bs.length / 136 + 1
  toBytes 32 (sha3Absorb n 0 (ofBytes bs + 6 * 2 ^ (8 * bs.length) + 2 ^ (1088 * n - 1)))

end Sys2Proof
end

