-- ==== Sys2Proof/Fields.lean ====
section
/-! DEFINITION. The field records that instructions and device events carry: the decoded prefix fields of a chain (R90, R91), and
the arguments of the events that the outside world supplies. -/

namespace Sys2Proof

/-- The data of an OPND prefix (R91). -/
structure Opnd where
  b : BitVec 5
  dh : Bool
  ah : Bool
  bh : Bool
  width : BitVec 2
  deriving DecidableEq, Repr, Inhabited

/-- The data of a MOD prefix (R91). -/
structure Mod where
  sense : Bool
  pred : BitVec 3
  cls : BitVec 6
  deriving DecidableEq, Repr, Inhabited

/-- The fields of one chain besides its page and op (R89 to R92): the IMM chunks in chain order, the OPND and MOD prefixes
when present, and the d, a and S fields of the base word. Nothing of an encoding is dropped, so the order of the prefixes
among themselves, which R92 leaves free, is the only thing two chains of one `Ops` can differ in. -/
structure Ops where
  imms : List (BitVec 10) := []
  opnd : Option Opnd := none
  mod : Option Mod := none
  d : BitVec 5 := 0
  a : BitVec 5 := 0
  s : Bool := false
  deriving DecidableEq, Repr, Inhabited

/-- An access that another device sends over Univo (R155): a read, a write or an atomic of `n` bytes; `op` is the page 3 op number. -/
inductive RemoteReq where
  | read (n : Nat)
  | write (n : Nat) (data : Nat)
  | atomic (op n : Nat) (y c : Nat)
  deriving DecidableEq, Repr, Inhabited

/-- Where an uncorrectable error falls (R390). -/
inductive EccSite where
  | line (pa : Nat)
  | cacheLine (core line : Nat)
  | context (core slot : Nat)
  | coreState (core : Nat)
  deriving DecidableEq, Repr, Inhabited

/-- What the budget tree and the sensors deliver at one 10 µs period (R381). The policy is not specified, so the values are
inputs; the step clamps them to the bounds of R381. -/
structure BudgetPlan where
  fduty : List (Nat × Nat) := []
  refill : List (Nat × Nat) := []
  bias : List (Nat × Nat) := []
  temp : List (Nat × Nat) := []
  energy : List (Nat × Nat) := []
  power : Nat := 0
  deriving DecidableEq, Repr, Inhabited

end Sys2Proof
end

