-- ==== Sys2Proof/Syntax.lean ====
section
/-! DEFINITION. The instructions and the device events of the X4, one constructor for each row of spec/opcode_table.json, in the
table's order. An instruction carries the fields of its chain; an event carries the choices that the outside world or the
hardware's own timing makes (which core, which access, which piece). -/

namespace Sys2Proof

/-- One step of the device: an instruction of one context, or an event of a unit beside the contexts. -/
inductive Instr where
  /-- `NOP` (R125). -/
  | nop (o : Ops)
  /-- `MOV` (R117). -/
  | mov (o : Ops)
  /-- `MOVI` (R120). -/
  | movi (o : Ops)
  /-- `ADD` (R115). -/
  | add (o : Ops)
  /-- `SUB` (R115). -/
  | sub (o : Ops)
  /-- `AND` (R115). -/
  | and (o : Ops)
  /-- `OR` (R115). -/
  | or (o : Ops)
  /-- `XOR` (R115). -/
  | xor (o : Ops)
  /-- `ANDN` (R115). -/
  | andn (o : Ops)
  /-- `SHL` (R115). -/
  | shl (o : Ops)
  /-- `SHR` (R115). -/
  | shr (o : Ops)
  /-- `SAR` (R115). -/
  | sar (o : Ops)
  /-- `MUL` (R115). -/
  | mul (o : Ops)
  /-- `CMP` (R121). -/
  | cmp (o : Ops)
  /-- `SEL` (R115). -/
  | sel (o : Ops)
  /-- `LD` (R143). -/
  | ld (o : Ops)
  /-- `ST` (R143). -/
  | st (o : Ops)
  /-- `LDL` (R146). -/
  | ldl (o : Ops)
  /-- `STL` (R146). -/
  | stl (o : Ops)
  /-- `BR` (R124). -/
  | br (o : Ops)
  /-- `CALL` (R124). -/
  | call (o : Ops)
  /-- `RET` (R124). -/
  | ret (o : Ops)
  /-- `JMP` (R124). -/
  | jmp (o : Ops)
  /-- `LOOP` (R126). -/
  | loop (o : Ops)
  /-- `WAITC` (R132). -/
  | waitc (o : Ops)
  /-- `YIELD` (R125). -/
  | yield (o : Ops)
  /-- `HALT` (R135). -/
  | halt (o : Ops)
  /-- `HALT.retain` (R15). -/
  | haltRetain (o : Ops)
  /-- `TRAP` (R136). -/
  | trap (o : Ops)
  /-- `MULH` (R115). -/
  | mulh (o : Ops)
  /-- `MULHN` (R115). -/
  | mulhn (o : Ops)
  /-- `DIV` (R116). -/
  | div (o : Ops)
  /-- `DIVN` (R116). -/
  | divn (o : Ops)
  /-- `REM` (R116). -/
  | rem (o : Ops)
  /-- `REMN` (R116). -/
  | remn (o : Ops)
  /-- `ROL` (R115). -/
  | rol (o : Ops)
  /-- `ROR` (R115). -/
  | ror (o : Ops)
  /-- `CLZ` (R117). -/
  | clz (o : Ops)
  /-- `CTZ` (R117). -/
  | ctz (o : Ops)
  /-- `POPC` (R117). -/
  | popc (o : Ops)
  /-- `EXT` (R118). -/
  | ext (o : Ops)
  /-- `EXTN` (R118). -/
  | extn (o : Ops)
  /-- `INS` (R118). -/
  | ins (o : Ops)
  /-- `MIN` (R115). -/
  | min (o : Ops)
  /-- `MAX` (R115). -/
  | max (o : Ops)
  /-- `MINN` (R115). -/
  | minn (o : Ops)
  /-- `MAXN` (R115). -/
  | maxn (o : Ops)
  /-- `ABS` (R117). -/
  | abs (o : Ops)
  /-- `LEA` (R119). -/
  | lea (o : Ops)
  /-- `ADDP` (R119). -/
  | addp (o : Ops)
  /-- `PAND` (R122). -/
  | pand (o : Ops)
  /-- `POR` (R122). -/
  | por (o : Ops)
  /-- `PXOR` (R122). -/
  | pxor (o : Ops)
  /-- `PNOT` (R122). -/
  | pnot (o : Ops)
  /-- `MOVP` (R123). -/
  | movp (o : Ops)
  /-- `LCR` (R130). -/
  | lcr (o : Ops)
  /-- `LCW` (R128). -/
  | lcw (o : Ops)
  /-- `FATX` (R117). -/
  | fatx (o : Ops)
  /-- `FATS` (R119). -/
  | fats (o : Ops)
  /-- `LD.i8` (R143). -/
  | ldI8 (o : Ops)
  /-- `LD.n8` (R143). -/
  | ldN8 (o : Ops)
  /-- `LD.i16` (R143). -/
  | ldI16 (o : Ops)
  /-- `LD.n16` (R143). -/
  | ldN16 (o : Ops)
  /-- `LD.i32` (R143). -/
  | ldI32 (o : Ops)
  /-- `LD.n32` (R143). -/
  | ldN32 (o : Ops)
  /-- `ST.8` (R143). -/
  | st8 (o : Ops)
  /-- `ST.16` (R143). -/
  | st16 (o : Ops)
  /-- `ST.32` (R143). -/
  | st32 (o : Ops)
  /-- `LDW` (R147). -/
  | ldw (o : Ops)
  /-- `LDC` (R147). -/
  | ldc (o : Ops)
  /-- `STF` (R147). -/
  | stf (o : Ops)
  /-- `STE` (R147). -/
  | ste (o : Ops)
  /-- `FEGET` (R147). -/
  | feget (o : Ops)
  /-- `FESET` (R147). -/
  | feset (o : Ops)
  /-- `PST2` (R149). -/
  | pst2 (o : Ops)
  /-- `PREF` (R150). -/
  | pref (o : Ops)
  /-- `FENCE` (R151). -/
  | fence (o : Ops)
  /-- `FENCEX` (R152). -/
  | fencex (o : Ops)
  /-- `AADD` (R153). -/
  | aadd (o : Ops)
  /-- `AAND` (R153). -/
  | aand (o : Ops)
  /-- `AOR` (R153). -/
  | aor (o : Ops)
  /-- `AXOR` (R153). -/
  | axor (o : Ops)
  /-- `AMIN` (R153). -/
  | amin (o : Ops)
  /-- `AMAX` (R153). -/
  | amax (o : Ops)
  /-- `AMINN` (R153). -/
  | aminn (o : Ops)
  /-- `AMAXN` (R153). -/
  | amaxn (o : Ops)
  /-- `ASWP` (R153). -/
  | aswp (o : Ops)
  /-- `ACAS` (R153). -/
  | acas (o : Ops)
  /-- `AFADD` (R154). -/
  | afadd (o : Ops)
  /-- `AFMAX` (R154). -/
  | afmax (o : Ops)
  /-- `GACC` (R156). -/
  | gacc (o : Ops)
  /-- `GARR` (R157). -/
  | garr (o : Ops)
  /-- `GARM` (R158). -/
  | garm (o : Ops)
  /-- `GSTAT` (R159). -/
  | gstat (o : Ops)
  /-- `VLD` (R168). -/
  | vld (o : Ops)
  /-- `VST` (R169). -/
  | vst (o : Ops)
  /-- `VLDS` (R171). -/
  | vlds (o : Ops)
  /-- `VSTS` (R171). -/
  | vsts (o : Ops)
  /-- `VGTH` (R171). -/
  | vgth (o : Ops)
  /-- `VSCT` (R171). -/
  | vsct (o : Ops)
  /-- `VLDL` (R172). -/
  | vldl (o : Ops)
  /-- `VSTL` (R172). -/
  | vstl (o : Ops)
  /-- `VLDT` (R173). -/
  | vldt (o : Ops)
  /-- `VSTT` (R173). -/
  | vstt (o : Ops)
  /-- `VLDC` (R174). -/
  | vldc (o : Ops)
  /-- `VMOV` (R175). -/
  | vmov (o : Ops)
  /-- `VBCAST` (R175). -/
  | vbcast (o : Ops)
  /-- `VEXT` (R175). -/
  | vext (o : Ops)
  /-- `VINS` (R175). -/
  | vins (o : Ops)
  /-- `VPERM` (R175). -/
  | vperm (o : Ops)
  /-- `VCOMPR` (R175). -/
  | vcompr (o : Ops)
  /-- `VMLOG` (R176). -/
  | vmlog (o : Ops)
  /-- `VMPOP` (R176). -/
  | vmpop (o : Ops)
  /-- `VMGET` (R176). -/
  | vmget (o : Ops)
  /-- `VFADD` (R177). -/
  | vfadd (o : Ops)
  /-- `VFSUB` (R177). -/
  | vfsub (o : Ops)
  /-- `VFMUL` (R177). -/
  | vfmul (o : Ops)
  /-- `VFMA` (R177). -/
  | vfma (o : Ops)
  /-- `VFNMA` (R177). -/
  | vfnma (o : Ops)
  /-- `VFDOT` (R178). -/
  | vfdot (o : Ops)
  /-- `VFMIN` (R179). -/
  | vfmin (o : Ops)
  /-- `VFMAX` (R179). -/
  | vfmax (o : Ops)
  /-- `VFABS` (R179). -/
  | vfabs (o : Ops)
  /-- `VFNEG` (R179). -/
  | vfneg (o : Ops)
  /-- `VFDIV` (R177). -/
  | vfdiv (o : Ops)
  /-- `VFSQRT` (R180). -/
  | vfsqrt (o : Ops)
  /-- `VFRSQ` (R180). -/
  | vfrsq (o : Ops)
  /-- `VFCMP` (R181). -/
  | vfcmp (o : Ops)
  /-- `VFRED` (R182). -/
  | vfred (o : Ops)
  /-- `VFRMAX` (R182). -/
  | vfrmax (o : Ops)
  /-- `VFSCL` (R183). -/
  | vfscl (o : Ops)
  /-- `VADD` (R184). -/
  | vadd (o : Ops)
  /-- `VSUB` (R184). -/
  | vsub (o : Ops)
  /-- `VMUL` (R184). -/
  | vmul (o : Ops)
  /-- `VMULH` (R184). -/
  | vmulh (o : Ops)
  /-- `VMIN` (R184). -/
  | vmin (o : Ops)
  /-- `VMAX` (R184). -/
  | vmax (o : Ops)
  /-- `VAND` (R184). -/
  | vand (o : Ops)
  /-- `VOR` (R184). -/
  | vor (o : Ops)
  /-- `VXOR` (R184). -/
  | vxor (o : Ops)
  /-- `VSHL` (R184). -/
  | vshl (o : Ops)
  /-- `VSHR` (R184). -/
  | vshr (o : Ops)
  /-- `VSAR` (R184). -/
  | vsar (o : Ops)
  /-- `VCMP` (R185). -/
  | vcmp (o : Ops)
  /-- `VSEL` (R185). -/
  | vsel (o : Ops)
  /-- `VABS` (R184). -/
  | vabs (o : Ops)
  /-- `VRED` (R186). -/
  | vred (o : Ops)
  /-- `VIDX` (R186). -/
  | vidx (o : Ops)
  /-- `VDOT4` (R186). -/
  | vdot4 (o : Ops)
  /-- `VCVTF` (R187). -/
  | vcvtf (o : Ops)
  /-- `VCVTI` (R188). -/
  | vcvti (o : Ops)
  /-- `VCVTFI` (R188). -/
  | vcvtfi (o : Ops)
  /-- `VPACK` (R188). -/
  | vpack (o : Ops)
  /-- `VUNPK` (R187). -/
  | vunpk (o : Ops)
  /-- `VQDB` (R189). -/
  | vqdb (o : Ops)
  /-- `VDQDB` (R189). -/
  | vdqdb (o : Ops)
  /-- `VBMAX` (R189). -/
  | vbmax (o : Ops)
  /-- `VQF8` (R190). -/
  | vqf8 (o : Ops)
  /-- `BADDRQ` (R191). -/
  | baddrq (o : Ops)
  /-- `TCLAIM` (R197). -/
  | tclaim (o : Ops)
  /-- `TREL` (R197). -/
  | trel (o : Ops)
  /-- `TSCL` (R201). -/
  | tscl (o : Ops)
  /-- `MCFG` (R195). -/
  | mcfg (o : Ops)
  /-- `MMA` (R207). -/
  | mma (o : Ops)
  /-- `MSAMP` (R208). -/
  | msamp (o : Ops)
  /-- `MSP24` (R207). -/
  | msp24 (o : Ops)
  /-- `TNORM` (R210). -/
  | tnorm (o : Ops)
  /-- `TSTAT` (R211). -/
  | tstat (o : Ops)
  /-- `TZERO` (R211). -/
  | tzero (o : Ops)
  /-- `TCVT` (R212). -/
  | tcvt (o : Ops)
  /-- `TSPILL` (R213). -/
  | tspill (o : Ops)
  /-- `TFILL` (R213). -/
  | tfill (o : Ops)
  /-- `SDSET` (R214). -/
  | sdset (o : Ops)
  /-- `SDGET` (R214). -/
  | sdget (o : Ops)
  /-- `XCOPY` (R222). -/
  | xcopy (o : Ops)
  /-- `XCOPYM` (R222). -/
  | xcopym (o : Ops)
  /-- `IWALK` (R222). -/
  | iwalk (o : Ops)
  /-- `IGATH` (R222). -/
  | igath (o : Ops)
  /-- `EGO` (R227). -/
  | ego (o : Ops)
  /-- `EGO.resume` (R227). -/
  | egoResume (o : Ops)
  /-- `ERDV` (R228). -/
  | erdv (o : Ops)
  /-- `ECSET` (R229). -/
  | ecset (o : Ops)
  /-- `ECADD` (R229). -/
  | ecadd (o : Ops)
  /-- `BARR` (R231). -/
  | barr (o : Ops)
  /-- `BARW` (R231). -/
  | barw (o : Ops)
  /-- `BARMX` (R232). -/
  | barmx (o : Ops)
  /-- `BARX` (R233). -/
  | barx (o : Ops)
  /-- `FORK` (R234). -/
  | fork (o : Ops)
  /-- `JOIN` (R235). -/
  | join (o : Ops)
  /-- `DQPUSH` (R236). -/
  | dqpush (o : Ops)
  /-- `DQPOP` (R236). -/
  | dqpop (o : Ops)
  /-- `DQPOP.lq` (R237). -/
  | dqpopLq (o : Ops)
  /-- `DQSTEAL` (R236). -/
  | dqsteal (o : Ops)
  /-- `HANDOFF` (R238). -/
  | handoff (o : Ops)
  /-- `CAPQ` (R238). -/
  | capq (o : Ops)
  /-- `SSEND` (R239). -/
  | ssend (o : Ops)
  /-- `MSGSEND` (R241). -/
  | msgsend (o : Ops)
  /-- `MSGRECV` (R242). -/
  | msgrecv (o : Ops)
  /-- `MFS` (R248). -/
  | mfs (o : Ops)
  /-- `MTS` (R248). -/
  | mts (o : Ops)
  /-- `TRET` (R249). -/
  | tret (o : Ops)
  /-- `FWCALL` (R250). -/
  | fwcall (o : Ops)
  /-- `TLBINV` (R251). -/
  | tlbinv (o : Ops)
  /-- `CINV` (R252). -/
  | cinv (o : Ops)
  /-- `CWB` (R252). -/
  | cwb (o : Ops)
  /-- `BRK` (R253). -/
  | brk (o : Ops)
  /-- `IDLE` (R254). -/
  | idle (o : Ops)
  /-- `PGLOB` (R255). -/
  | pglob (o : Ops)
  /-- RESULT_WRITEBACK (R104). -/
  | resultWriteback (core n : Nat)
  /-- TRAP_ENTRY (R352). -/
  | trapEntry (core slot : Nat)
  /-- CREP_WINDOW_CLOSE (R47). -/
  | crepWindowClose (cluster : Nat)
  /-- PIER_ACCESS (R141). -/
  | pierAccess (core id piece : Nat)
  /-- FE_EVALUATION (R64). -/
  | feEvaluation (core id : Nat)
  /-- FE_BACKOFF_EXPIRY (R67). -/
  | feBackoffExpiry (core slot : Nat)
  /-- PARK_REQUEST (R68). -/
  | parkRequest (core slot : Nat)
  /-- WAKE_ENQUEUE (R69). -/
  | wakeEnqueue (n : Nat)
  /-- WAITC_PROBE (R132). -/
  | waitcProbe (core slot cond : Nat)
  /-- WAITC_TIMEOUT (R132). -/
  | waitcTimeout (core slot : Nat)
  /-- IDLE_WAKE (R254). -/
  | idleWake (core slot : Nat)
  /-- TCLAIM_RETRY (R197). -/
  | tclaimRetry (core slot : Nat)
  /-- ACCUMULATOR_BIND_RETRY (R198). -/
  | accumulatorBindRetry (core slot : Nat)
  /-- MSGSEND_RETRY (R241). -/
  | msgsendRetry (core slot : Nat)
  /-- GANG_JOIN (R205). -/
  | gangJoin (row : Nat) (mask : BitVec 8)
  /-- GANG_WAIT_EXPIRY (R205). -/
  | gangWaitExpiry (core slot : Nat)
  /-- MATRIX_OP_START (R204). -/
  | matrixOpStart (core : Nat)
  /-- MATRIX_OP_END (R206). -/
  | matrixOpEnd (core : Nat)
  /-- ENGINE_COMMAND_START (R223). -/
  | engineCommandStart (core : Nat) (index : Bool)
  /-- ENGINE_PIECE (R224). -/
  | enginePiece (core : Nat) (index : Bool) (id : Nat) (write : Bool) (piece : Nat)
  /-- ENGINE_COMMAND_COMPLETE (R223). -/
  | engineCommandComplete (core : Nat) (index : Bool) (id : Nat)
  /-- ENGINE_FAULT (R225). -/
  | engineFault (core : Nat) (index : Bool) (id : Nat)
  /-- ENGINE_PROGRAM_END (R227). -/
  | engineProgramEnd (core : Nat) (index : Bool)
  /-- BARRIER_PHASE_LATCH (R230). -/
  | barrierPhaseLatch (group dom : Nat)
  /-- BARRIER_COMPLETION (R230). -/
  | barrierCompletion (group dom : Nat)
  /-- REGION_ARRIVAL (R238). -/
  | regionArrival (region : Nat)
  /-- GACC_PERFORM (R78). -/
  | gaccPerform (core id : Nat)
  /-- ARRIVAL (R80). -/
  | arrival (core id : Nat)
  /-- WORKING_COPY_EMPTY (R86). -/
  | workingCopyEmpty (job : Nat)
  /-- COMMIT_WRITES (R85). -/
  | commitWrites (job : Nat)
  /-- COMMIT_FILLS (R85). -/
  | commitFills (job : Nat)
  /-- COMMIT_END (R84). -/
  | commitEnd (job : Nat)
  /-- PST2_WRITES (R87). -/
  | pst2Writes (job : Nat)
  /-- PST2_FILLS (R87). -/
  | pst2Fills (job : Nat)
  /-- PICKUP (R17). -/
  | pickup (core slot : Nat)
  /-- QUEUE_AGING_PROMOTION (R335). -/
  | queueAgingPromotion (cluster level n : Nat)
  /-- PREEMPT_REQUEST (R359). -/
  | preemptRequest (core : Nat)
  /-- LEAVE_AT_CHECKPOINT (R316). -/
  | leaveAtCheckpoint (core slot : Nat)
  /-- HARD_SAVE (R360). -/
  | hardSave (core slot : Nat)
  /-- DCACHE_LINE_EXPIRY (R144). -/
  | dcacheLineExpiry (core line : Nat)
  /-- CLUSTER_CACHE_LINE_EXPIRY (R282). -/
  | clusterCacheLineExpiry (cluster line : Nat)
  /-- HARDWARE_WALK (R345). -/
  | hardwareWalk (core : Nat) (va : Word)
  /-- QTAIL_DOORBELL (R328). -/
  | qtailDoorbell (ctx : Nat) (t : Word)
  /-- QSIZE_WRITE (R327). -/
  | qsizeWrite (ctx : Nat) (v : Word)
  /-- REGISTER_WRITE (R327). -/
  | registerWrite (off : Nat) (v : Word)
  /-- QUEUE_NOP (R329). -/
  | queueNop (ctx : Nat)
  /-- LAUNCH (R332). -/
  | launch (ctx : Nat)
  /-- RULES (R339). -/
  | rules (ctx : Nat)
  /-- SIGNAL (R329). -/
  | signal (ctx : Nat)
  /-- LAUNCH_COMPLETION (R333). -/
  | launchCompletion (ctx : Nat)
  /-- CONTEXT_SWITCH (R362). -/
  | contextSwitch (incoming : Nat)
  /-- SWITCH_SAVE_AND_LOAD (R362). -/
  | switchSaveAndLoad
  /-- FW_VERSION (R373). -/
  | fwVersion
  /-- LINK_STATUS (R373). -/
  | linkStatus
  /-- POWER_NOW (R373). -/
  | powerNow
  /-- ATTESTATION_QUOTE (R394). -/
  | attestationQuote
  /-- ABORT (R398). -/
  | abort
  /-- PAGE_IN (R375). -/
  | pageIn
  /-- PAGE_OUT (R375). -/
  | pageOut
  /-- POWER_LIMIT (R373). -/
  | powerLimit
  /-- FIRMWARE_UPDATE (R395). -/
  | firmwareUpdate
  /-- MAILBOX_ANSWER (R375). -/
  | mailboxAnswer (v : Word)
  /-- RESET (R371). -/
  | reset (pcie : Bool)
  /-- BOOT_FETCH (R371). -/
  | bootFetch (image : List Byte)
  /-- BOOT_TIMEOUT (R371). -/
  | bootTimeout
  /-- BOOT_VERIFY (R372). -/
  | bootVerify (hbm : Bool) (dev : BitVec 12) (trap : Bool)
  /-- ULCTL_WRITE (R377). -/
  | ulctlWrite (port : Nat) (v : Word)
  /-- LINK_UP (R377). -/
  | linkUp (port lanes : Nat)
  /-- LINK_TRAINING_TIMEOUT (R377). -/
  | linkTrainingTimeout (port : Nat)
  /-- LINK_PEER_LOSS (R377). -/
  | linkPeerLoss (port : Nat)
  /-- REMOTE_ACCESS_TIMEOUT (R378). -/
  | remoteAccessTimeout (core id : Nat)
  /-- REMOTE_ACCESS_ARRIVAL (R155). -/
  | remoteAccessArrival (pa : Nat) (req : RemoteReq)
  /-- HOST_ACCESS (R376). -/
  | hostAccess (off : Nat) (len : Nat) (data : Option Nat)
  /-- REDUCTION_BLOCK_ARRIVAL (R380). -/
  | reductionBlockArrival (port i : Nat) (block : Vec)
  /-- RQREL_WRITE (R380). -/
  | rqrelWrite (port : Nat) (v : Word)
  /-- BUDGET_PERIOD (R381). -/
  | budgetPeriod (plan : BudgetPlan)
  /-- KEEPER_TAPER_END (R383). -/
  | keeperTaperEnd (row : Nat)
  /-- REFRESH (R338). -/
  | refresh (pier : Nat)
  /-- FREEZE (R384). -/
  | freeze
  /-- FRZ_WRITE (R384). -/
  | frzWrite (v : Word)
  /-- TAP_FREEZE (R384). -/
  | tapFreeze
  /-- FROZEN_READOUT (R385). -/
  | frozenReadout (region off : Nat)
  /-- ECC_UNCORRECTABLE (R390). -/
  | eccUncorrectable (site : EccSite)
  /-- ECC_CORRECTED (R389). -/
  | eccCorrected (sram : Bool)
  /-- CREP_CLEAR (R355). -/
  | crepClear (cluster : Nat) (v : Word)
  /-- CSTOP_CLEAR (R355). -/
  | cstopClear (cluster : Nat) (v : Word)
  /-- REFERENCE_TICK (R382). -/
  | referenceTick
  deriving DecidableEq, Repr, Inhabited

end Sys2Proof
end

