-- ==== Sys2Proof/Config.lean ====
section
/-! DEFINITION. What one part or one installation fixes and the manual leaves open: free values. None has a body, so nothing can be
proved about a particular value. -/

namespace Sys2Proof

/-- What moves next: an issue slot of one core, or an event; the same of a management core (R371). [DESIGN CHOICE, log 2] -/
inductive Turn where
  | issue (core : Nat)
  | event (i : Instr)
  | mgmtIssue (core : Nat)
  | mgmtEvent (i : Instr)
  deriving DecidableEq, Repr, Inhabited

/-- The schedule: which unit moves at each turn that the state does not already list. Turns have no
length in cycles, so that two operations that R337 orders within one cycle stand here as any two that come one after the other. [DESIGN CHOICE, log 2] -/
opaque Config.nextTurn : Nat → Turn

/-- The value that the device leaves in the link word of the record at an address (R10): written by the device, in a form the manual does not give. [DEDUCED, log 29; DESIGN CHOICE, log 56] -/
opaque Config.linkWord : Nat → BitVec 64

/-- Byte i of the padding that follows the bytes of a message (R240): the same for equal runs (R326). [DESIGN CHOICE, log 35; DESIGN CHOICE, log 56] -/
opaque Config.messagePad : List Nat → Nat → Nat

/-- A value that the device leaves where no rule states one. [DESIGN CHOICE, log 12; DESIGN CHOICE, log 56] -/
opaque Config.openWord : Nat → BitVec 64

/-- The answer of `CAPQ`, and the owner that a `HANDOFF` reports, for a region number that is not in the table (R238): the same for equal runs (R326). [DESIGN CHOICE, log 42; DESIGN CHOICE, log 56] -/
opaque Config.noRegion : Nat → BitVec 16

/-- What an offset of the register window reads as where no rule names a register. [DESIGN CHOICE, log 24; DESIGN CHOICE, log 56] -/
opaque Config.windowHole : Nat → BitVec 64

/-- The hash that chooses among the ports to a device (R377). [DESIGN CHOICE, log 56] -/
opaque Config.portHash : Nat → Nat

/-- ML-DSA-65 verification (R372): public key, signature, message digest. [DESIGN CHOICE, log 56] -/
opaque Config.mldsaVerify : List Byte → List Byte → List Byte → Bool

/-- ML-DSA-65 signature by the device identity key (R394), of 3,309 bytes, over a message digest; the result is cut or
padded to that length where it is used. [DESIGN CHOICE, log 56] -/
opaque Config.mldsaSign : List Byte → List Byte

/-- The device identity public key (R372, R394). [DESIGN CHOICE, log 56] -/
opaque Config.identityKey : List Byte

/-- The 32-byte key hash fused into the device (R372). [DESIGN CHOICE, log 56] -/
opaque Config.fusedKeyHash : List Byte

/-- The 16-byte device serial, fused (R394). [DESIGN CHOICE, log 56] -/
opaque Config.fusedSerial : Nat

end Sys2Proof
end

