-- ==== Sys2Proof/Machine/Encoding.lean ====
section
/-! DEFINITION. The operand and class fields of a chain (R90 to R99), and the encoding tables of pages 0 to 10: what each
instruction's page, op, class, immediate, operands and widths are (R101, R113, R137, R163 to R166, R193, R216, R244). -/

namespace Sys2Proof

namespace Ops

/-- D = dh·32 + d (R93). -/
def dNum (o : Ops) : Nat := o.d.toNat + 32 * b2n (match o.opnd with | some p => p.dh | none => false)

/-- A = ah·32 + a (R93). -/
def aNum (o : Ops) : Nat := o.a.toNat + 32 * b2n (match o.opnd with | some p => p.ah | none => false)

/-- B = bh·32 + b (R93). -/
def bNum (o : Ops) : Nat := match o.opnd with | some p => p.b.toNat + 32 * b2n p.bh | none => 0

/-- ah on its own, which must be 0 where a is part of an immediate (R95). -/
def ahBit (o : Ops) : Bool := match o.opnd with | some p => p.ah | none => false

/-- The width field, single without OPND (R92, R94). -/
def width (o : Ops) : Nat := match o.opnd with | some p => p.width.toNat | none => 0

/-- Is an OPND prefix present? -/
def hasOpnd (o : Ops) : Bool := o.opnd.isSome

/-- Is an IMM prefix present? -/
def hasImm (o : Ops) : Bool := !o.imms.isEmpty

/-- The immediate's bits: chunk_1 ‖ chunk_2 ‖ … ‖ a (R95). -/
def immRaw (o : Ops) : Nat := o.imms.foldl (fun v c => v * 1024 + c.toNat) 0 * 32 + o.a.toNat

/-- The immediate, sign-extended from its top bit (R95). -/
def imm (o : Ops) : Int := sgn o.immRaw (10 * o.imms.length + 5)

/-- The register that a would name, where a is part of an immediate: B with OPND, D without (R95). -/
def moved (o : Ops) : Nat := if o.hasOpnd then o.bNum else o.dNum

/-- The class field: MOD[5:0], or the instruction's default without MOD (R99). [DEDUCED, log 17] -/
def clsOr (o : Ops) (dflt : Nat) : Nat := match o.mod with | some m => m.cls.toNat | none => dflt

/-- The predicate or mask number of MOD, 0 without MOD (R92). -/
def pred (o : Ops) : Nat := match o.mod with | some m => m.pred.toNat | none => 0

/-- The sense of MOD, 0 without MOD (R92). -/
def sense (o : Ops) : Bool := match o.mod with | some m => m.sense | none => false

/-- The number of 16-bit words of the chain besides PAGE (R89): IMM prefixes, OPND, MOD and the base word. -/
def plainWords (o : Ops) : Nat := o.imms.length + b2n o.opnd.isSome + b2n o.mod.isSome + 1

end Ops

/-- How an instruction takes an immediate (R95). -/
inductive ImmMode where
  | none | optional | required
  deriving DecidableEq, Repr

/-- One row of the encoding tables. A limit of 1 marks an operand the form does not use, which must be 0. -/
structure Spec where
  page : Nat
  op : Nat
  /-- class field without MOD (R99) -/
  dflt : Nat := 0
  /-- 0 for an accepted class field, else the reason of R102 -/
  cls : Nat → Nat := fun c => if c = 0 then 0 else 5
  imm : ImmMode := .none
  immOk : Int → Bool := fun _ => true
  d : Nat := 64
  a : Nat := 64
  /-- limit of B without an immediate -/
  b : Nat := 1
  /-- limit of B with an immediate -/
  bi : Nat := 64
  /-- OPND is required -/
  needB : Bool := false
  /-- the widths accepted, given the effective class field and the chain (R94) -/
  widths : Nat → Ops → List Nat := fun _ _ => [0]
  /-- the operand numbers that name groups of that width -/
  groups : Nat → Ops → List Nat := fun _ _ => []
  /-- further checks of the entry: reasons of R102 -/
  extra : Nat → Ops → List Nat := fun _ _ => []

namespace Spec

/-- A truth as a reason: the reason when the condition fails. -/
def want (r : Nat) (ok : Bool) : List Nat := if ok then [] else [r]

/-- Every reason of R102 above 4 that applies to a chain of this row. [DEDUCED, log 16; DEDUCED, log 17; DEDUCED, log 102] -/
def reasons (sp : Spec) (o : Ops) : List Nat :=
  let c := o.clsOr sp.dflt
  let inImm := match sp.imm with | .none => false | .optional => o.hasImm | .required => true
  let w := o.width
  (if sp.cls c = 0 then [] else [sp.cls c])
  ++ want 7 (!(sp.imm == .none && o.hasImm))
  ++ want 7 (!(inImm && o.ahBit))
  ++ want 7 (!inImm || sp.immOk o.imm)
  ++ want 7 (decide (o.dNum < sp.d))
  ++ want 7 (inImm || decide (o.aNum < sp.a))
  ++ want 7 (if inImm then decide (o.bNum < sp.bi) else decide (o.bNum < sp.b))
  ++ want 7 (!sp.needB || o.hasOpnd)
  ++ want 8 ((sp.widths c o).contains w)
  ++ want 8 ((sp.groups c o).all (fun n => n % 2 ^ w == 0))
  ++ sp.extra c o

/-- The reason reported: the lowest that applies (R102). -/
def check (sp : Spec) (o : Ops) : Option Nat := leastOf (sp.reasons o)

/-- Class Memory (R98): the accepted orders, whether bit 0 is a field, and whether only scope `.dev` is accepted. -/
def mem (orders : List Nat) (bit0 : Bool) (devOnly : Bool := false) (c : Nat) : Nat :=
  if 5 ≤ fld c 1 3 ∨ (bitOf c 0 = true ∧ bit0 = false) ∨ (devOnly = true ∧ fld c 1 3 ≠ 3) then 5
  else if orders.contains (fld c 4 2) then 0 else 6

/-- Class Own: the bits that are fields; every other bit must be 0. -/
def own (bits : Nat) (c : Nat) : Nat := if c &&& (63 - bits) = 0 then 0 else 5

/-- Class Vector float (R98): the accepted modes and types. -/
def vf (modes types : List Nat) (c : Nat) : Nat := if modes.contains (fld c 3 3) && types.contains (fld c 0 3) then 0 else 5

/-- Class Vector integer (R98): whether `.sat` is accepted, and the types. -/
def vi (sat : Bool) (types : List Nat) (c : Nat) : Nat :=
  if fld c 3 2 = 0 ∧ (bitOf c 5 = false ∨ sat = true) ∧ types.contains (fld c 0 3) = true then 0 else 5

/-- ALU forms (R114). -/
def alu (page op : Nat) : Spec := { page, op, imm := .optional, b := 64 }

/-- One-operand forms gD, gA (R117). -/
def one (page op : Nat) : Spec := { page, op }

/-- An access with the address operand rule of R138. -/
def addr (page op : Nat) (orders : List Nat) (bit0 : Bool) (dflt : Nat := 6) : Spec :=
  { page, op, dflt, cls := mem orders bit0, imm := .optional, b := 64 }

/-- D of FESET and PREF names no register, but where the immediate form takes its base from D (R137, R138). -/
def noD (o : Ops) : List Nat := want 7 (decide (o.dNum = 0) || (o.hasImm && !o.hasOpnd))

/-- A single or pair access on D. -/
def pairD (sp : Spec) : Spec := { sp with widths := fun _ _ => [0, 1], groups := fun _ o => [o.dNum] }

/-- A vector access whose D group has the given widths. -/
def vecD (ws : List Nat) (sp : Spec) : Spec := { sp with widths := fun _ _ => ws, groups := fun _ o => [o.dNum] }

/-- Atomics of page 3 (R137). -/
def atom (op : Nat) : Spec := { page := 3, op, dflt := 6, cls := mem [0, 1, 2, 3] true, b := 64 }

/-- The lane rule: the mask base is a multiple of the number of mask registers (R162). -/
def laneMask (masks : Nat) (o : Ops) : List Nat := want 8 (o.pred % masks == 0)

/-- Mask registers that the lanes of a vector-float type take: 1 for FP32, 2 for the 16-bit types. -/
def vfMasks (c : Nat) : Nat := if fld c 0 3 = 0 then 1 else 2

/-- A page 5 row with FP32, BF16 and FP16 lanes (R164). -/
def fp (op : Nat) (b : Nat) (types : List Nat := [0, 1, 2]) : Spec :=
  { page := 5, op, cls := vf [0, 1, 2, 3, 4] types, b, extra := fun c o => laneMask (vfMasks c) o }

/-- Mask registers that the lanes of a vector-integer type take. -/
def viMasks (c : Nat) : Nat := match fld c 0 2 with | 0 => 4 | 1 => 2 | _ => 1

/-- Is the type one of 64-bit lanes? -/
def is64 (c : Nat) : Bool := fld c 0 2 == 3

/-- A page 6 row (R165); `gs` lists the vector operands. -/
def int (op : Nat) (sat : Bool) (b : Nat) (gs : Ops → List Nat) : Spec :=
  { page := 6, op, dflt := 2, cls := vi sat [0, 1, 2, 3, 4, 5, 6, 7], b, widths := fun c _ => if is64 c then [1] else [0], groups := fun _ o => gs o, extra := fun c o => laneMask (viMasks c) o }

/-- The vector operands of a 2- or 3-address form. -/
def dab (o : Ops) : List Nat := [o.dNum, o.aNum, o.bNum]

/-- A page 8 or 9 row of class Own. -/
def ownRow (page op bits : Nat) (d a b : Nat) : Spec := { page, op, cls := own bits, d, a, b, bi := 1 }

/-- The mask instructions take `vm0` with sense 0 (R176). -/
def noMask (o : Ops) : List Nat := want 5 (o.pred == 0 && !o.sense)

/-- EXT, EXTN and INS (R118). -/
def bitField (op : Nat) : Spec := { page := 1, op, imm := .required, immOk := fun i => decide (0 ≤ i) && decide (i < 8192) && decide (1 ≤ fld i.toNat 6 7) && decide (fld i.toNat 6 7 ≤ 64) && decide (fld i.toNat 0 6 + fld i.toNat 6 7 ≤ 64) }

/-- VLDT and VSTT (R173). -/
def tileRow (op : Nat) : Spec := { page := 4, op, imm := .required, needB := true, widths := fun _ _ => [0, 1, 2, 3], groups := fun _ o => [o.dNum], immOk := fun i => decide (0 ≤ i) && decide (i < 8192), extra := fun _ o => want 7 (fld o.imm.toNat 0 7 == 0 && decide (fld o.imm.toNat 0 12 + 128 * 2 ^ o.width ≤ 4096) && decide (o.bNum < if bitOf o.imm.toNat 12 then 64 else 32)) }

/-- The lane selector of VEXT and VINS (R175). -/
def laneSel (i : Int) : Bool := decide (0 ≤ i) && decide (i < 512) && decide (fld i.toNat 0 7 < 128 / 2 ^ fld i.toNat 7 2)

/-- Mask registers of VCMP's lane size (R185). -/
def cmpMasks (c : Nat) : Nat := match fld c 0 2 with | 1 => 2 | 2 => 4 | _ => 1

/-- Mask registers of VFCMP's type (R181). -/
def fcmpMasks (c : Nat) : Nat := if fld c 4 2 = 0 then 1 else 2

/-- The FP32 side of VCVTF and VUNPK: a pair for the 16-bit types, a quad for the 8-bit ones (R187). -/
def narrowWidths (c : Nat) (_ : Ops) : List Nat := if fld c 0 3 ≤ 2 then [1] else [2]

/-- Mask registers of the narrow side. -/
def narrowMasks (c : Nat) : Nat := if fld c 0 3 ≤ 2 then 2 else 4

/-- VCVTI and VCVTFI (R188). -/
def cvt (op : Nat) : Spec := { page := 7, op, cls := vf [0, 1, 2, 3, 4] [0], imm := .optional, immOk := fun i => i == 1, extra := fun _ o => want 7 (!o.hasImm || o.hasOpnd) }

/-- The run of slots of TCLAIM and TREL stays within its space (R197). -/
def slotRun (c : Nat) (o : Ops) : List Nat := want 7 (decide (o.dNum + o.aNum < if fld c 0 2 = 1 then 64 else 32))

end Spec

open Spec in
/-- The encoding row of an instruction; none for an event, which has no encoding. [DEDUCED, log 16; DESIGN CHOICE, log 73] -/
def Instr.spec : Instr → Option Spec
  | .nop _ => some { page := 0, op := 0, d := 1, a := 1, extra := fun _ o => want 7 (!o.hasOpnd) }
  | .mov _ => some (one 0 1)
  | .movi _ => some { page := 0, op := 2, imm := .required, bi := 1 }
  | .add _ => some (alu 0 3)
  | .sub _ => some (alu 0 4)
  | .and _ => some (alu 0 5)
  | .or _ => some (alu 0 6)
  | .xor _ => some (alu 0 7)
  | .andn _ => some (alu 0 8)
  | .shl _ => some (alu 0 9)
  | .shr _ => some (alu 0 10)
  | .sar _ => some (alu 0 11)
  | .mul _ => some (alu 0 12)
  | .cmp _ => some { page := 0, op := 13, cls := fun c => if c ≤ 11 then 0 else 5, imm := .optional, d := 8, b := 64 }
  | .sel _ => some (alu 0 14)
  | .ld _ => some (pairD (addr 0 15 [0, 1] true))
  | .st _ => some (pairD (addr 0 16 [0, 2] true))
  | .ldl _ => some (pairD { page := 0, op := 17, imm := .optional, b := 64 })
  | .stl _ => some (pairD { page := 0, op := 18, imm := .optional, b := 64 })
  | .br _ => some { page := 0, op := 19, imm := .required, d := 1, bi := 1 }
  | .call _ => some { page := 0, op := 20, imm := .optional, bi := 1 }
  | .ret _ => some { page := 0, op := 21, d := 1 }
  | .jmp _ => some { page := 0, op := 22, d := 1 }
  | .loop _ => some { page := 0, op := 23, imm := .required, immOk := fun i => decide (0 ≤ i) && decide (i % 2 = 0), d := 2 }
  | .waitc _ => some { page := 0, op := 24, cls := own 0x30, d := 8, b := 64, widths := fun _ _ => [0, 1, 2], groups := fun _ o => [o.aNum] }
  | .yield _ => some { page := 0, op := 25, d := 1, a := 1 }
  | .halt _ => some { page := 0, op := 26, d := 1, a := 1 }
  | .haltRetain _ => some { page := 0, op := 26, cls := fun c => if c = 1 then 0 else 5, d := 1, b := 64 }
  | .trap _ => some { page := 0, op := 27, imm := .required, immOk := fun i => decide (0 ≤ i) && decide (i ≤ 16383), d := 1, bi := 1 }
  | .mulh _ => some (alu 1 0)
  | .mulhn _ => some (alu 1 1)
  | .div _ => some (alu 1 2)
  | .divn _ => some (alu 1 3)
  | .rem _ => some (alu 1 4)
  | .remn _ => some (alu 1 5)
  | .rol _ => some (alu 1 6)
  | .ror _ => some (alu 1 7)
  | .clz _ => some (one 1 8)
  | .ctz _ => some (one 1 9)
  | .popc _ => some (one 1 10)
  | .ext _ => some (bitField 11)
  | .extn _ => some (bitField 12)
  | .ins _ => some (bitField 13)
  | .min _ => some (alu 1 14)
  | .max _ => some (alu 1 15)
  | .minn _ => some (alu 1 16)
  | .maxn _ => some (alu 1 17)
  | .abs _ => some (one 1 18)
  | .lea _ => some (alu 1 19)
  | .addp _ => some (alu 1 20)
  | .pand _ => some { page := 1, op := 21, d := 8, a := 8, b := 8 }
  | .por _ => some { page := 1, op := 22, d := 8, a := 8, b := 8 }
  | .pxor _ => some { page := 1, op := 23, d := 8, a := 8, b := 8 }
  | .pnot _ => some { page := 1, op := 24, d := 8, a := 8 }
  | .movp _ => some { page := 1, op := 25, imm := .required, immOk := fun i => decide (0 ≤ i) && decide (i ≤ 4), extra := fun _ o => want 7 (match o.imm with | 0 => decide (o.dNum < 8) && decide (o.moved < 8) | 1 => decide (o.moved < 8) | 2 => decide (o.dNum < 8) | 3 => o.bNum == 0 | 4 => o.dNum == 0 | _ => false) }
  | .lcr _ => some { page := 1, op := 26, a := 6 }
  | .lcw _ => some { page := 1, op := 27, imm := .optional, d := 6, bi := 1 }
  | .fatx _ => some (one 1 28)
  | .fats _ => some (alu 1 29)
  | .ldI8 _ => some (addr 2 0 [0, 1] true)
  | .ldN8 _ => some (addr 2 1 [0, 1] true)
  | .ldI16 _ => some (addr 2 2 [0, 1] true)
  | .ldN16 _ => some (addr 2 3 [0, 1] true)
  | .ldI32 _ => some (addr 2 4 [0, 1] true)
  | .ldN32 _ => some (addr 2 5 [0, 1] true)
  | .st8 _ => some (addr 2 6 [0, 2] true)
  | .st16 _ => some (addr 2 7 [0, 2] true)
  | .st32 _ => some (addr 2 8 [0, 2] true)
  | .ldw _ => some (addr 2 9 [0, 1] false (dflt := 22))
  | .ldc _ => some (addr 2 10 [0, 1, 2, 3] false (dflt := 22))
  | .stf _ => some (addr 2 11 [0, 1, 2, 3] false (dflt := 38))
  | .ste _ => some (addr 2 12 [0, 2] false)
  | .feget _ => some (addr 2 13 [0, 1] false)
  | .feset _ => some { addr 2 14 [0, 2] false with extra := fun _ o => noD o }
  | .pst2 _ => some { page := 2, op := 15, dflt := 6, cls := mem [0, 2] false, b := 64, widths := fun _ _ => [1], groups := fun _ o => [o.dNum] }
  | .pref _ => some { page := 2, op := 16, cls := own 1, imm := .optional, b := 64, extra := fun _ o => noD o }
  | .fence _ => some { page := 2, op := 17, dflt := 6, cls := fun c => if fld c 1 3 ≤ 4 ∧ bitOf c 0 = false then 0 else 5, d := 1, a := 1 }
  | .fencex _ => some { page := 2, op := 18, dflt := 48, cls := fun c => if fld c 0 4 = 0 ∧ fld c 4 2 ≠ 0 then 0 else 5, d := 1, a := 1 }
  | .aadd _ => some (atom 0)
  | .aand _ => some (atom 1)
  | .aor _ => some (atom 2)
  | .axor _ => some (atom 3)
  | .amin _ => some (atom 4)
  | .amax _ => some (atom 5)
  | .aminn _ => some (atom 6)
  | .amaxn _ => some (atom 7)
  | .aswp _ => some (atom 8)
  | .acas _ => some { atom 9 with widths := fun _ _ => [1], groups := fun _ o => [o.bNum] }
  | .afadd _ => some (atom 10)
  | .afmax _ => some (atom 11)
  | .gacc _ => some { page := 3, op := 12, dflt := 6, cls := mem [0] false true, d := 8, b := 64 }
  | .garr _ => some { page := 3, op := 13, dflt := 38, cls := mem [2] false true, d := 1 }
  | .garm _ => some { page := 3, op := 14, dflt := 6, cls := mem [0, 2] false, d := 1, b := 64 }
  | .gstat _ => some { page := 3, op := 15, dflt := 6, cls := mem [0, 1] false }
  | .vld _ => some (vecD [0, 1, 2, 3] (addr 4 0 [0, 1] true))
  | .vst _ => some (vecD [0, 1, 2, 3] (addr 4 1 [0, 2] true))
  | .vlds _ => some (vecD [0, 1] { page := 4, op := 2, dflt := 6, cls := mem [0, 1] true, b := 64 })
  | .vsts _ => some (vecD [0, 1] { page := 4, op := 3, dflt := 6, cls := mem [0, 2] true, b := 64 })
  | .vgth _ => some (vecD [0, 1] { page := 4, op := 4, dflt := 6, cls := mem [0, 1] true, b := 64 })
  | .vsct _ => some (vecD [0, 1] { page := 4, op := 5, dflt := 6, cls := mem [0, 2] true, b := 64 })
  | .vldl _ => some (vecD [0, 1, 2, 3] { page := 4, op := 6, imm := .optional, b := 64 })
  | .vstl _ => some (vecD [0, 1, 2, 3] { page := 4, op := 7, imm := .optional, b := 64 })
  | .vldt _ => some (tileRow 8)
  | .vstt _ => some (tileRow 9)
  | .vldc _ => some (vecD [0, 1] { page := 4, op := 10, imm := .required, immOk := fun i => decide (0 ≤ i) && decide (i ≤ 31), bi := 32, needB := true })
  | .vmov _ => some { page := 4, op := 11, widths := fun _ _ => [0, 1, 2, 3], groups := fun _ o => [o.dNum, o.aNum] }
  | .vbcast _ => some { page := 4, op := 12, imm := .required, immOk := fun i => decide (0 ≤ i) && decide (i ≤ 3), needB := true }
  | .vext _ => some { page := 4, op := 13, imm := .required, immOk := laneSel, needB := true }
  | .vins _ => some { page := 4, op := 14, imm := .required, immOk := laneSel, needB := true }
  | .vperm _ => some { page := 4, op := 15, b := 64 }
  | .vcompr _ => some { page := 4, op := 16 }
  | .vmlog _ => some { page := 4, op := 17, imm := .required, immOk := fun i => decide (0 ≤ i) && decide (i ≤ 5), d := 8, bi := 8, needB := true, extra := fun _ o => noMask o }
  | .vmpop _ => some { page := 4, op := 18, a := 8, extra := fun _ o => noMask o }
  | .vmget _ => some { page := 4, op := 19, imm := .required, immOk := fun i => i == 0 || i == 1, needB := true, extra := fun _ o => noMask o ++ want 7 (if o.imm = 0 then decide (o.bNum < 8) else decide (o.dNum < 8)) }
  | .vfadd _ => some (fp 0 64)
  | .vfsub _ => some (fp 1 64)
  | .vfmul _ => some (fp 2 64)
  | .vfma _ => some (fp 3 64)
  | .vfnma _ => some (fp 4 64)
  | .vfdot _ => some { fp 5 64 [1, 2] with extra := fun _ _ => [] }
  | .vfmin _ => some (fp 6 64)
  | .vfmax _ => some (fp 7 64)
  | .vfabs _ => some (fp 8 1)
  | .vfneg _ => some (fp 9 1)
  | .vfdiv _ => some (fp 10 64)
  | .vfsqrt _ => some (fp 11 1)
  | .vfrsq _ => some (fp 12 1)
  | .vfcmp _ => some { page := 5, op := 13, cls := fun c => if fld c 4 2 ≠ 3 ∧ fld c 0 4 < 14 then 0 else 5, d := 8, b := 64, extra := fun c o => laneMask (fcmpMasks c) o ++ want 8 (o.dNum % fcmpMasks c == 0) }
  | .vfred _ => some (fp 14 1)
  | .vfrmax _ => some (fp 15 1)
  | .vfscl _ => some (fp 16 64)
  | .vadd _ => some (int 0 true 64 dab)
  | .vsub _ => some (int 1 true 64 dab)
  | .vmul _ => some (int 2 true 64 dab)
  | .vmulh _ => some (int 3 false 64 dab)
  | .vmin _ => some (int 4 false 64 dab)
  | .vmax _ => some (int 5 false 64 dab)
  | .vand _ => some (int 6 false 64 dab)
  | .vor _ => some (int 7 false 64 dab)
  | .vxor _ => some (int 8 false 64 dab)
  | .vshl _ => some (int 9 true 64 dab)
  | .vshr _ => some (int 10 false 64 dab)
  | .vsar _ => some (int 11 false 64 dab)
  | .vcmp _ => some { page := 6, op := 12, cls := fun c => if fld c 2 4 ≤ 11 then 0 else 5, d := 8, b := 64, widths := fun c _ => if fld c 0 2 = 3 then [1] else [0], groups := fun _ o => [o.aNum, o.bNum], extra := fun c o => laneMask (cmpMasks c) o ++ want 8 (o.dNum % cmpMasks c == 0) }
  | .vsel _ => some (int 13 false 64 dab)
  | .vabs _ => some (int 14 true 1 (fun o => [o.dNum, o.aNum]))
  | .vred _ => some (int 15 true 1 (fun o => [o.aNum]))
  | .vidx _ => some (int 16 false 64 (fun o => [o.dNum]))
  | .vdot4 _ => some { int 17 true 64 dab with cls := vi true [0, 4], extra := fun _ _ => [] }
  | .vcvtf _ => some { page := 7, op := 0, cls := vf [0, 1, 2, 3, 4, 5] [1, 2, 3, 4], b := 64, widths := narrowWidths, groups := fun _ o => [o.aNum], extra := fun c o => want 7 (if fld c 3 3 = 5 then decide (o.bNum < 16) else o.bNum == 0) ++ laneMask (narrowMasks c) o }
  | .vcvti _ => some (cvt 1)
  | .vcvtfi _ => some (cvt 2)
  | .vpack _ => some { page := 7, op := 3, imm := .required, immOk := fun i => decide (0 ≤ i) && decide (i ≤ 3), needB := true, widths := fun _ o => if o.imm ≤ 1 then [2] else [1], groups := fun _ o => [o.bNum], extra := fun _ o => laneMask (if o.imm ≤ 1 then 4 else 2) o }
  | .vunpk _ => some { page := 7, op := 4, cls := vf [0] [1, 2, 3, 4], widths := narrowWidths, groups := fun _ o => [o.dNum], extra := fun c o => laneMask (narrowMasks c) o }
  | .vqdb _ => some { page := 7, op := 5, cls := vf [0] [0, 1], b := 64 }
  | .vdqdb _ => some { page := 7, op := 6, cls := vf [0] [0, 1] }
  | .vbmax _ => some { page := 7, op := 7, cls := vf [0] [0] }
  | .vqf8 _ => some { page := 7, op := 8, cls := vf [0, 1, 2, 3, 4] [3, 4], b := 64, widths := fun _ _ => [2], groups := fun _ o => [o.aNum], extra := fun _ o => laneMask 4 o }
  | .baddrq _ => some { page := 7, op := 9, cls := vf [0] [0], b := 64 }
  | .tclaim _ => some { ownRow 8 0 3 64 64 1 with cls := fun c => if c ≤ 1 then 0 else 5, extra := fun c o => slotRun c o }
  | .trel _ => some { ownRow 8 1 3 64 64 1 with cls := fun c => if c ≤ 2 then 0 else 5, extra := fun c o => slotRun c o }
  | .tscl _ => some { page := 8, op := 2, imm := .required, immOk := fun i => decide (0 ≤ i) && decide (i ≤ 31), bi := 1 }
  | .mcfg _ => some { ownRow 8 3 1 1 64 1 with widths := fun c _ => if bitOf c 0 then [0] else [1], groups := fun _ o => [o.aNum] }
  | .mma _ => some { ownRow 8 4 7 32 32 64 with needB := true }
  | .msamp _ => some { page := 8, op := 5, cls := own 3, imm := .required, immOk := fun i => decide (0 ≤ i) && decide (i < 8192) && decide (i % 256 ≠ 0), d := 32, needB := true }
  | .msp24 _ => some { ownRow 8 6 3 32 32 64 with needB := true }
  | .tnorm _ => some { ownRow 8 7 3 64 64 1 with extra := fun c o => want 7 (decide (o.aNum < if bitOf c 1 then 64 else 32)) }
  | .tstat _ => some (ownRow 8 8 0 64 32 1)
  | .tzero _ => some (ownRow 8 9 0 32 1 1)
  | .tcvt _ => some { ownRow 8 10 0 32 64 1 with cls := fun c => if fld c 3 3 ≤ 5 ∧ fld c 0 3 ≤ 4 then 0 else 5 }
  | .tspill _ => some (ownRow 8 11 1 32 64 1)
  | .tfill _ => some (ownRow 8 12 1 32 64 1)
  | .sdset _ => some { ownRow 8 13 0 16 64 1 with imm := .optional }
  | .sdget _ => some (ownRow 8 14 0 64 16 1)
  | .xcopy _ => some (ownRow 9 0 0 1 64 1)
  | .xcopym _ => some (ownRow 9 1 0 1 64 1)
  | .iwalk _ => some (ownRow 9 2 0 1 64 1)
  | .igath _ => some (ownRow 9 3 0 1 64 1)
  | .ego _ => some { ownRow 9 4 5 16 64 1 with extra := fun c o => want 7 (bitOf c 2 || o.dNum == 0) }
  | .egoResume _ => some { ownRow 9 4 7 1 1 1 with cls := fun c => if c ≤ 7 ∧ bitOf c 1 = true then 0 else 5 }
  | .erdv _ => some (ownRow 9 5 1 1 1 1)
  | .ecset _ => some { ownRow 9 6 1 16 64 1 with imm := .optional }
  | .ecadd _ => some { ownRow 9 7 0 16 64 1 with imm := .optional }
  | .barr _ => some (ownRow 9 8 0 8 1 1)
  | .barw _ => some (ownRow 9 9 0 8 1 1)
  | .barmx _ => some (ownRow 9 10 0 64 64 8)
  | .barx _ => some { ownRow 9 11 0 8 64 1 with imm := .optional }
  | .fork _ => some (ownRow 9 12 0 1 64 64)
  | .join _ => some (ownRow 9 13 0 1 64 1)
  | .dqpush _ => some (ownRow 9 14 0 1 64 1)
  | .dqpop _ => some (ownRow 9 15 0 64 1 1)
  | .dqpopLq _ => some { ownRow 9 15 1 64 64 1 with cls := (fun c => if c = 1 then 0 else 5), widths := (fun _ _ => [1]), groups := (fun _ o => [o.dNum]) }
  | .dqsteal _ => some (ownRow 9 16 0 64 64 1)
  | .handoff _ => some (ownRow 9 17 0 1 64 64)
  | .capq _ => some (ownRow 9 18 0 64 64 1)
  | .ssend _ => some (ownRow 9 19 0 1 64 1)
  | .msgsend _ => some (ownRow 9 20 0 1 64 64)
  | .msgrecv _ => some { ownRow 9 21 1 64 64 1 with imm := .required, immOk := fun i => decide (0 ≤ i) && decide (i ≤ 3) }
  | .mfs _ => some { page := 10, op := 0, a := 22, widths := fun _ o => if o.aNum = 10 then [1] else [0], groups := fun _ o => [o.dNum] }
  | .mts _ => some { page := 10, op := 1, cls := fun c => if c ≤ 2 then 0 else 5, d := 22, widths := fun _ o => if o.dNum = 10 then [1] else [0], groups := fun _ o => [o.aNum] }
  | .tret _ => some (ownRow 10 2 0 1 1 1)
  | .fwcall _ => some { page := 10, op := 3, cls := own 0, imm := .required, immOk := fun i => decide (0 ≤ i) && decide (i ≤ 1023), needB := true }
  | .tlbinv _ => some { ownRow 10 4 7 1 64 1 with cls := fun c => if c < 8 ∧ fld c 0 2 ≠ 3 then 0 else 5, extra := fun c o => want 7 (fld c 0 2 != 1 || o.aNum == 0) }
  | .cinv _ => some { ownRow 10 5 3 1 64 64 with extra := fun c o => want 7 (!bitOf c 1 || (o.aNum == 0 && o.bNum == 0)) }
  | .cwb _ => some { ownRow 10 6 3 1 64 64 with dflt := 1, cls := fun c => if c < 4 ∧ bitOf c 0 = true then 0 else 5, extra := fun c o => want 7 (!bitOf c 1 || (o.aNum == 0 && o.bNum == 0)) }
  | .brk _ => some { page := 10, op := 7, imm := .required, immOk := fun i => decide (0 ≤ i) && decide (i ≤ 16383), d := 1, bi := 1 }
  | .idle _ => some (ownRow 10 8 0 1 64 1)
  | .pglob _ => some (ownRow 10 9 0 64 64 1)
  | _ => none

/-- The chain fields of an instruction; none for an event. -/
def Instr.ops : Instr → Option Ops
  | .nop o => some o
  | .mov o => some o
  | .movi o => some o
  | .add o => some o
  | .sub o => some o
  | .and o => some o
  | .or o => some o
  | .xor o => some o
  | .andn o => some o
  | .shl o => some o
  | .shr o => some o
  | .sar o => some o
  | .mul o => some o
  | .cmp o => some o
  | .sel o => some o
  | .ld o => some o
  | .st o => some o
  | .ldl o => some o
  | .stl o => some o
  | .br o => some o
  | .call o => some o
  | .ret o => some o
  | .jmp o => some o
  | .loop o => some o
  | .waitc o => some o
  | .yield o => some o
  | .halt o => some o
  | .haltRetain o => some o
  | .trap o => some o
  | .mulh o => some o
  | .mulhn o => some o
  | .div o => some o
  | .divn o => some o
  | .rem o => some o
  | .remn o => some o
  | .rol o => some o
  | .ror o => some o
  | .clz o => some o
  | .ctz o => some o
  | .popc o => some o
  | .ext o => some o
  | .extn o => some o
  | .ins o => some o
  | .min o => some o
  | .max o => some o
  | .minn o => some o
  | .maxn o => some o
  | .abs o => some o
  | .lea o => some o
  | .addp o => some o
  | .pand o => some o
  | .por o => some o
  | .pxor o => some o
  | .pnot o => some o
  | .movp o => some o
  | .lcr o => some o
  | .lcw o => some o
  | .fatx o => some o
  | .fats o => some o
  | .ldI8 o => some o
  | .ldN8 o => some o
  | .ldI16 o => some o
  | .ldN16 o => some o
  | .ldI32 o => some o
  | .ldN32 o => some o
  | .st8 o => some o
  | .st16 o => some o
  | .st32 o => some o
  | .ldw o => some o
  | .ldc o => some o
  | .stf o => some o
  | .ste o => some o
  | .feget o => some o
  | .feset o => some o
  | .pst2 o => some o
  | .pref o => some o
  | .fence o => some o
  | .fencex o => some o
  | .aadd o => some o
  | .aand o => some o
  | .aor o => some o
  | .axor o => some o
  | .amin o => some o
  | .amax o => some o
  | .aminn o => some o
  | .amaxn o => some o
  | .aswp o => some o
  | .acas o => some o
  | .afadd o => some o
  | .afmax o => some o
  | .gacc o => some o
  | .garr o => some o
  | .garm o => some o
  | .gstat o => some o
  | .vld o => some o
  | .vst o => some o
  | .vlds o => some o
  | .vsts o => some o
  | .vgth o => some o
  | .vsct o => some o
  | .vldl o => some o
  | .vstl o => some o
  | .vldt o => some o
  | .vstt o => some o
  | .vldc o => some o
  | .vmov o => some o
  | .vbcast o => some o
  | .vext o => some o
  | .vins o => some o
  | .vperm o => some o
  | .vcompr o => some o
  | .vmlog o => some o
  | .vmpop o => some o
  | .vmget o => some o
  | .vfadd o => some o
  | .vfsub o => some o
  | .vfmul o => some o
  | .vfma o => some o
  | .vfnma o => some o
  | .vfdot o => some o
  | .vfmin o => some o
  | .vfmax o => some o
  | .vfabs o => some o
  | .vfneg o => some o
  | .vfdiv o => some o
  | .vfsqrt o => some o
  | .vfrsq o => some o
  | .vfcmp o => some o
  | .vfred o => some o
  | .vfrmax o => some o
  | .vfscl o => some o
  | .vadd o => some o
  | .vsub o => some o
  | .vmul o => some o
  | .vmulh o => some o
  | .vmin o => some o
  | .vmax o => some o
  | .vand o => some o
  | .vor o => some o
  | .vxor o => some o
  | .vshl o => some o
  | .vshr o => some o
  | .vsar o => some o
  | .vcmp o => some o
  | .vsel o => some o
  | .vabs o => some o
  | .vred o => some o
  | .vidx o => some o
  | .vdot4 o => some o
  | .vcvtf o => some o
  | .vcvti o => some o
  | .vcvtfi o => some o
  | .vpack o => some o
  | .vunpk o => some o
  | .vqdb o => some o
  | .vdqdb o => some o
  | .vbmax o => some o
  | .vqf8 o => some o
  | .baddrq o => some o
  | .tclaim o => some o
  | .trel o => some o
  | .tscl o => some o
  | .mcfg o => some o
  | .mma o => some o
  | .msamp o => some o
  | .msp24 o => some o
  | .tnorm o => some o
  | .tstat o => some o
  | .tzero o => some o
  | .tcvt o => some o
  | .tspill o => some o
  | .tfill o => some o
  | .sdset o => some o
  | .sdget o => some o
  | .xcopy o => some o
  | .xcopym o => some o
  | .iwalk o => some o
  | .igath o => some o
  | .ego o => some o
  | .egoResume o => some o
  | .erdv o => some o
  | .ecset o => some o
  | .ecadd o => some o
  | .barr o => some o
  | .barw o => some o
  | .barmx o => some o
  | .barx o => some o
  | .fork o => some o
  | .join o => some o
  | .dqpush o => some o
  | .dqpop o => some o
  | .dqpopLq o => some o
  | .dqsteal o => some o
  | .handoff o => some o
  | .capq o => some o
  | .ssend o => some o
  | .msgsend o => some o
  | .msgrecv o => some o
  | .mfs o => some o
  | .mts o => some o
  | .tret o => some o
  | .fwcall o => some o
  | .tlbinv o => some o
  | .cinv o => some o
  | .cwb o => some o
  | .brk o => some o
  | .idle o => some o
  | .pglob o => some o
  | _ => none

end Sys2Proof
end

