-- ==== Sys2Proof/WellFormed.lean ====
section
/-! DEFINITION. Well-formed instructions: chains that R92 to R99 and the entries' tables accept. -/

namespace Sys2Proof

/-- The number of prefix words of a chain: IMM, OPND and MOD, and PAGE off page 0 (R92, R96). -/
def Instr.prefixes (i : Instr) : Nat :=
  match i.spec, i.ops with
  | some sp, some o => o.plainWords - 1 + (if sp.page = 0 then 0 else 1)
  | _, _ => 0

/-- An instruction is well-formed when none of the reasons of R102 applies to its chain. An event carries no encoding and is
not an instruction of any chain. -/
def Instr.wf (i : Instr) : Bool :=
  match i.spec, i.ops with
  | some sp, some o => (sp.check o).isNone && decide (i.prefixes ≤ 4)
  | _, _ => false

end Sys2Proof
end

