-- ==== Sys2Proof/Decode.lean ====
section
/-! DEFINITION. The decoder: words of a chain to an instruction or to the reason of R102 why they are none; and the encoder, which
writes the words of a well-formed instruction in the order PAGE, OPND, MOD, IMM, base. -/

namespace Sys2Proof

/-- What the words from a PC onward are (R92, R102): an instruction and its length in words, a non-instruction with its
reason, or a beginning whose later words are needed. -/
inductive Decoded where
  | instr (i : Instr) (words : Nat)
  | ill (reason words : Nat)
  | more
  deriving DecidableEq, Repr

/-- The prefixes read so far. `page` is the data of a PAGE prefix; `twice` says that OPND, PAGE or MOD came twice. -/
structure Prefixes where
  count : Nat := 0
  imms : List (BitVec 10) := []
  opnd : Option Opnd := none
  mod : Option Mod := none
  page : Option (BitVec 10) := none
  twice : Bool := false
  deriving DecidableEq, Repr

/-- One more prefix word (R91). -/
def Prefixes.add (p : Prefixes) (w : BitVec 16) : Prefixes :=
  let p := { p with count := p.count + 1 }
  match (w.extractLsb' 10 2).toNat with
  | 0 => { p with imms := p.imms ++ [w.extractLsb' 0 10] }
  | 1 => { p with twice := p.twice || p.opnd.isSome,
                  opnd := some { b := w.extractLsb' 5 5, dh := w.getLsbD 4, ah := w.getLsbD 3, bh := w.getLsbD 2, width := w.extractLsb' 0 2 } }
  | 2 => { p with twice := p.twice || p.page.isSome, page := some (w.extractLsb' 0 10) }
  | _ => { p with twice := p.twice || p.mod.isSome,
                  mod := some { sense := w.getLsbD 9, pred := w.extractLsb' 6 3, cls := w.extractLsb' 0 6 } }

/-- HALT and HALT.retain share op 26 of page 0: MOD[0] tells them apart (R135). -/
def haltOf (o : Ops) : Instr := if bitOf (o.clsOr 0) 0 then .haltRetain o else .halt o

/-- EGO and EGO.resume share op 4 of page 9: MOD[1] tells them apart (R216). -/
def egoOf (o : Ops) : Instr := if bitOf (o.clsOr 0) 1 then .egoResume o else .ego o

/-- DQPOP and DQPOP.lq share op 15 of page 9: MOD[0] tells them apart (R216). -/
def dqpopOf (o : Ops) : Instr := if bitOf (o.clsOr 0) 0 then .dqpopLq o else .dqpop o

/-- The constructors of an instruction, by page and op (R101). -/
def opMap : List (List (Ops → Instr)) := [
  [.nop, .mov, .movi, .add, .sub, .and, .or, .xor, .andn, .shl, .shr, .sar, .mul, .cmp, .sel, .ld, .st, .ldl, .stl, .br, .call, .ret, .jmp, .loop, .waitc, .yield, haltOf, .trap],
  [.mulh, .mulhn, .div, .divn, .rem, .remn, .rol, .ror, .clz, .ctz, .popc, .ext, .extn, .ins, .min, .max, .minn, .maxn, .abs, .lea, .addp, .pand, .por, .pxor, .pnot, .movp, .lcr, .lcw, .fatx, .fats],
  [.ldI8, .ldN8, .ldI16, .ldN16, .ldI32, .ldN32, .st8, .st16, .st32, .ldw, .ldc, .stf, .ste, .feget, .feset, .pst2, .pref, .fence, .fencex],
  [.aadd, .aand, .aor, .axor, .amin, .amax, .aminn, .amaxn, .aswp, .acas, .afadd, .afmax, .gacc, .garr, .garm, .gstat],
  [.vld, .vst, .vlds, .vsts, .vgth, .vsct, .vldl, .vstl, .vldt, .vstt, .vldc, .vmov, .vbcast, .vext, .vins, .vperm, .vcompr, .vmlog, .vmpop, .vmget],
  [.vfadd, .vfsub, .vfmul, .vfma, .vfnma, .vfdot, .vfmin, .vfmax, .vfabs, .vfneg, .vfdiv, .vfsqrt, .vfrsq, .vfcmp, .vfred, .vfrmax, .vfscl],
  [.vadd, .vsub, .vmul, .vmulh, .vmin, .vmax, .vand, .vor, .vxor, .vshl, .vshr, .vsar, .vcmp, .vsel, .vabs, .vred, .vidx, .vdot4],
  [.vcvtf, .vcvti, .vcvtfi, .vpack, .vunpk, .vqdb, .vdqdb, .vbmax, .vqf8, .baddrq],
  [.tclaim, .trel, .tscl, .mcfg, .mma, .msamp, .msp24, .tnorm, .tstat, .tzero, .tcvt, .tspill, .tfill, .sdset, .sdget],
  [.xcopy, .xcopym, .iwalk, .igath, egoOf, .erdv, .ecset, .ecadd, .barr, .barw, .barmx, .barx, .fork, .join, .dqpush, dqpopOf, .dqsteal, .handoff, .capq, .ssend, .msgsend, .msgrecv],
  [.mfs, .mts, .tret, .fwcall, .tlbinv, .cinv, .cwb, .brk, .idle, .pglob]]

/-- The page that the prefixes select (R96): 0 without PAGE; none for a reserved page or non-zero data bits 1:0. -/
def Prefixes.pageNum (p : Prefixes) : Option Nat :=
  match p.page with
  | none => some 0
  | some v => if fld v.toNat 0 2 = 0 ∧ 1 ≤ fld v.toNat 2 8 ∧ fld v.toNat 2 8 ≤ 10 then some (fld v.toNat 2 8) else none

/-- The instruction that a base word completes, or the lowest reason above 1 (R102). -/
def finish (p : Prefixes) (w : BitVec 16) : Decoded :=
  let o : Ops := { imms := p.imms, opnd := p.opnd, mod := p.mod, d := w.extractLsb' 6 5, a := w.extractLsb' 1 5, s := w.getLsbD 0 }
  let n := p.count + 1
  if p.twice then .ill 2 n
  else match p.pageNum with
    | none => .ill 3 n
    | some pg => match (opMap.getD pg [])[(w.extractLsb' 11 5).toNat]? with
      | none => .ill 4 n
      | some mk => match (mk o).spec with
        | none => .ill 4 n
        | some sp => match sp.check o with
          | some r => .ill r n
          | none => .instr (mk o) n

/-- Reads words until the base word or a fifth prefix (R92, R102 code 1). -/
def decodeFrom (p : Prefixes) : List (BitVec 16) → Decoded
  | [] => .more
  | w :: ws =>
    if w.extractLsb' 12 4 = 15#4 then
      if p.count = 4 then .ill 1 5 else decodeFrom (p.add w) ws
    else finish p w

/-- The decoder, total on any words. -/
def decode (ws : List (BitVec 16)) : Decoded := decodeFrom {} ws

/-- The little-endian 16-bit words of a run of bytes (R89); an odd last byte is dropped. -/
def wordsOf : List Byte → List (BitVec 16)
  | lo :: hi :: bs => (hi ++ lo : BitVec 16) :: wordsOf bs
  | _ => []

/-- The decoder on bytes. -/
def decodeBytes (bs : List Byte) : Decoded := decode (wordsOf bs)

/-- An OPND prefix word (R91). -/
def Opnd.word (p : Opnd) : BitVec 16 :=
  (0b111101#6 ++ p.b ++ BitVec.ofBool p.dh ++ BitVec.ofBool p.ah ++ BitVec.ofBool p.bh ++ p.width : BitVec 16)

/-- A MOD prefix word (R91). -/
def Mod.word (m : Mod) : BitVec 16 := (0b111111#6 ++ BitVec.ofBool m.sense ++ m.pred ++ m.cls : BitVec 16)

/-- The words of a chain (R89 to R91), prefixes in the order that dxas emits. -/
def Ops.words (o : Ops) (page op : Nat) : List (BitVec 16) :=
  (if page = 0 then [] else [(0b111110#6 ++ BitVec.ofNat 8 page ++ 0#2 : BitVec 16)])
  ++ (match o.opnd with | some p => [p.word] | none => [])
  ++ (match o.mod with | some m => [m.word] | none => [])
  ++ o.imms.map (fun c => (0b111100#6 ++ c : BitVec 16))
  ++ [(BitVec.ofNat 5 op ++ o.d ++ o.a ++ BitVec.ofBool o.s : BitVec 16)]

/-- The encoder: the words of an instruction; none for an event. -/
def encode (i : Instr) : List (BitVec 16) :=
  match i.spec, i.ops with
  | some sp, some o => o.words sp.page sp.op
  | _, _ => []

/-- The number of words of an instruction's chain (R89). -/
def Instr.words (i : Instr) : Nat := (encode i).length

/-- The bytes of an instruction whose bits, numbered as the opcode table numbers them, are `w`: nbits of them, and zeros up to
the longest instruction, five words. -/
def tableBytes (nbits w : Nat) : List Byte :=
  (toBytes (nbits / 8) w ++ List.replicate (10 - nbits / 8) 0).map (BitVec.ofNat 8)

/-- The instruction the decoder reads from a table row's bits. -/
def decodeTableWord (nbits w : Nat) : Option Instr :=
  match decodeBytes (tableBytes nbits w) with
  | .instr i _ => some i
  | _ => none

end Sys2Proof
end

