-- ==== Sys2Proof/Machine/Num.lean ====
section
/-! DEFINITION. Number formats and exact arithmetic (chapter 2): decoding a format, exact sums and products, one rounding, the NaN
rules and the flags they raise. A finite value is neg, m and e for (−1)^neg · m · 2^e. -/

namespace Sys2Proof

/-- A decoded floating-point operand. A NaN keeps its fraction left-aligned to the 31 bits of A40 (R40). -/
inductive Num where
  | nan (neg : Bool) (pay : Nat) (signalling : Bool)
  | inf (neg : Bool)
  | fin (neg : Bool) (m : Nat) (e : Int)
  deriving DecidableEq, Repr

/-- A binary format (R24): exponent bits, fraction bits, bias, and whether it has infinities. -/
structure Fmt where
  eb : Nat
  fb : Nat
  bias : Nat
  hasInf : Bool
  deriving DecidableEq, Repr

namespace Fmt

/-- The formats of R24. -/
def f32 : Fmt := ⟨8, 23, 127, true⟩
def f16 : Fmt := ⟨5, 10, 15, true⟩
def bf16 : Fmt := ⟨8, 7, 127, true⟩
def e4m3 : Fmt := ⟨4, 3, 7, false⟩
def e5m2 : Fmt := ⟨5, 2, 15, true⟩
def a40 : Fmt := ⟨8, 31, 127, true⟩

/-- The width of the encoding in bits. -/
def bits (f : Fmt) : Nat := 1 + f.eb + f.fb

/-- The exponent of the least normal value. -/
def emin (f : Fmt) : Int := 1 - (f.bias : Int)

/-- The sign bit in place. -/
def signBit (f : Fmt) (neg : Bool) : Nat := if neg then 2 ^ (f.eb + f.fb) else 0

/-- The magnitude pattern of the largest finite value (R24, R26). -/
def maxPat (f : Fmt) : Nat := if f.hasInf then (2 ^ f.eb - 1) * 2 ^ f.fb - 1 else 2 ^ (f.eb + f.fb) - 2

/-- The magnitude pattern of infinity, in a format that has one. -/
def infPat (f : Fmt) : Nat := (2 ^ f.eb - 1) * 2 ^ f.fb

/-- The canonical NaN (R39). -/
def canon (f : Fmt) : Nat := if f.hasInf then f.infPat + 2 ^ (f.fb - 1) else 2 ^ (f.eb + f.fb) - 1

/-- A vector-float type code of R98. -/
def ofTy : Nat → Fmt
  | 0 => f32
  | 1 => bf16
  | 2 => f16
  | 3 => e4m3
  | _ => e5m2

/-- A pointer or `mctl` format code of R29 for an element that is a float. -/
def ofCode : Nat → Fmt
  | 2 => bf16
  | 3 => f16
  | 4 => e4m3
  | 5 => e5m2
  | _ => f32

/-- The value of an encoding (R24 to R26). -/
def decode (f : Fmt) (x : Nat) : Num :=
  let neg := bitOf x (f.eb + f.fb)
  let e := fld x f.fb f.eb
  let m := fld x 0 f.fb
  if f.hasInf = true ∧ e = 2 ^ f.eb - 1 then
    if m = 0 then .inf neg else .nan neg (m * 2 ^ (31 - f.fb)) (!bitOf m (f.fb - 1))
  else if f.hasInf = false ∧ e = 2 ^ f.eb - 1 ∧ m = 2 ^ f.fb - 1 then .nan neg (m * 2 ^ (31 - f.fb)) false
  else if e = 0 then .fin neg m (f.emin - f.fb)
  else .fin neg (m + 2 ^ f.fb) ((e : Int) - f.bias - f.fb)

/-- A NaN in the format: sign kept, the high-order fraction bits that fit, quiet bit set (R39, R40). -/
def nanPat (f : Fmt) (neg : Bool) (pay : Nat) : Nat :=
  f.signBit neg + (if f.hasInf then f.infPat + (pay / 2 ^ (31 - f.fb) ||| 2 ^ (f.fb - 1)) else 2 ^ (f.eb + f.fb) - 1)

end Fmt

/-- Flag bits in the layout of `xflags` (R45). -/
def NV : Nat := 1
def DZ : Nat := 2
def OF : Nat := 4
def UF : Nat := 8
def NX : Nat := 16
def SAT : Nat := 32

/-- The rounding modes of R35. -/
def RNE : Nat := 0
def RZ : Nat := 1
def RDN : Nat := 2
def RUP : Nat := 3
def RNA : Nat := 4
def RS : Nat := 5

/-- A magnitude on the grid 2^u: the count of steps, whether the value was inexact, and whether it was rounded up. `h` is the
32-bit draw of R38; `sticky` says that the exact value lies above m·2^e by less than one unit of m. [DEDUCED, log 21] -/
def gridRound (mode h : Nat) (neg : Bool) (m : Nat) (e : Int) (sticky : Bool) (u : Int) : Nat × Bool × Bool :=
  if u ≤ e then (m * 2 ^ (e - u).toNat, sticky, false)
  else
    let s := (u - e).toNat
    let q := m / 2 ^ s
    let r := m % 2 ^ s
    let half := 2 ^ (s - 1)
    let inexact := r ≠ 0 || sticky
    let up : Bool := match mode with
      | 0 => decide (half < r) || (r == half && (sticky || q % 2 == 1))
      | 1 => false
      | 2 => inexact && neg
      | 3 => inexact && !neg
      | 4 => decide (half ≤ r)
      | _ => decide (h < r * 2 ^ 32 / 2 ^ s)
    (q + b2n up, inexact, up)

/-- Round(fmt, mode) of a finite value (R35 to R38): the pattern and the flags. `sat` selects the saturating FP8 conversion of R37. [DEDUCED, log 21] -/
def roundFin (f : Fmt) (mode h : Nat) (sat : Bool) (neg : Bool) (m : Nat) (e : Int) (sticky : Bool) : Nat × Nat :=
  if m = 0 then (f.signBit neg, 0)
  else
    let top := e + (Nat.log2 m : Nat)
    let u0 := top - f.fb
    let u := max u0 (f.emin - f.fb)
    let r := gridRound mode h neg m e sticky u
    let q := r.1
    let inexact := r.2.1
    -- tiny: the rounding with an unbounded exponent range stays below the least normal value (R36)
    let q0 := (gridRound mode h neg m e sticky u0).1
    let tiny := decide (u0 < f.emin - f.fb) && !(q0 == 2 ^ (f.fb + 1) && u0 + 1 == f.emin - f.fb)
    -- pattern of q·2^u: a carry out of the fraction moves to the next exponent by itself
    let steps : Int := u - (f.emin - f.fb)
    let pat : Nat := steps.toNat * 2 ^ f.fb + q
    if decide (f.maxPat < pat) || decide ((2 ^ (f.eb + 1) : Nat) < steps) then
      let toInf := match mode with
        | 0 => true
        | 1 => false
        | 2 => neg
        | 3 => !neg
        | 4 => true
        | _ => r.2.2
      let fl := OF ||| NX
      if sat then (f.signBit neg + f.maxPat, fl ||| SAT)
      else if toInf = false then (f.signBit neg + f.maxPat, fl)
      else if f.hasInf then (f.signBit neg + f.infPat, fl)
      else (f.signBit neg + f.canon, fl)
    else (f.signBit neg + pat, (if inexact then NX else 0) ||| (if tiny && inexact then UF else 0))

/-- Conversion of any value to a format (R36, R37, R40). -/
def convert (f : Fmt) (mode h : Nat) (sat : Bool) : Num → Nat × Nat
  | .nan neg pay sg => (f.nanPat neg pay, if sg then NV else 0)
  | .inf neg =>
    if sat then (f.signBit neg + f.maxPat, SAT)
    else if f.hasInf then (f.signBit neg + f.infPat, 0)
    else (f.signBit neg + f.canon, NV)
  | .fin neg m e => roundFin f mode h sat neg m e false

/-- Conversion in `.rne` to a format with infinities: the pattern alone. -/
def pat (f : Fmt) (x : Num) : Nat := (convert f RNE 0 false x).1

/-- The signed value of a finite number scaled to the exponent `lo` ≤ e. -/
def scaled (neg : Bool) (m : Nat) (e lo : Int) : Int :=
  let v : Int := m * 2 ^ (e - lo).toNat
  if neg then -v else v

/-- An exact sum of numbers, with IEEE signs of zero in the given mode: zeros of one sign keep it, else +0, or −0 under `.rdn`.
Infinities of both signs are invalid. The caller has dealt with NaN operands. The second part is the NV of an invalid sum. [DEDUCED, log 21] -/
def exactSum (mode : Nat) (xs : List Num) : Num × Nat :=
  let infs := xs.filterMap (fun x => match x with | .inf n => some n | _ => none)
  if infs.contains true && infs.contains false then (.nan false (2 ^ 30) false, NV)
  else match infs with
    | n :: _ => (.inf n, 0)
    | [] =>
      let fins := xs.filterMap (fun x => match x with | .fin n m e => some (n, m, e) | _ => none)
      let live := fins.filter (fun x => x.2.1 ≠ 0)
      match live with
      | [] => (.fin (if fins.all (·.1) && !fins.isEmpty then true else if fins.all (!·.1) then false else mode == RDN) 0 0, 0)
      | x :: rest =>
        let lo := rest.foldl (fun l y => min l y.2.2) x.2.2
        let t := live.foldl (fun (s : Int) y => s + scaled y.1 y.2.1 y.2.2 lo) 0
        if t = 0 then (.fin (mode == RDN) 0 0, 0) else (.fin (decide (t < 0)) t.natAbs lo, 0)

/-- The exact product of two operands that are not NaN; ∞·0 is invalid. -/
def exactMul : Num → Num → Num × Nat
  | .fin a m e, .fin b n f => (.fin (a != b) (m * n) (e + f), 0)
  | .inf a, .inf b => (.inf (a != b), 0)
  | .inf a, .fin b n _ => if n = 0 then (.nan false (2 ^ 30) false, NV) else (.inf (a != b), 0)
  | .fin a m _, .inf b => if m = 0 then (.nan false (2 ^ 30) false, NV) else (.inf (a != b), 0)
  | x, _ => (x, 0)

/-- Negation of a number. -/
def Num.neg : Num → Num
  | .nan n p s => .nan n p s
  | .inf n => .inf (!n)
  | .fin n m e => .fin (!n) m e

/-- Is it a NaN? -/
def Num.isNan : Num → Bool
  | .nan _ _ _ => true
  | _ => false

/-- The NaN rule of R39: the first NaN of the operands in order, and NV when any is signalling; none without NaNs. [DEDUCED, log 20] -/
def firstNan (xs : List Num) : Option (Num × Nat) :=
  let ns := xs.filter Num.isNan
  match ns with
  | [] => none
  | .nan n p _ :: _ => some (.nan n p false, if ns.any (fun x => match x with | .nan _ _ s => s | _ => false) then NV else 0)
  | x :: _ => some (x, 0)

/-- Delivers an operation: its NaN rule, then the exact value with the flags found so far, rounded once. [DEDUCED, log 20; DEDUCED, log 21] -/
def deliver (f : Fmt) (mode : Nat) (operands : List Num) (exact : Num × Nat) : Nat × Nat :=
  match firstNan operands with
  | some (n, fl) => ((convert f mode 0 false n).1, fl)
  | none => let r := convert f mode 0 false exact.1
    (r.1, r.2 ||| exact.2)

/-- Addition, subtraction and multiplication with one rounding (R177). -/
def fAdd (f : Fmt) (mode : Nat) (a b : Num) : Nat × Nat := deliver f mode [a, b] (exactSum mode [a, b])
def fSub (f : Fmt) (mode : Nat) (a b : Num) : Nat × Nat := deliver f mode [a, b] (exactSum mode [a, b.neg])
def fMul (f : Fmt) (mode : Nat) (a b : Num) : Nat × Nat := deliver f mode [a, b] (exactMul a b)

/-- a·b + c, or −(a·b) + c, with one rounding; NaN order a, b, c. ∞·0 raises NV and delivers c, quietened, when c is a NaN (R177). -/
def fFma (f : Fmt) (mode : Nat) (negate : Bool) (a b c : Num) : Nat × Nat :=
  let p := exactMul a b
  let nan2 := a.isNan || b.isNan
  match firstNan [a, b, c] with
  | some (n, fl) => ((convert f mode 0 false n).1, fl ||| (if nan2 then 0 else p.2))
  | none =>
    if p.2 ≠ 0 then (f.canon, NV)
    else deliver f mode [] (exactSum mode [if negate then p.1.neg else p.1, c])

/-- A finite quotient m·2^e with enough bits below the rounding point, and whether it was inexact. -/
def quot (a : Nat) (ea : Int) (b : Nat) (eb : Int) : Nat × Int × Bool :=
  (a * 2 ^ 128 / b, ea - eb - 128, a * 2 ^ 128 % b ≠ 0)

/-- Division, correctly rounded (R177). -/
def fDiv (f : Fmt) (mode : Nat) (a b : Num) : Nat × Nat :=
  match firstNan [a, b] with
  | some (n, fl) => ((convert f mode 0 false n).1, fl)
  | none => match a, b with
    | .inf _, .inf _ => (f.canon, NV)
    | .inf n, .fin k _ _ => (f.signBit (n != k) + f.infPat, 0)
    | .fin n _ _, .inf k => (f.signBit (n != k), 0)
    | .fin n m e, .fin k l g =>
      if l = 0 then (if m = 0 then (f.canon, NV) else (f.signBit (n != k) + f.infPat, DZ))
      else let q := quot m e l g
        roundFin f mode 0 false (n != k) q.1 q.2.1 q.2.2
    | _, _ => (f.canon, 0)

/-- The integer square root, bit by bit from bit `k` down. -/
def isqrtAux (x : Nat) : Nat → Nat → Nat
  | 0, r => r
  | k + 1, r => let r' := r + 2 ^ k
    if r' * r' ≤ x then isqrtAux x k r' else isqrtAux x k r

/-- floor(√x). -/
def isqrt (x : Nat) : Nat := isqrtAux x (Nat.log2 x / 2 + 1) 0

/-- Square root, correctly rounded (R180). -/
def fSqrt (f : Fmt) (mode : Nat) (a : Num) : Nat × Nat :=
  match a with
  | .nan n p s => (f.nanPat n p, if s then NV else 0)
  | .inf n => if n then (f.canon, NV) else (f.infPat, 0)
  | .fin n m e =>
    if m = 0 then (f.signBit n, 0)
    else if n then (f.canon, NV)
    else
      let m2 := (if e % 2 = 0 then m else 2 * m) * 2 ^ 128
      let e2 := (if e % 2 = 0 then e else e - 1) - 128
      let r := isqrt m2
      roundFin f mode 0 false false r (e2 / 2) (r * r ≠ m2)

/-- 1/√x, correctly rounded (R180). -/
def fRsqrt (f : Fmt) (mode : Nat) (a : Num) : Nat × Nat :=
  match a with
  | .nan n p s => (f.nanPat n p, if s then NV else 0)
  | .inf n => if n then (f.canon, NV) else (0, 0)
  | .fin n m e =>
    if m = 0 then (f.signBit n + f.infPat, DZ)
    else if n then (f.canon, NV)
    else
      let m2 := if e % 2 = 0 then m else 2 * m
      let e2 := if e % 2 = 0 then e else e - 1
      let r := isqrt (2 ^ 256 / m2)
      roundFin f mode 0 false false r (-128 - e2 / 2) (r * r * m2 ≠ 2 ^ 256)

/-- The order of values that are not NaN, −0 below +0: less than. -/
def Num.lt : Num → Num → Bool
  | .inf a, .inf b => a && !b
  | .inf a, .fin _ _ _ => a
  | .fin _ _ _, .inf b => !b
  | .fin a m e, .fin b n f =>
    let lo := min e f
    let x := scaled a m e lo
    let y := scaled b n f lo
    decide (x < y) || (x == y && m == 0 && a && !b)
  | _, _ => false

/-- IEEE comparison of values that are not NaN: −1, 0 or 1, with both zeros equal. -/
def Num.cmp (x y : Num) : Int :=
  match x, y with
  | .fin _ 0 _, .fin _ 0 _ => 0
  | _, _ => if x.lt y then -1 else if y.lt x then 1 else 0

/-- Minimum and maximum with −0 below +0, NaNs by R39 (R179). -/
def fMinMax (f : Fmt) (isMax : Bool) (a b : Num) : Nat × Nat :=
  match firstNan [a, b] with
  | some (n, fl) => (pat f n, fl)
  | none => (pat f (if isMax then (if a.lt b then b else a) else (if b.lt a then b else a)), 0)

/-- x·2^n for an exact scaling by any integer: beyond ±4,096 no format can tell the difference. -/
def Num.scale (x : Num) (n : Int) : Num :=
  match x with
  | .fin s m e => .fin s m (e + max (-4096) (min 4096 n))
  | y => y

/-- Float to integer (R44): the value and the flags, for w bits, signed or unsigned. -/
def toInteger (mode w : Nat) (signed : Bool) (x : Num) : Int × Nat :=
  let lo : Int := if signed then -(2 ^ (w - 1) : Nat) else 0
  let hi : Int := if signed then (2 ^ (w - 1) : Nat) - 1 else (2 ^ w : Nat) - 1
  match x with
  | .nan _ _ _ => (0, NV)
  | .inf n => (if n then lo else hi, NV)
  | .fin n m e =>
    if m ≠ 0 ∧ 200 < e then (if n then lo else hi, NV)
    else
      let r := gridRound mode 0 n m e false 0
      let v : Int := if n then -(r.1 : Int) else r.1
      if v < lo then (lo, NV) else if hi < v then (hi, NV) else (v, if r.2.1 then NX else 0)

/-- An integer as a number. -/
def Num.ofInt (x : Int) : Num := .fin (decide (x < 0)) x.natAbs 0

/-- The hash of R38 for lane L and seed. -/
def mix (seed lane : Nat) : Nat :=
  let h := (seed + lane * 0x9E3779B9) % 2 ^ 32
  let h := h ^^^ (h / 2 ^ 16)
  let h := h * 0x7FEB352D % 2 ^ 32
  let h := h ^^^ (h / 2 ^ 15)
  let h := h * 0x846CA68B % 2 ^ 32
  h ^^^ (h / 2 ^ 16)

/-- The advance of a seed register after an `.rs` instruction (R38). -/
def seedNext (seed : Nat) : Nat := (seed + 0x85EBCA6B) % 2 ^ 32

/-- Draw(x, y, i) of R112. -/
def draw (x y i : Nat) : Nat := (x + y * 0x85EBCA6B + i * 0x9E3779B9) % 2 ^ 32

/-- Condition codes 16 to 29 (R100, R181): the truth, and the flags of the comparison. -/
def fCond (c : Nat) (a b : Num) : Bool × Nat :=
  let un := a.isNan || b.isNan
  let sig := (firstNan [a, b]).elim 0 (·.2)
  let nv := if un && (c == 18 || c == 19 || c == 20 || c == 21) then NV else sig
  let k := a.cmp b
  let t := match c with
    | 16 => !un && k == 0
    | 17 => !un && k != 0
    | 18 => !un && k == -1
    | 19 => !un && k != 1
    | 20 => !un && k == 1
    | 21 => !un && k != -1
    | 22 => !un
    | 23 => un || k == 0
    | 24 => un || k != 0
    | 25 => un || k == -1
    | 26 => un || k != 1
    | 27 => un || k == 1
    | 28 => un || k != -1
    | _ => un
  (t, nv)

/-- Condition codes 0 to 11 (R100) on two w-bit values. -/
def iCond (c x y w : Nat) : Bool :=
  match c with
  | 0 => x == y
  | 1 => x != y
  | 2 => decide (sgn x w < sgn y w)
  | 3 => decide (sgn x w ≤ sgn y w)
  | 4 => decide (sgn y w < sgn x w)
  | 5 => decide (sgn y w ≤ sgn x w)
  | 6 => decide (x < y)
  | 7 => decide (x ≤ y)
  | 8 => decide (y < x)
  | 9 => decide (y ≤ x)
  | 10 => x &&& y != 0
  | _ => x &&& y == 0

/-- FP32 helpers of the sampled draw (R208): RN of a sum, product, quotient and root of FP32 patterns; flags are dropped. -/
def rnAdd (a b : Nat) : Nat := (fAdd .f32 RNE (Fmt.f32.decode a) (Fmt.f32.decode b)).1
def rnSub (a b : Nat) : Nat := (fSub .f32 RNE (Fmt.f32.decode a) (Fmt.f32.decode b)).1
def rnMul (a b : Nat) : Nat := (fMul .f32 RNE (Fmt.f32.decode a) (Fmt.f32.decode b)).1
def rnDiv (a b : Nat) : Nat := (fDiv .f32 RNE (Fmt.f32.decode a) (Fmt.f32.decode b)).1
def rnSqrt (a : Nat) : Nat := (fSqrt .f32 RNE (Fmt.f32.decode a)).1

/-- RN(p / q) of two naturals. -/
def rnRatio (p q : Nat) : Nat := (fDiv .f32 RNE (.fin false p 0) (.fin false q 0)).1

end Sys2Proof
end

