-- ==== Sys2Proof/Machine/State.lean ====
section
/-! DEFINITION. The state of the whole device as plain data, and the state after reset. A table lists only the entries that
were ever written; an unlisted key reads as the reset value of its kind. -/

namespace Sys2Proof.Machine

open Sys2Proof

/-- Bytes by address: addresses strictly rising, no entry equal to 0, which is what an unlisted address reads as. -/
abbrev Mem := List Host.Cell

/-- A table by number, keys strictly rising. -/
abbrev Tbl (α : Type) := List (Nat × α)

/-- Why a step can stop. -/
inductive Fault where
  /-- Raised by an instruction when `cur` names an empty context slot, which no step of the machine does: no rule gives an
  instruction a meaning without a context. Safe. -/
  | noContext
  deriving DecidableEq, Repr

/-- Why an instruction has no meaning. -/
inductive Refusal where
  /-- Raised by a dispatch arm whose instruction is not modelled yet. Safe. -/
  | notModelled (mnemonic : String)
  deriving DecidableEq, Repr

/-- What a trap writes (R351): cause, `xaddr`, `xinfo`, and `xpc` where it is not the address of the trapping chain. -/
structure Trap where
  cause : Nat
  xaddr : Word := 0
  xinfo : Word := 0
  xpc : Option Word := none
  /-- the context whose trap the cluster report takes it for: a gang's leader (R205) -/
  leader : Option Nat := none
  deriving DecidableEq, Repr

/-- One hardware loop level (R126 to R128): count, start, end, and the writes held until a loop-back. -/
structure Loop where
  lc : Word := 0
  ls : Word := 0
  le : Word := 0
  heldLs : Option Word := none
  heldLe : Option Word := none
  deriving DecidableEq, Repr

/-- The per-context status registers of R245, but for `coreid`, `now` and `fduty`, which are not per context. [DESIGN CHOICE, log 3] -/
structure SRegs where
  xstat : Word := 0
  xcause : Word := 0
  xpc : Word := 0
  xaddr : Word := 0
  xinfo : Word := 0
  tvec : Word := 0
  rbudget : Word := 0
  parkctl : Word := 0
  xflags : Word := 0
  xenable : Word := 0
  mctl : BitVec 128 := 0x0000000000000000000001010000_0820#128
  qbase : Word := 0
  ckbase : Word := 0
  prvbase : Word := 0
  hbase : Word := 0
  hlimit : Word := 0
  hoffset : Word := 0
  ctxid : Word := 0
  capmode : Word := 0
  deriving DecidableEq, Repr

/-- The stages of a waiting full/empty form (R67, R68). -/
inductive FePhase where
  | evaluating
  | backoff (till : Nat)
  | parking
  deriving DecidableEq, Repr

/-- One condition of a waiting WAITC: the last probe answer for a word condition, its back-off count and end (R132), the end 0 once it is over and the
probe itself is held up. -/
structure Probe where
  answer : Option Bool := none
  j : Nat := 0
  till : Nat := 0
  deriving DecidableEq, Repr

/-- What a context waits for while it is not ready. [DEDUCED, log 22] -/
inductive Wait where
  | none
  /-- a waiting full/empty form: its access, retry count and stage -/
  | fe (acc j : Nat) (phase : FePhase)
  | waitc (deadline : Nat) (probes : List Probe)
  /-- until access `acc` has completed (GARR, TSPILL, TFILL, a converting VLD) -/
  | access (acc : Nat)
  /-- back-off of TCLAIM, of an accumulator binding and of MSGSEND (R197, R198, R241); `till` is 0 once the back-off is over and the attempt itself is held up -/
  | retry (j till : Nat)
  /-- at the gang join: both conditions of R205 hold once `met`; until then the wait ends with a GANG trap at tick `till` -/
  | gang (till : Nat) (met : Bool)
  | barw (group : Nat) (phase : BitVec 32)
  | erdv
  | idle (target : Nat)
  | fw (request : Nat)
  | pst2 (job : Nat)
  deriving DecidableEq, Repr

/-- A context slot (R10 to R12, R104 to R107, R245, R352). [DESIGN CHOICE, log 3] -/
structure Ctx where
  /-- the slot holds a context -/
  occ : Bool := false
  /-- the address of its continuation record -/
  rcd : Word := 0
  /-- the number of its continuation: engine commands and products are its own by it, wherever it is picked up -/
  uid : Nat := 0
  /-- its device context -/
  dc : Nat := 0
  /-- a restore still to be made: a pickup's restore has faulted on the frame (R361) -/
  unrestored : Option Nat := none
  pc : Word := 0
  g : Vector Word 64 := Vector.replicate 64 0
  v : Vector Vec 64 := Vector.replicate 64 0
  p : BitVec 8 := 1
  vm : Vector (BitVec 32) 8 := Vector.replicate 8 0
  l0 : Loop := {}
  l1 : Loop := {}
  sd : Vector (BitVec 32) 16 := Vector.replicate 16 0
  sr : SRegs := {}
  group : BitVec 16 := 0
  prio : BitVec 2 := 0
  /-- the superstep step s of SSEND (R239) -/
  sstep : BitVec 2 := 0
  /-- pending bits (R104) -/
  pendG : BitVec 64 := 0
  pendV : BitVec 64 := 0
  pendP : BitVec 8 := 0
  pendVm : BitVec 8 := 0
  /-- parked by its switch marker (R105) -/
  sw : Bool := false
  wait : Wait := .none
  /-- the instruction that waits -/
  held : Option Instr := none
  /-- a trap whose entry waits for pending results (R352) -/
  trap : Option Trap := none
  /-- YIELD: issue slots left, and the contexts that have still to issue (R125) -/
  yld : Option (Nat × List Nat) := none
  /-- physical slots of the logical accumulators (R198) -/
  tc : Vector (Option Nat) 32 := Vector.replicate 32 none
  /-- a pre-emption request to leave at the next checkpoint (R359) -/
  preempt : Bool := false
  /-- a PREEMPT trap still to be delivered (R359, R360) -/
  pmTrap : Bool := false
  /-- an ECC trap to be taken at the next instruction (R378, R390) -/
  ecc : Option Trap := none
  /-- a trap has been entered, and the first chain at the handler has still to be fetched and to run (R353) -/
  entered : Bool := false
  /-- stopped by a fault at its handler (R353) -/
  stopped : Bool := false
  /-- a pre-emption has ended its wait at a barrier: it leaves pinned to its core (R231) -/
  pinned : Bool := false
  deriving DecidableEq, Repr

/-- Where a physical piece of memory lies (R397, R343). -/
inductive Place where
  | here
  | remote (dev : Nat)
  | host
  | window
  | absent
  deriving DecidableEq, Repr

/-- One piece of an access (R141, R170): its address, its place in the access's bytes, and the data stored or received. -/
structure Piece where
  va : Word
  place : Place
  pa : Nat
  n : Nat
  off : Nat := 0
  data : Nat := 0
  cached : Bool := true
  /-- virtual base and size of the page that translated it; size 0 through the heap triple (R251) -/
  page : Nat × Nat := (0, 0)
  done : Bool := false
  /-- the tick at which its port lost the peer while it was outstanding (R378) -/
  lost : Option Nat := none
  deriving DecidableEq, Repr

/-- The full/empty forms (R64). -/
inductive FeForm where
  | ldw | ldc | stf | ste | feget | feset
  deriving DecidableEq, Repr

/-- What an access in flight does with its pieces. -/
inductive AccKind where
  | load
  | store
  | atomic (op n : Nat) (y c : Nat)
  | fe (form : FeForm)
  | gacc (lanes : List (Option Nat))
  | garr
  | gstat
  deriving DecidableEq, Repr

/-- Where a completed access delivers its bytes. -/
inductive Dest where
  | nowhere
  /-- general registers: number, byte offset, bytes, sign-extended -/
  | gregs (ws : List (Nat × Nat × Nat × Bool))
  /-- a group of `w` vector registers -/
  | vregs (d w : Nat)
  /-- a converting VLD: the FP32 lanes of a group of `w` vector registers, its format and block-length codes, its mask; when its flags may trap,
  the access waits for its instruction (R46) -/
  | conv (d w fmt c : Nat) (mask : BitVec 32) (precise : Bool)
  /-- TFILL: the bytes are the image of a slot; the name that it has bound at issue -/
  | image (bound : Option Nat)
  deriving DecidableEq, Repr

/-- The translation that an access or engine command captures at issue (R222). -/
structure Trans where
  prvbase : Nat := 0
  hbase : Nat := 0
  hlimit : Nat := 0
  hoffset : Nat := 0
  ctxid : Nat := 0
  super : Bool := false
  cap : Bool := false
  dc : Nat := 0
  deriving DecidableEq, Repr

/-- An access between its issue and its completion. Accesses of a core stand in issue order. -/
structure Access where
  id : Nat
  slot : Nat
  kind : AccKind
  ord : Nat := 0
  scope : Nat := 3
  nc : Bool := false
  pieces : List Piece := []
  dest : Dest := .nowhere
  /-- record block header (R76) -/
  hdr : Nat := 0
  /-- physical address of the first group entry of the word's page (R347) -/
  leaf : Nat := 0
  /-- the translation that it was issued with (R348) -/
  trans : Trans := {}
  deriving DecidableEq, Repr

/-- A variable-latency result on its way to its registers (R104), with the flags it delivers (R45). -/
structure Result where
  slot : Nat
  g : List (Nat × Word) := []
  v : List (Nat × Vec) := []
  p : List (Nat × Bool) := []
  vm : List (Nat × BitVec 32) := []
  flags : Nat := 0
  deriving DecidableEq, Repr

/-- Who owns a tile or accumulator slot (R15, R197). -/
inductive Own where
  | free
  | ctx (slot : Nat)
  | kept (rcd : Word)
  /-- its context has halted while matrix operations use it: free when the last of them ends (R135) -/
  | ending
  deriving DecidableEq, Repr

/-- What HALT.retain keeps for a successor record (R15), with the continuation that retained it. -/
structure Kept where
  rcd : Word
  uid : Nat
  tc : List (Nat × Nat) := []
  lo : Nat := 0
  len : Nat := 0
  deriving DecidableEq, Repr

/-- A C-memory slot: 1,024 A40 elements by R27, and the header of R57. -/
structure Acc where
  el : BitVec 40960 := 0
  hdr : BitVec 512 := 0
  own : Own := .free
  deriving DecidableEq, Repr

/-- An operation of the matrix slice between issue and end (R204). -/
structure MatOp where
  uid : Nat
  /-- header code: 1 MMA, 2 MSAMP, 3 MSP24, 4 MMA.msk (R57) -/
  op : Nat
  acc : Bool
  gang : Bool
  mctl : BitVec 128
  /-- physical accumulator -/
  tc : Nat
  ta : Nat
  tb : Nat
  b : Nat := 0
  seed : Nat := 0
  /-- the core whose A chain is read, and whether that is this core -/
  leader : Nat
  ownA : Bool := true
  running : Bool := false
  /-- the scoreboard entries over its operand slots when it was issued, for which it waits (R22): the engine and the command of each -/
  waits : List (Bool × Nat) := []
  /-- norms as read at the start, and the slices recomputed -/
  na : List Nat := []
  nb : List Nat := []
  stale : Nat := 0
  deriving DecidableEq, Repr

/-- An event counter's error flag (R226), with the engine and record that raised it. -/
inductive EcFlag where
  | clear | raised | reported
  deriving DecidableEq, Repr

/-- A piece of an engine command (R224): where it lies, its place in the command's bytes, and for a source its fe bit. -/
structure EPiece where
  /-- local space 0 A, 1 W, 2 L; 3 for device memory -/
  space : Nat
  va : Word
  place : Place := .here
  pa : Nat
  n : Nat
  off : Nat
  /-- virtual base and size of the page that translated it; size 0 through the heap triple and for a local buffer (R251) -/
  page : Nat × Nat := (0, 0)
  done : Bool := false
  /-- the tick at which its port lost the peer while it was outstanding (R378) -/
  lost : Option Nat := none
  deriving DecidableEq, Repr

/-- A command in an engine (R217, R223): its descriptor, its index in its program, the counter of its EGO.ec, its pieces once started, and the
bytes and fe bits that its source pieces have read. [DESIGN CHOICE, log 33] -/
structure Cmd where
  id : Nat
  w : List Word
  addr : Nat := 0
  index : Nat := 0xFFFF
  ego : Option Nat := none
  /-- the program that the command belongs to, by number; none for one that a thread issued -/
  prog : Option Nat := none
  trans : Trans := {}
  uid : Nat
  rd : List EPiece := []
  wr : List EPiece := []
  buf : Mem := []
  fe : Tbl Bool := []
  /-- the fault that its start has met and the engine has still to take: cause, space, address (R225) -/
  bad : Option (Nat × Nat × Word) := none
  /-- virtual base and size of the pages that translated its list (R251) -/
  lists : List (Nat × Nat) := []
  /-- a faulted command that goes back to the head of the queue: it is earlier than what its engine has not started (R223, R227) -/
  back : Bool := false
  deriving DecidableEq, Repr

/-- A queue entry of an engine: one command, or a program at an L-memory address (R222, R227). -/
inductive EEntry where
  | cmd (c : Cmd)
  | prog (addr : Nat) (ec : Option Nat) (trans : Trans) (uid : Nat)
  deriving DecidableEq, Repr

/-- An engine's fault record (R225, R226). -/
structure EFault where
  cause : Nat
  addr : Word
  xsp : Nat
  index : Nat
  /-- the counter whose flag was raised -/
  ec : Option Nat
  cmd : Cmd
  deriving DecidableEq, Repr

/-- A program being run: its number and next descriptor index (R227). -/
structure Prog where
  id : Nat := 0
  addr : Nat
  next : Nat := 0
  ec : Option Nat := none
  trans : Trans := {}
  uid : Nat := 0
  deriving DecidableEq, Repr

/-- The copy engine or the index engine of a core (R222, R223, R225). -/
structure Engine where
  queue : List EEntry := []
  prog : Option Prog := none
  /-- programs with a counter whose END has been read and has still to add 1 to it (R227) -/
  ends : List Prog := []
  flight : List Cmd := []
  fault : Option EFault := none
  deriving DecidableEq, Repr

/-- A scoreboard entry (R21): the command that holds it, and its buffer range. -/
structure Score where
  eng : Bool
  cmd : Nat
  buf : Nat
  lo : Nat
  hi : Nat
  deriving DecidableEq, Repr

/-- A change kept aside while a latched phase has not reached its members (R230). -/
inductive BarKept where
  | arrive
  | mx (val : Word) (slot reg : Nat)
  | pc (val : Int)
  deriving DecidableEq, Repr

/-- A barrier group of a core (R229, R230). `pc` is signed 64-bit. -/
structure Bar where
  arrived : Bool := false
  phase : BitVec 32 := 0
  pc : Word := 0
  mx : Word := 0
  waiters : List (Nat × Nat) := []
  kept : List BarKept := []
  deriving DecidableEq, Repr

/-- Where an SSEND of a core stands with an arrival at `b7` of its step n, 1 or 3 (R239): it counts for the phase that runs, it is kept aside for the next
one (R230), or its phase has completed. [DEDUCED, log 64] -/
inductive SsMark where
  | arrived (n : Nat)
  | kept (n : Nat)
  | ended
  deriving DecidableEq, Repr

/-- A record on a queue or deque: its address, its device context, its control.prio, its pin and the tick of its arrival at its
level (R316, R335). -/
structure QEnt where
  rcd : Word
  dc : Nat := 0
  prio : Nat := 0
  pin : Option Nat := none
  tick : Nat := 0
  /-- the number of the continuation, 0 before its first pickup -/
  uid : Nat := 0
  deriving DecidableEq, Repr

/-- A translation held in a TLB (R345): page base, size, the leaf's words, its group's first entry. -/
structure TlbEnt where
  ctxid : Nat
  va : Nat
  size : Nat
  w0 : Nat
  w1 : Nat
  entry : Nat
  deriving DecidableEq, Repr

/-- A core (R9, R20, R21, R229, R236). [DESIGN CHOICE, log 4; DESIGN CHOICE, log 5; DEDUCED, log 48] -/
structure Core where
  lmem : Mem := []
  abuf : Mem := []
  wbuf : Mem := []
  smem : Mem := []
  /-- norm tables (R50): slots 0–31 of the A-buffer, then 32–95 for the W-buffer; unlisted reads as reset -/
  norms : Tbl (BitVec 320) := []
  /-- owners of the A slots 0–31 and the W slots 32–95; unlisted is free -/
  slots : Tbl Own := []
  accs : Tbl Acc := []
  kept : List Kept := []
  scores : List Score := []
  dcache : Tbl (BitVec 512) := []
  flight : List Access := []
  nextId : Nat := 0
  results : List Result := []
  ec : Vector (BitVec 32) 16 := Vector.replicate 16 0
  ecf : Vector EcFlag 16 := Vector.replicate 16 .clear
  /-- wait list of the event counters: records, the counters they named (R134) -/
  ecWait : List (QEnt × List Nat) := []
  bars : Vector Bar 8 := Vector.replicate 8 {}
  /-- FIFO end first, LIFO end last -/
  deque : List QEnt := []
  copy : Engine := {}
  index : Engine := {}
  mat : List MatOp := []
  /-- the continuations whose exchange is not checked: those between the two `b7` completions of an SSEND (R239, R322) -/
  exch : List Nat := []
  /-- the arrivals of SSENDs at `b7`, by continuation (R239) -/
  ss : Tbl SsMark := []
  /-- operand slots that the commands of a continuation may still write although it holds no context slot: those it owned when it halted or was hard-saved (R135, R221, R360) -/
  rights : Tbl (List Nat) := []
  utlb : List TlbEnt := []
  slotNo : Nat := 0
  rot : Vector (BitVec 3) 4 := Vector.replicate 4 0
  fduty : BitVec 5 := 16
  fenced : Bool := false
  eccCount : Nat := 0
  /-- tick of a pre-emption request whose deadline is running (R359) -/
  preemptAt : Option Nat := none
  deriving DecidableEq, Repr

/-- A byte of the hard-save image of a context, whose layout no rule gives: it is some function of the context's whole state (R360, R362, R385). [DESIGN CHOICE, log 12; DESIGN CHOICE, log 56] -/
opaque Config.hardImage : Ctx → Nat → BitVec 8

/-- A byte of the part of a core's image whose layout no rule gives: some function of the core's state (R362, R385). [DESIGN CHOICE, log 12; DESIGN CHOICE, log 56] -/
opaque Config.coreImage : Core → Nat → BitVec 8

/-- A row: token balance, refill rate, and the tick at which its keepers' taper ends (R382, R383). [DESIGN CHOICE, log 6] -/
structure Row where
  balance : Nat := 0
  refill : Nat := 1
  taper : Option Nat := none
  deriving DecidableEq, Repr

/-- A cluster-cache line (R252, R282). What makes a line dirty is a store that has not been performed at its home yet; it stands among the accesses in
flight. -/
structure CLine where
  data : BitVec 512
  deriving DecidableEq, Repr

/-- A cluster (R9, R47, R335, R355, R370, R381). -/
structure Cluster where
  queues : Vector (List QEnt) 4 := Vector.replicate 4 []
  tlb : List TlbEnt := []
  cache : Tbl CLine := []
  crepId : Word := 0
  crepPc : Word := 0
  /-- traps taken in the open window: index (die, cluster, core, context), cause, PC -/
  window : List (Nat × Nat × Word) := []
  cstop : Word := 0
  bias : BitVec 4 := 0
  /-- held at a low duty since a junction temperature of 105 °C (R381) -/
  hot : Bool := false
  energy : Word := 0
  deriving DecidableEq, Repr

/-- A barrier group's layout in the truss (R330, R331). -/
structure Group where
  level : Nat := 0
  mask : BitVec 32 := 0
  spread : Nat := 0
  count : Nat := 0
  deriving DecidableEq, Repr

/-- A region of the superstep region table (R358). -/
structure Region where
  base : Nat
  log2 : Nat
  owner : Nat
  sharer : Nat := 0
  /-- in transit to this owner, from this core, after these accesses of it -/
  transit : Option (Nat × Nat × List Nat) := none
  deriving DecidableEq, Repr

/-- A running launch of a device context (R330 to R333). -/
structure Launch where
  entry : Nat
  /-- the place of each byte of the completion record, when it translates (R331) -/
  completion : Option (List Nat)
  dsize : Nat := 0
  firstTick : Nat := 0
  created : Nat := 0
  status : Nat := 0
  super : Bool := false
  deriving DecidableEq, Repr

/-- What a switched-out device context keeps (R362, R363). [DESIGN CHOICE, log 12] -/
structure Saved where
  ctxs : Tbl Ctx := []
  cores : Tbl Core := []
  queues : Tbl (Vector (List QEnt) 4) := []
  truss : Vector Group 8 := Vector.replicate 8 {}
  latched : List (Nat × Nat) := []
  deriving DecidableEq, Repr

/-- A device context's registers and records (R327, R334, R339, R349, R387). [DESIGN CHOICE, log 7] -/
structure DevCtx where
  qbasep : Word := 0
  qsize : Word := 0
  qhead : Word := 0
  qtail : Word := 0
  tmplp : Word := 0
  qstat : Word := 0
  ptroot : Word := 0
  rtbase : Word := 0
  svbase : Word := 0
  dlctl : Word := 0x2710
  energy : Word := 0
  res : Word := 0
  lnch : Word := 0
  switches : Word := 0
  power : Option Nat := none
  template : Vector Word 16 := Vector.replicate 16 0
  rules : Mem := []
  launch : Option Launch := none
  live : Nat := 0
  regions : Tbl Region := []
  /-- an abort to perform at the next switch-in (R398) -/
  abortDue : Bool := false
  /-- an abort is under way: nothing of the launch is placed or issues any more (R398) -/
  aborting : Bool := false
  saved : Option Saved := none
  deriving DecidableEq, Repr

/-- A digest record of the piers (R325): window, and one sum per pier. -/
structure Digest where
  base : Nat
  size : Nat
  sums : Vector Word 8 := Vector.replicate 8 0
  deriving DecidableEq, Repr

/-- What a park-table slot's record is in the model: the slot's physical address, the record, its word, its cluster, its ctxid and
the group entry that counts it (R356). [DESIGN CHOICE, log 88] -/
structure Parked where
  slot : Nat
  ent : QEnt
  word : Nat
  cluster : Nat
  ctxid : Nat
  leaf : Nat
  deriving DecidableEq, Repr

/-- A pier's commit or PST2 in progress (R84 to R87). -/
inductive JobKind where
  | commit (block hdr : Nat)
  | pst2 (core slot : Nat) (writes : List (Nat × Nat))
  deriving DecidableEq, Repr

/-- The stages of a commit or PST2: `emptied` words so far, then writes, fills, end (R85). -/
structure Job where
  kind : JobKind
  words : List Nat
  emptied : Nat := 0
  /-- 0 emptying, 1 written, 2 filled -/
  stage : Nat := 0
  dc : Nat := 0
  deriving DecidableEq, Repr

/-- What GARM records for later commits (R76, R79): header, and physical bases and strides of the copies. [DEDUCED, log 60] -/
structure Armed where
  hdr : Nat
  pbase : Nat := 0
  tbase : Nat := 0
  pstride : Nat := 0
  tstride : Nat := 0
  dc : Nat := 0
  deriving DecidableEq, Repr

/-- A request to Cethen (R250, R373). -/
structure FwReq where
  id : Nat
  core : Nat
  slot : Nat
  svc : Nat
  arg : Word
  dc : Nat
  trans : Trans := {}
  deriving DecidableEq, Repr

/-- A page request posted to the driver (R375): the service, the page's base, size, its group's first entry, its level step. -/
structure Posted where
  req : FwReq
  op : Nat
  va : Nat
  size : Nat
  entry : Nat
  count : Nat
  pa : Nat
  seq : Nat
  deriving DecidableEq, Repr

/-- A Univo port (R377, R380). -/
structure Port where
  ulctl : Word := 0
  ulstat : Word := 0
  rqbase : Word := 0
  queue : List (Nat × Nat) := []
  used : BitVec 256 := 0
  /-- tick at which training began, or at which the peer was lost -/
  since : Nat := 0
  deriving DecidableEq, Repr

/-- Device registers without a table of their own (R349, R370, R375, R389). [DESIGN CHOICE, log 8] -/
structure Regs where
  bstat : Word := 0
  bootsrc : Word := 0
  bootlen : Word := 0
  fwver : Word := 0
  devid : Word := 0xFFF
  rwbase : Word := 0
  rwsize : Word := 0
  pwcap : Word := 2400
  pwnow : Word := 0
  frz : Word := 0
  pcib2 : Word := 0
  pkbase : Word := 0
  mbstage : Word := 0
  mbslen : Word := 0
  mbreq0 : Word := 0
  mbreq1 : Word := 0
  mbreq2 : Word := 0
  mbans0 : Word := 0
  mbans1 : Word := 0
  rascmem : Word := 0
  rasumem : Word := 0
  rascsram : Word := 0
  rasusram : Word := 0
  rasjoin : Word := 0
  rasfenced : Word := 0
  raslast : Word := 0
  deriving DecidableEq, Repr

/-- The management cores (R371, R385): the context that each runs, in slot 0 of cores 0 to 3, those cores, and their memory with its full/empty bits and
the PST2s in progress there. [DEDUCED, log 51] -/
structure Mgmt where
  ctxs : Tbl Ctx := []
  cores : Tbl Core := []
  mem : Mem := []
  lineMeta : Tbl (BitVec 32) := []
  jobs : Tbl Job := []
  nextJob : Nat := 0
  deriving DecidableEq, Repr

/-- A byte of the management cores' registers as a readout shows them: some function of them (R385). [DESIGN CHOICE, log 12; DESIGN CHOICE, log 56] -/
opaque Config.mgmtImage : Mgmt → Nat → BitVec 8

/-- The device. [DESIGN CHOICE, log 1; DESIGN CHOICE, log 4; DESIGN CHOICE, log 8; DESIGN CHOICE, log 9; DESIGN CHOICE, log 57] -/
structure State where
  /-- this device's HBM5 and host memory by physical address (R397) -/
  mem : Mem := []
  /-- memory of the other devices: device·2^56 + address -/
  rmem : Mem := []
  /-- the metadata word of each 64-byte line (R62); unlisted is 0xFF -/
  lineMeta : Tbl (BitVec 32) := []
  /-- poisoned lines (R390) -/
  poison : List Nat := []
  /-- context slots, key 8·core + slot -/
  ctxs : Tbl Ctx := []
  cores : Tbl Core := []
  rows : Tbl Row := []
  clusters : Tbl Cluster := []
  devctxs : Tbl DevCtx := []
  regs : Regs := {}
  ports : Tbl Port := []
  /-- routing table (R377) -/
  routes : Tbl Word := []
  truss : Vector Group 8 := Vector.replicate 8 {}
  /-- latched barrier phases: group, domain (R230) -/
  latched : List (Nat × Nat) := []
  digests : Tbl Digest := []
  parked : List Parked := []
  wakes : List Parked := []
  jobs : Tbl Job := []
  nextJob : Nat := 0
  /-- the device's own writes that wait at the pier of a block that is BUSY, oldest first: address, bytes, value (R81) -/
  late : List (Nat × Nat × Nat) := []
  armed : Tbl Armed := []
  fwq : List FwReq := []
  nextFw : Nat := 0
  posted : Option Posted := none
  mbseq : BitVec 32 := 0
  /-- the error ring (R392): entries written, newest last -/
  ring : List (Nat × Nat × Nat × Nat) := []
  ringSeq : BitVec 16 := 0
  /-- MSI-X vectors raised, newest last; AER errors raised (R333, R390) -/
  msix : List Nat := []
  aer : Nat := 0
  now : Word := 0
  /-- the resident device context, once the device is ready (R340) -/
  resident : Option Nat := none
  residentSince : Nat := 0
  energySum : Word := 0
  /-- the incoming device context of a switch in progress (R362) -/
  incoming : Option Nat := none
  /-- the fetched image, and d of the running image (R372, R394) -/
  image : List Byte := []
  digest : List Byte := []
  /-- the management cores and their memory (R371) -/
  mgmt : Mgmt := {}
  /-- the outcome of the PCIe training that the boot ROM makes (R371, R376) -/
  pcieUp : Bool := true
  fetchStart : Nat := 0
  fuseSteps : Nat := 0
  /-- tick of the last power period (R381) -/
  budgetAt : Nat := 0
  selfRefresh : Bool := false
  /-- continuations numbered so far, 1 for the next -/
  nextUid : Nat := 1
  /-- a FENCE.sc has passed the ordering point this many times (R151) -/
  scOrder : Nat := 0
  /-- the model's own: the context that the current instruction belongs to, key 8·core + slot -/
  cur : Nat := 0
  /-- the model's own: the last instruction could not issue -/
  stall : Bool := false
  /-- the model's own: turns already decided, and the number of turns taken from the schedule -/
  turns : List Turn := []
  turnNo : Nat := 0
  /-- the model's own: the number of free values drawn -/
  freeNo : Nat := 0
  deriving DecidableEq, Repr

/-- The machine right after reset: the boot state is 0, `now` is 0, and no context, record or launch exists. [DESIGN CHOICE, log 3; DESIGN CHOICE, log 4; DESIGN CHOICE, log 5; DESIGN CHOICE, log 6] -/
def State.reset : State := {}

end Sys2Proof.Machine
end

