-- ==== Sys2Proof/Machine/Mem.lean ====
section
/-! DEFINITION. Tables, byte memories and the accessors of the state: every register and every byte is read and written through
the functions of this file. -/

namespace Sys2Proof.Machine

open Sys2Proof

/-- The entry of key `k`, or the default. [DESIGN CHOICE, log 4] -/
def tget {α : Type} (t : Tbl α) (k : Nat) (d : α) : α :=
  match t with
  | [] => d
  | (j, x) :: r => if j = k then x else tget r k d

/-- Sets the entry of key `k`, in place or in order of keys. -/
def tset {α : Type} (t : Tbl α) (k : Nat) (v : α) : Tbl α :=
  match t with
  | [] => [(k, v)]
  | (j, x) :: r => if k < j then (k, v) :: (j, x) :: r else if j = k then (k, v) :: r else (j, x) :: tset r k v

/-- Is key `k` listed? -/
def thas {α : Type} (t : Tbl α) (k : Nat) : Bool := t.any (fun e => e.1 == k)

/-- Drops the entry of key `k`. -/
def tdel {α : Type} (t : Tbl α) (k : Nat) : Tbl α := t.filter (fun e => e.1 != k)

/-- The byte at an address: what an unlisted address reads as is 0 (R371 zeroes every byte of the HBM5). [DESIGN CHOICE, log 4] -/
def mget (m : Mem) (a : Nat) : Byte :=
  match m with
  | [] => 0
  | (j, x) :: r => if j = a then x else mget r a

/-- Writes one byte and keeps the canonical form: writing 0 lists nothing. -/
def mset (m : Mem) (a : Nat) (b : Byte) : Mem :=
  match m with
  | [] => if b = 0 then [] else [(a, b)]
  | (j, x) :: r =>
    if a < j then (if b = 0 then (j, x) :: r else (a, b) :: (j, x) :: r)
    else if j = a then (if b = 0 then r else (a, b) :: r)
    else (j, x) :: mset r a b

/-- The canonical form of a byte memory: addresses strictly rising, no entry equal to 0. -/
def Mem.wf (m : Mem) : Bool :=
  match m with
  | [] => true
  | [(_, x)] => x != 0
  | (j, x) :: (k, y) :: r => x != 0 && decide (j < k) && Mem.wf ((k, y) :: r)

/-- The n bytes from `a`, little-endian (R5). [DESIGN CHOICE, log 4] -/
def mread (m : Mem) (a : Nat) : Nat → Nat
  | 0 => 0
  | n + 1 => (mget m a).toNat + 256 * mread m (a + 1) n

/-- Writes the low n bytes of `v` from `a` on (R5). -/
def mwrite (m : Mem) (a : Nat) : Nat → Nat → Mem
  | 0, _ => m
  | n + 1, v => mwrite (mset m a (BitVec.ofNat 8 v)) (a + 1) n (v / 256)

/-- The bytes from `a` as a list. -/
def mbytes (m : Mem) (a n : Nat) : List Nat := (List.range n).map (fun i => (mget m (a + i)).toNat)

/-- Writes a list of bytes. -/
def mblit (m : Mem) (a : Nat) : List Nat → Mem
  | [] => m
  | b :: bs => mblit (mset m a (BitVec.ofNat 8 b)) (a + 1) bs

/-- Drops every listed byte of [lo, hi). -/
def mclear (m : Mem) (lo hi : Nat) : Mem := m.filter (fun e => decide (e.1 < lo) || decide (hi ≤ e.1))

/-- Copies every listed byte of `src` in [lo, lo + n) to `dst` from `to_` on, over zeros. -/
def mcopy (dst : Mem) (to_ : Nat) (src : Mem) (lo n : Nat) : Mem :=
  src.foldl (fun m e => if lo ≤ e.1 ∧ e.1 < lo + n then mset m (to_ + (e.1 - lo)) e.2 else m) (mclear dst to_ (to_ + n))

/-- The lines that n bytes from `pa` on touch, by an address in each. -/
def linesAt (pa n : Nat) : List Nat := if n = 0 then [] else (List.range ((pa + n - 1) / 64 + 1 - pa / 64)).map (fun i => 64 * (pa / 64 + i))

namespace State

/-- The context in slot key `k` = 8·core + slot. -/
def ctx (s : State) (k : Nat) : Ctx := tget s.ctxs k {}

/-- Replaces a context. -/
def setCtx (s : State) (k : Nat) (c : Ctx) : State := { s with ctxs := tset s.ctxs k c }

/-- A core. -/
def core (s : State) (k : Nat) : Core := tget s.cores k {}

/-- Replaces a core. -/
def setCore (s : State) (k : Nat) (c : Core) : State := { s with cores := tset s.cores k c }

/-- A row: row r holds cores 8r to 8r + 7. -/
def row (s : State) (k : Nat) : Row := tget s.rows k {}

/-- Replaces a row. -/
def setRow (s : State) (k : Nat) (r : Row) : State := { s with rows := tset s.rows k r }

/-- A cluster: cluster c holds cores 32c to 32c + 31. -/
def cluster (s : State) (k : Nat) : Cluster := tget s.clusters k {}

/-- Replaces a cluster. -/
def setCluster (s : State) (k : Nat) (c : Cluster) : State := { s with clusters := tset s.clusters k c }

/-- A device context. -/
def dctx (s : State) (k : Nat) : DevCtx := tget s.devctxs k {}

/-- Replaces a device context. -/
def setDctx (s : State) (k : Nat) (d : DevCtx) : State := { s with devctxs := tset s.devctxs k d }

/-- A Univo port. -/
def port (s : State) (k : Nat) : Port := tget s.ports k {}

/-- Replaces a port. -/
def setPort (s : State) (k : Nat) (p : Port) : State := { s with ports := tset s.ports k p }

/-- The context of the current instruction. -/
def cx (s : State) : Ctx := s.ctx s.cur

/-- Replaces the context of the current instruction. -/
def setCx (s : State) (c : Ctx) : State := s.setCtx s.cur c

/-- The core of the current instruction. -/
def coreNo (s : State) : Nat := s.cur / 8

/-- The current core's state. -/
def co (s : State) : Core := s.core s.coreNo

/-- Replaces the current core's state. -/
def setCo (s : State) (c : Core) : State := s.setCore s.coreNo c

/-- The context slots of a core, as keys. -/
def slotsOf (core : Nat) : List Nat := (List.range 8).map (8 * core + ·)

/-- bstat.state (R370). -/
def bootState (s : State) : Nat := fld s.regs.bstat.toNat 0 4

/-- Nothing happens until the next reset: the device is frozen (R384), so every clock of cores, piers, engines and links has stopped, or its boot
has failed (R371). -/
def still (s : State) : Bool := s.bootState == 7 || s.bootState == 6

/-- Ready (R371): command queues run. -/
def ready (s : State) : Bool := s.bootState == 5

/-- The reference tick counter as a number. -/
def tick (s : State) : Nat := s.now.toNat

/-- The metadata word of the line that holds `pa` (R62). [DESIGN CHOICE, log 4] -/
def lineWord (s : State) (pa : Nat) : BitVec 32 := tget s.lineMeta (pa / 64) 0xFF

/-- The fe bit of the word that holds `pa`. -/
def fe (s : State) (pa : Nat) : Bool := (s.lineWord pa).getLsbD (pa / 8 % 8)

/-- The wait bit of the word that holds `pa`. -/
def waitBit (s : State) (pa : Nat) : Bool := (s.lineWord pa).getLsbD (8 + pa / 8 % 8)

/-- The WL bit of the line that holds `pa`. -/
def wl (s : State) (pa : Nat) : Bool := (s.lineWord pa).getLsbD 16

/-- Sets one metadata bit of the line that holds `pa`. -/
def setMetaBit (s : State) (pa bit : Nat) (v : Bool) : State :=
  let w := s.lineWord pa
  let m : BitVec 32 := BitVec.ofNat 32 (2 ^ bit)
  { s with lineMeta := tset s.lineMeta (pa / 64) (if v then w ||| m else w &&& ~~~m) }

/-- Sets the wait bit of a word. -/
def setWaitBit (s : State) (pa : Nat) (v : Bool) : State := s.setMetaBit pa (8 + pa / 8 % 8) v

/-- The digest record whose window holds a physical address (R325). -/
def digestOf (s : State) (pa : Nat) : Option (Nat × Digest) :=
  s.digests.find? (fun e => decide (e.2.base ≤ pa) && decide (pa < e.2.base + e.2.size))

/-- H(a, L) of R324 for the line at `pa`. -/
def lineHash (m : Mem) (base pa : Nat) : Nat :=
  let a := pa / 64 * 64
  ofBytes ((sha3 (toBytes 8 (a - base) ++ mbytes m a 64)).take 8)

/-- The digest update of R324 by a write that turns memory `s.mem` into `m` in the line of `pa`. -/
def digestLine (s : State) (m : Mem) (pa : Nat) : State :=
  match s.digestOf pa with
  | none => s
  | some (k, d) =>
    let stack := pa / 2048 % 8
    let old := (d.sums[stack]?).getD 0
    let new := BitVec.ofNat 64 (lineHash m d.base pa)
    let sum := if s.wl pa then old - BitVec.ofNat 64 (lineHash s.mem d.base pa) + new else old + new
    let s := s.setMetaBit pa 16 true
    { s with digests := tset s.digests k { d with sums := d.sums.setIfInBounds stack sum } }

/-- The home pier removes every cluster-cache copy of a line homed in this device before it acknowledges a write to it (R282). -/
def uncache (s : State) (pa : Nat) : State :=
  if s.clusters.any (fun e => thas e.2.cache (pa / 64)) then
    { s with clusters := s.clusters.map (fun (e : Nat × Cluster) => (e.1, { e.2 with cache := tdel e.2.cache (pa / 64) })) }
  else s

/-- A write of data bytes at the home pier of this device's HBM5, with what R324 and R282 do for each line it touches in the same step. A write of a
full line clears its poison mark (R390). -/
def pierWrite (s : State) (pa n v : Nat) : State :=
  let m := mwrite s.mem pa n v
  let s := if n = 64 ∧ pa % 64 = 0 then { s with poison := s.poison.filter (· != pa / 64) } else s
  { (linesAt pa n).foldl (fun s a => (s.digestLine m a).uncache a) s with mem := m }

/-- Writes a run of bytes line by line at their piers. -/
def pierBlit (s : State) (pa : Nat) (bs : List Nat) : State :=
  match bs with
  | [] => s
  | b :: r => pierBlit (s.pierWrite pa 1 b) (pa + 1) r

/-- Reads device memory. -/
def rd (s : State) (pa n : Nat) : Nat := mread s.mem pa n

/-- Draws the next free value number. -/
def fresh (s : State) : State := { s with freeNo := s.freeNo + 1 }

end State

namespace Ctx

/-- G[n]: `g0` reads 0 (R93). -/
def getG (c : Ctx) (n : Nat) : Word := if n = 0 then 0 else (c.g[n]?).getD 0

/-- G[n] ← x: a write to `g0` is discarded. -/
def setG (c : Ctx) (n : Nat) (x : Word) : Ctx := if n = 0 then c else { c with g := c.g.setIfInBounds n x }

/-- V[n]. -/
def getV (c : Ctx) (n : Nat) : Vec := (c.v[n]?).getD 0

/-- V[n] ← x. -/
def setV (c : Ctx) (n : Nat) (x : Vec) : Ctx := { c with v := c.v.setIfInBounds n x }

/-- P[n]: `p0` is true. -/
def getP (c : Ctx) (n : Nat) : Bool := n == 0 || c.p.getLsbD n

/-- P[n] ← b: a write to `p0` is discarded. -/
def setP (c : Ctx) (n : Nat) (b : Bool) : Ctx :=
  if n = 0 then c else { c with p := if b then c.p ||| BitVec.ofNat 8 (2 ^ n) else c.p &&& ~~~(BitVec.ofNat 8 (2 ^ n)) }

/-- VM[n]: `vm0` is all ones. -/
def getVm (c : Ctx) (n : Nat) : BitVec 32 := if n = 0 then 0xFFFFFFFF else (c.vm[n]?).getD 0

/-- VM[n] ← x: a write to `vm0` is discarded. -/
def setVm (c : Ctx) (n : Nat) (x : BitVec 32) : Ctx := if n = 0 then c else { c with vm := c.vm.setIfInBounds n x }

/-- A seed register. -/
def getSd (c : Ctx) (n : Nat) : BitVec 32 := (c.sd[n]?).getD 0

/-- Writes a seed register. -/
def setSd (c : Ctx) (n : Nat) (x : BitVec 32) : Ctx := { c with sd := c.sd.setIfInBounds n x }

/-- A group of w vector registers as one number, the first in the lowest bytes (R161). -/
def getVs (c : Ctx) (n : Nat) : Nat → Nat
  | 0 => 0
  | w + 1 => (c.getV n).toNat + 2 ^ 1024 * getVs c (n + 1) w

/-- Writes a group of w vector registers. -/
def setVs (c : Ctx) (n : Nat) : Nat → Nat → Ctx
  | 0, _ => c
  | w + 1, x => setVs (c.setV n (BitVec.ofNat 1024 x)) (n + 1) w (x / 2 ^ 1024)

/-- The current mode (R246): supervisor when `xstat`.S is 1. -/
def super (c : Ctx) : Bool := c.sr.xstat.getLsbD 0

/-- A loop level. -/
def loop (c : Ctx) (k : Nat) : Loop := if k = 0 then c.l0 else c.l1

/-- Writes a loop level. -/
def setLoop (c : Ctx) (k : Nat) (l : Loop) : Ctx := if k = 0 then { c with l0 := l } else { c with l1 := l }

/-- Is level k suspended (R127, R246)? -/
def suspended (c : Ctx) (k : Nat) : Bool := c.sr.xstat.getLsbD (2 + k)

/-- The retry budget (R66). -/
def budget (c : Ctx) : Nat := fld c.sr.rbudget.toNat 0 8

/-- Park enable (R66). -/
def parkEnable (c : Ctx) : Bool := c.sr.parkctl.getLsbD 0

/-- The translation in force (R23, R222). -/
def trans (c : Ctx) : Trans :=
  { prvbase := c.sr.prvbase.toNat, hbase := c.sr.hbase.toNat, hlimit := c.sr.hlimit.toNat, hoffset := c.sr.hoffset.toNat,
    ctxid := c.sr.ctxid.toNat, super := c.super, cap := c.sr.capmode.getLsbD 0, dc := c.dc }

/-- No pending bit is set (R107). -/
def drained (c : Ctx) : Bool := c.pendG == 0 && c.pendV == 0 && c.pendP == 0 && c.pendVm == 0

end Ctx

/-- Codes of registers for pending bits (R104, R351): 64·file + number, files `g`, `v`, `p`, `vm`. -/
def rg (n : Nat) : Nat := n
def rv (n : Nat) : Nat := 64 + n
def rp (n : Nat) : Nat := 128 + n
def rm (n : Nat) : Nat := 192 + n

/-- The codes of a group of `w` consecutive registers. -/
def grp (f : Nat → Nat) (n w : Nat) : List Nat := (List.range w).map (fun i => f (n + i))

/-- Is the register's pending bit set? `g0`, `p0` and `vm0` have none. -/
def Ctx.pending (c : Ctx) (r : Nat) : Bool :=
  let n := r % 64
  match r / 64 with
  | 0 => c.pendG.getLsbD n
  | 1 => c.pendV.getLsbD n
  | 2 => c.pendP.getLsbD n
  | _ => c.pendVm.getLsbD n

/-- Sets or clears a pending bit; `g0`, `p0` and `vm0` have none (R104). -/
def Ctx.mark (b : Bool) (c : Ctx) (r : Nat) : Ctx :=
  let n := r % 64
  let upd {w : Nat} (x : BitVec w) : BitVec w := if b then x ||| BitVec.ofNat w (2 ^ n) else x &&& ~~~(BitVec.ofNat w (2 ^ n))
  match r / 64 with
  | 0 => if n = 0 then c else { c with pendG := upd c.pendG }
  | 1 => { c with pendV := upd c.pendV }
  | 2 => if n = 0 then c else { c with pendP := upd c.pendP }
  | _ => if n = 0 then c else { c with pendVm := upd c.pendVm }

/-- Marks a list of registers pending, or not. -/
def Ctx.marks (b : Bool) (c : Ctx) (rs : List Nat) : Ctx := rs.foldl (Ctx.mark b) c

end Sys2Proof.Machine
end

