-- ==== Sys2Proof/Machine/Translate.lean ====
section
/-! DEFINITION. Translation of a virtual address (R23, R342 to R346), the physical map (R397), and the checks of an access against
page attributes and kinds of memory (R139 to R142, R322). -/

namespace Sys2Proof.Machine

open Sys2Proof

/-- Start of the private window (R23). -/
def privStart : Nat := 0x00FF000000000000

/-- Where a physical address lies (R397). [DEDUCED, log 28] -/
def placeOf (pa : Nat) : Place :=
  if pa < 0x8000000000 then .here
  else if 0x10000000000 ≤ pa ∧ pa < 0x10001000000 then .window
  else if 2 ^ 55 ≤ pa ∧ pa < 2 ^ 56 then .host
  else .absent

/-- The reduction aperture of R380, which no thread may access (R397). [DEDUCED, log 28] -/
def inAperture (pa : Nat) : Bool := decide (0xFF00000000 ≤ pa) && decide (pa < 0xFF000C0000)

/-- A translated address: place, physical address, leaf attributes (R343), header-array base, physical address of the page's
first group entry (0 through the heap triple), virtual base and size of the page, level of the walk (15 without one). -/
structure Phys where
  place : Place
  pa : Nat
  c : Bool := true
  x : Bool := true
  sup : Bool := false
  ro : Bool := false
  pr : Bool := false
  rh : Bool := false
  hdrBase : Nat := 0
  leaf : Nat := 0
  base : Nat := 0
  size : Nat := 0
  lev : Nat := 15
  deriving DecidableEq, Repr

/-- The result of a translation. `range` carries the sum that left [0, 2^56) (R23 step 1). -/
inductive XRes where
  | ok (p : Phys)
  | xlate (reason lev : Nat)
  | range (addr : Nat)
  /-- the walk has met a poisoned line of a table (R390): its physical address, and the level -/
  | ecc (line lev : Nat)
  deriving DecidableEq, Repr

/-- Bit position of a level's index, lowest bit (R342). -/
def levShift (lev : Nat) : Nat := match lev with | 0 => 48 | 1 => 39 | 2 => 30 | 3 => 21 | _ => 12

/-- The index of a level in a virtual address (R342). -/
def levIndex (va lev : Nat) : Nat := if lev = 0 then fld va 48 8 else fld va (levShift lev) 9

/-- Page size, as a power of two, by SZ code (R344). -/
def pageLog (sz : Nat) : Nat := match sz with
  | 0 => 12 | 1 => 14 | 2 => 16 | 3 => 18 | 4 => 20 | 5 => 21 | 6 => 22 | 7 => 24 | 8 => 26 | 9 => 28 | 10 => 30 | _ => 34

/-- The level at which a page size stands (R344). -/
def pageLev (sz : Nat) : Nat := if sz ≤ 4 then 4 else if sz ≤ 9 then 3 else 2

/-- Entries per group (R344). -/
def groupCount (sz : Nat) : Nat := 2 ^ (pageLog sz - levShift (pageLev sz))

/-- What a walk finds (R345). -/
inductive Walk where
  | leaf (w0 w1 entry va size lev : Nat)
  | fault (reason lev : Nat) (w0 entry : Nat)
  /-- the line of an entry is poisoned (R390) -/
  | poisoned (line lev : Nat)
  deriving DecidableEq, Repr

/-- The walker (R345), from table `t` at level `lev`, with the levels that are left. Table entries are read by physical address
at their home pier (R342); `bad` tells the lines that are poisoned there. -/
def walkFrom (m : Mem) (bad : Nat → Bool) (va : Nat) : Nat → Nat → Nat → Walk
  | 0, lev, _ => .fault 2 lev 0 0
  | fuel + 1, lev, t =>
    let i := levIndex va lev
    let ea := t + 16 * i
    let w0 := mread m ea 8
    let w1 := mread m (ea + 8) 8
    if bad (ea / 64) then .poisoned (ea / 64) lev
    else if bitOf w0 0 = false then .fault 1 lev w0 ea
    else if bitOf w0 1 = false then
      if lev = 4 ∨ fld w0 2 11 ≠ 0 ∨ w1 ≠ 0 then .fault 2 lev w0 ea
      else walkFrom m bad va fuel (lev + 1) (fld w0 12 44 * 4096)
    else
      let sz := fld w0 2 4
      if lev < 2 ∨ 12 ≤ sz ∨ pageLev sz ≠ lev then .fault 2 lev w0 ea
      else
        let fa := t + 16 * (i / groupCount sz * groupCount sz)
        let f0 := mread m fa 8
        let f1 := mread m (fa + 8) 8
        let addr := fld f0 12 44 * 4096
        let size := 2 ^ pageLog sz
        if bad (fa / 64) then .poisoned (fa / 64) lev
        else if bitOf f0 0 = false ∨ bitOf f0 1 = false ∨ fld f0 2 4 ≠ sz then .fault 2 lev w0 ea
        else if (bitOf f0 8 = true ∧ bitOf f0 9 = true) ∨ addr % size ≠ 0 then .fault 2 lev w0 ea
        else .leaf f0 f1 fa (va / size * size) size lev

/-- The walk of a device context's table. [DESIGN CHOICE, log 11] -/
def State.walk (s : State) (dc va : Nat) : Walk := walkFrom s.mem (fun l => s.poison.contains l) va 5 0 (fld (s.dctx dc).ptroot.toNat 12 44 * 4096)

/-- The parameter-record pages that a table at level `lev` and the tables below it map: physical base, size, header array (R76, R343, R345). -/
def recordPages (m : Mem) : Nat → Nat → Nat → List (Nat × Nat × Nat)
  | 0, _, _ => []
  | fuel + 1, lev, t =>
    let valid := m.filterMap (fun e => if t ≤ e.1 ∧ e.1 < t + (if lev = 0 then 4096 else 8192) ∧ (e.1 - t) % 16 = 0 ∧ e.2.getLsbD 0 = true then some e.1 else none)
    (valid.map (fun ea =>
      let w0 := mread m ea 8
      let w1 := mread m (ea + 8) 8
      let sz := fld w0 2 4
      let addr := fld w0 12 44 * 4096
      if bitOf w0 1 = false then (if lev = 4 ∨ fld w0 2 11 ≠ 0 ∨ w1 ≠ 0 then [] else recordPages m fuel (lev + 1) addr)
      else if lev < 2 ∨ 12 ≤ sz ∨ pageLev sz ≠ lev ∨ (ea - t) / 16 % groupCount sz ≠ 0 then []
      else if bitOf w0 8 = false ∨ bitOf w0 9 = true ∨ addr % 2 ^ pageLog sz ≠ 0 then []
      else [(addr, 2 ^ pageLog sz, fld w1 6 50 * 64)])).flatten

/-- The parameter-record pages of the device: those of every device context's table. [DEDUCED, log 25] -/
def State.recordPages (s : State) : List (Nat × Nat × Nat) :=
  (s.devctxs.map (fun e => Machine.recordPages s.mem 5 0 (fld e.2.ptroot.toNat 12 44 * 4096))).flatten

/-- Does a byte lie in a record header, and does it lie in bytes 448 to 511 of a record block, which are reserved (R74, R76)? -/
def inHeader (rs : List (Nat × Nat × Nat)) (pa : Nat) : Bool := rs.any (fun r => decide (r.2.2 ≤ pa) && decide (pa < r.2.2 + r.2.1 / 8))
def inReserve (rs : List (Nat × Nat × Nat)) (pa : Nat) : Bool := decide (448 ≤ pa % 512) && rs.any (fun r => decide (r.1 ≤ pa) && decide (pa < r.1 + r.2.1))

/-- Bytes that the pier keeps against every store but its own: words 3 to 7 of a record header (R76), and a block's reserved bytes (R6, R74). -/
def keptByte (rs : List (Nat × Nat × Nat)) (pa : Nat) : Bool := (decide (24 ≤ pa % 64) && inHeader rs pa) || inReserve rs pa

/-- The bits of a byte that are not reserved ones of a record map: those read as 0 (R6, R74, R77). -/
def readMask (rs : List (Nat × Nat × Nat)) (pa : Nat) : Nat :=
  if inReserve rs pa then 0
  else if pa % 64 < 30 ∨ inHeader rs pa = false then 0xFF
  else match pa % 64 with
    | 30 => 1
    | 31 => 0
    | 38 => 0x3F
    | k => if 39 ≤ k then 0 else 0xFF

/-- The physical address and attributes that a leaf gives (R343, R345). [DEDUCED, log 28] -/
def leafPhys (w0 w1 entry base size lev va : Nat) : Phys :=
  let pa := fld w0 12 44 * 4096 + va % size
  let rh := bitOf w0 9
  { place := if rh then (if pa < 0x8000000000 then .remote (fld w1 0 12) else .absent) else placeOf pa, pa, c := bitOf w0 6, x := bitOf w0 10,
    sup := bitOf w0 11, ro := bitOf w0 7, pr := bitOf w0 8, rh, hdrBase := fld w1 6 50 * 64, leaf := entry, base, size, lev }

/-- The TLB entry that holds an address for a device context (R23 step 3). [DESIGN CHOICE, log 11] -/
def tlbFind (l : List TlbEnt) (ctxid va : Nat) : Option TlbEnt :=
  l.find? (fun e => e.ctxid == ctxid && decide (e.va ≤ va) && decide (va < e.va + e.size))

/-- R23 step 1: the address a private-window address stands for; none when the sum leaves [0, 2^56). -/
def globalVa (t : Trans) (va : Nat) : Nat := if privStart ≤ va then t.prvbase + (va - privStart) else va

/-- The physical address that the heap triple gives (R23 step 2, R245): bits 55:0 of the sum. [DEDUCED, log 79] -/
def heapPa (t : Trans) (g : Nat) : Nat := (g + t.hoffset) % 2 ^ 56

/-- R23: private window, heap triple, TLBs, walk. `va` is below 2^56. [DESIGN CHOICE, log 11] -/
def State.xlate (s : State) (core : Nat) (t : Trans) (va : Nat) : XRes :=
  let g := globalVa t va
  if 2 ^ 56 ≤ g then .range g
  else if t.hbase ≤ g ∧ g < t.hbase + t.hlimit then
    let pa := heapPa t g
    .ok { place := placeOf pa, pa, base := t.hbase, size := t.hlimit }
  else
    match (tlbFind (s.core core).utlb t.ctxid g).or (tlbFind (s.cluster (core / 32)).tlb t.ctxid g) with
    | some e => .ok (leafPhys e.w0 e.w1 e.entry e.va e.size 15 g)
    | none => match s.walk t.dc g with
      | .leaf w0 w1 entry base size lev => .ok (leafPhys w0 w1 entry base size lev g)
      | .fault r lev _ _ => .xlate r lev
      | .poisoned l lev => .ecc (64 * l) lev

/-- The kind of an access as R346 and the columns of R140 sort it. -/
inductive Kind where
  | fetch
  | load
  | store
  | atomic (op : Nat)
  /-- LDW and FEGET -/
  | feRead
  /-- FESET and STE -/
  | feWrite
  /-- LDC, STF and PST2 -/
  | feRmw
  | record
  /-- a vector access: not through a register window; `raw` when its format code is 0 or 1 (R75, R167) -/
  | vload (raw : Bool)
  | vstore (raw : Bool)
  /-- an element of n bytes of a gather or scatter (R171): each is an access of its own -/
  | gather (raw : Bool) (n : Nat)
  | scatter (raw : Bool) (n : Nat)
  /-- saves and restores of checkpoints (R361) -/
  | save
  | restore
  deriving DecidableEq, Repr

/-- Does it read data, or write data, as a load or a store does? -/
def Kind.isLoad : Kind → Bool
  | .load => true
  | .vload _ => true
  | .gather _ _ => true
  | _ => false

def Kind.isStore : Kind → Bool
  | .store => true
  | .vstore _ => true
  | .scatter _ _ => true
  | _ => false

/-- xinfo.kind (R350). -/
def Kind.code : Kind → Nat
  | .fetch => 0
  | .load => 1
  | .vload _ => 1
  | .gather _ _ => 1
  | .store => 2
  | .vstore _ => 2
  | .scatter _ _ => 2
  | .atomic _ => 3
  | .feRead => 4
  | .feWrite => 4
  | .feRmw => 4
  | .record => 5
  | .save => 6
  | .restore => 7

/-- Does the access write (R346)? -/
def Kind.writes : Kind → Bool
  | .store => true
  | .vstore _ => true
  | .scatter _ _ => true
  | .atomic _ => true
  | .feWrite => true
  | .feRmw => true
  | .save => true
  | _ => false

/-- xinfo of R350. -/
def info (lev kind reason : Nat) : Word := BitVec.ofNat 64 (lev * 4096 + kind * 256 + reason)

/-- A trap with an address. -/
def trapAt (cause : Nat) (addr : Nat) (xinfo : Word) : Trap := { cause, xaddr := BitVec.ofNat 64 addr, xinfo }

/-- PROT raised by an entry (R350): lev is 15. -/
def protEntry (kind reason : Nat) (addr : Nat) : Trap := trapAt 5 addr (info 15 kind reason)

/-- The checks of an access against its leaf (R346), but for those of R140. [DEDUCED, log 19] -/
def leafTrap (t : Trans) (k : Kind) (p : Phys) (va : Nat) : Option Trap :=
  let prot (r : Nat) : Option Trap := some (trapAt 5 va (info p.lev k.code r))
  if k = .fetch ∧ p.x = false then prot 3
  else if t.super = false ∧ p.sup = true then prot 2
  else if k.writes = true ∧ p.ro = true then prot 1
  else none

/-- The PROT cells of R140 and R397. A register-window access is a single aligned piece of 4 or 8 bytes. [DEDUCED, log 19; DEDUCED, log 28] -/
def placeTrap (k : Kind) (p : Phys) (va n : Nat) (single : Bool) : Option Trap :=
  let prot (r : Nat) : Option Trap := some (trapAt 5 va (info p.lev k.code r))
  match p.place with
    | .absent => if inAperture p.pa ∧ p.rh = false then prot 7 else prot 4
    | .window => match k with
      | .load => if single = true ∧ (n = 4 ∨ n = 8) ∧ p.pa % n = 0 then none else prot 7
      | .store => if single = true ∧ (n = 4 ∨ n = 8) ∧ p.pa % n = 0 then none else prot 7
      | .gather _ w => if n = w ∧ (n = 4 ∨ n = 8) ∧ p.pa % n = 0 then none else prot 7
      | .scatter _ w => if n = w ∧ (n = 4 ∨ n = 8) ∧ p.pa % n = 0 then none else prot 7
      | .feRead => none
      | .feWrite => none
      | .feRmw => none
      | .record => none
      | _ => prot 7
    | .host => match k with
      | .atomic op => if op = 0 ∨ op = 8 ∨ op = 9 then none else prot 7
      | _ => none
    | _ => none

/-- The FESPACE and PRSPACE checks of step 5 of R139 (R75, R140). [DEDUCED, log 19; DEDUCED, log 84] -/
def spaceTrap (k : Kind) (p : Phys) (va : Nat) : Option Trap :=
  let fespace : Option Trap := some (trapAt 8 va (BitVec.ofNat 64 (k.code * 256)))
  let prspace : Option Trap := some (trapAt 9 va 1)
  match k with
  | .feRead => if p.place ≠ .here then fespace else if p.pr then prspace else none
  | .feWrite => if p.place ≠ .here then fespace else if p.pr then prspace else none
  | .feRmw => if p.place ≠ .here then fespace else if p.pr then prspace else none
  | .record => if p.place = .here ∧ p.pr = true ∧ p.ro = false then none else prspace
  | .atomic _ => if p.pr then prspace else none
  | .vload raw => if p.pr = true ∧ raw = false then prspace else none
  | .vstore raw => if p.pr = true ∧ raw = false then prspace else none
  | .gather raw _ => if p.pr = true ∧ raw = false then prspace else none
  | .scatter raw _ => if p.pr = true ∧ raw = false then prspace else none
  | _ => none

/-- The lowest valid region that covers an address (R358). -/
def State.regionAt (s : State) (dc va : Nat) : Option (Nat × Region) :=
  (s.dctx dc).regions.find? (fun e => decide (e.2.base ≤ va) && decide (va < e.2.base + 2 ^ e.2.log2))

/-- The owner of a region as CAPQ gives it (R238). -/
def Region.shown (r : Region) : Nat := if r.transit.isSome then 0xFFFE else r.owner

/-- Capability checks are in force for a core (R322, R239): superstep mode, and not between the two `b7` completions of an SSEND. [DESIGN CHOICE, log 104] -/
def capTrap (s : State) (core : Nat) (t : Trans) (suspended : Bool) (k : Kind) (va : Nat) : Option Trap :=
  if t.cap = false ∨ suspended = true ∨ k = .fetch ∨ k = .record ∨ k = .save ∨ k = .restore then none
  else
    let g := globalVa t va
    let load := k.isLoad = true
    match s.regionAt t.dc g with
    | none => if load then none else some (trapAt 6 va (BitVec.ofNat 64 ((Config.noRegion 0x1FFF).toNat * 2 ^ 32 + 0x1FFF)))
    | some (i, r) =>
      let own := r.shown = core
      if own ∨ (load ∧ r.shown = 0xFFFF) then none
      else some (trapAt 6 va (BitVec.ofNat 64 (r.shown * 2 ^ 32 + i)))

/-- A part of an access before translation: offset in the access's bytes, virtual address as an exact integer, length. -/
structure Part where
  off : Nat
  va : Int
  n : Nat
  deriving DecidableEq, Repr

/-- Splits [va, va + n) at multiples of `w`, keeping offsets. -/
def splitAt (w : Nat) : Nat → Nat → Int → Nat → List Part
  | 0, _, _, _ => []
  | fuel + 1, off, va, n =>
    if n = 0 then []
    else
      let room := (w : Int) - va % w
      let k := min n room.toNat
      { off, va, n := k } :: splitAt w fuel (off + k) (va + k) (n - k)

/-- A part of at most 8 bytes as one piece when its length is 1, 2, 4 or 8 and it is aligned, else as single bytes (R141 item 3). -/
def cut8 (p : Part) : List Part :=
  if (p.n = 1 ∨ p.n = 2 ∨ p.n = 4 ∨ p.n = 8) ∧ p.va % (p.n : Int) = 0 then [p]
  else (List.range p.n).map (fun i => { off := p.off + i, va := p.va + i, n := 1 })

/-- The pieces of an ordinary access (R141 item 3). -/
def cutScalar (off : Nat) (va : Int) (n : Nat) : List Part := ((splitAt 8 (n + 1) off va n).map cut8).flatten

/-- The pieces of a scalar load or store of n bytes: an aligned pair is one piece (R141). -/
def cutLdSt (va : Int) (n : Nat) : List Part := if n = 16 ∧ va % 16 = 0 then [{ off := 0, va, n := 16 }] else cutScalar 0 va n

/-- The pieces of a contiguous vector run: whole aligned 16-byte chunks, the rest by R141 item 3 (R170). -/
def cutVector (off : Nat) (va : Int) (n : Nat) : List Part :=
  ((splitAt 16 (n + 1) off va n).map (fun p => if p.n = 16 then [p] else cutScalar p.off p.va p.n)).flatten

/-- R139 step 3: a byte outside [0, 2^56); `xaddr` is the lowest address below 0, and 2^56 otherwise. [DEDUCED, log 19] -/
def rangeTrap (k : Kind) (ps : List Part) : Option Trap :=
  let bad := ps.filterMap (fun p => if p.va < 0 then some p.va else if (2 ^ 56 : Int) < p.va + p.n then some (2 ^ 56) else none)
  match bad with
  | [] => none
  | x :: r => some (trapAt 5 (wrap (r.foldl min x) 64) (info 15 k.code 4))

/-- R23 step 1: the lowest private-segment sum of a byte of the access that reaches 2^56. [DEDUCED, log 19] -/
def sumTrap (t : Trans) (k : Kind) (ps : List Part) : Option Trap :=
  let bad := ps.filterMap (fun p =>
    let top := (p.va + p.n - 1).toNat
    if privStart ≤ top ∧ 2 ^ 56 ≤ globalVa t top then some (max (globalVa t (max p.va.toNat privStart)) (2 ^ 56)) else none)
  match bad with
  | [] => none
  | x :: r => some (trapAt 5 (r.foldl min x) (info 15 k.code 4))

/-- What tells the translations of neighbouring bytes apart (R23): the kind of physical memory within the heap range, else the
smallest page. [DEDUCED, log 19] -/
def leafKey (t : Trans) (va : Nat) : Option Place × Nat :=
  let g := globalVa t va
  if t.hbase ≤ g ∧ g < t.hbase + t.hlimit then (some (placeOf (heapPa t g)), 0) else (none, g / 4096)

/-- A part of a load or store whose bytes lie in two pages, or partly in the heap range, as a private segment or a heap range
that is not aligned may lay it, is translated byte by byte. [DEDUCED, log 19] -/
def cutLeaf (t : Trans) (k : Kind) (p : Part) : List Part :=
  if k.isLoad || k.isStore then
    let key := leafKey t p.va.toNat
    if (List.range p.n).all (fun i => leafKey t (p.va.toNat + i) == key) then [p]
    else (List.range p.n).map (fun i => { off := p.off + i, va := p.va + i, n := 1 })
  else [p]

/-- Do the parts of a store cover the whole line of `pa` (R390)? -/
def coversLine (ps : List (Place × Nat × Nat)) (pa : Nat) : Bool :=
  (List.range 64).all (fun i => ps.any (fun e => e.1 == .here && decide (e.2.1 ≤ pa / 64 * 64 + i) && decide (pa / 64 * 64 + i < e.2.1 + e.2.2)))

/-- The lowest poisoned line among those that n bytes from `pa` on touch; one that `covered` writes whole does not count (R390). -/
def State.badLine (s : State) (covered : List (Place × Nat × Nat)) (pa n : Nat) : Option Nat :=
  (linesAt pa n).find? (fun l => s.poison.contains (l / 64) && !coversLine covered l)

/-- Does no poisoned line stand in the way of a read of n bytes (R390)? -/
def State.sound (s : State) (pa n : Nat) : Bool := (s.badLine [] pa n).isNone

/-- The address at which an access at `va`, whose byte lies at `pa`, sees the line at physical address `line` (R351). [DESIGN CHOICE, log 27] -/
def lineVa (va pa line : Nat) : Nat := (va + line + 2 ^ 64 - pa) % 2 ^ 64

/-- The trap of a part whose translation fails: `XLATE`, the range of R23 step 1, or `ECC` of a table line (R390). [DESIGN CHOICE, log 27] -/
def XRes.trap (k : Kind) (va : Nat) : XRes → Option Trap
  | .ok _ => none
  | .xlate r lev => some (trapAt 4 va (info lev k.code r))
  | .range a => some (trapAt 5 a (info 15 k.code 4))
  | .ecc line lev => some (trapAt 18 line (info lev k.code 0))

/-- `ECC` of an access that meets a poisoned line (R390), or a device without a route (R377). Of a record block only the lines that the
instruction touches count. [DESIGN CHOICE, log 27] -/
def State.eccTrap (s : State) (k : Kind) (covered : List (Place × Nat × Nat)) (va n : Nat) (p : Phys) : Option Trap :=
  match p.place with
  | .here => if k = .record then none else (s.badLine covered p.pa n).map (fun l => trapAt 18 (lineVa va p.pa l) (info p.lev k.code 0))
  | .remote d => if fld (tget s.routes d 0).toNat 0 24 = 0 then some (trapAt 18 va (info p.lev k.code 0)) else none
  | _ => none

/-- The trap found at the lowest address. -/
def lowestTrap (l : List (Nat × Trap)) : Option Trap :=
  (l.foldl (fun (best : Option (Nat × Trap)) x => match best with
    | none => some x
    | some b => if x.1 < b.1 then some x else some b) none).map (fun x => x.2)

/-- The first trap that a check finds among the parts, at the lowest address. -/
def firstTrap (f : Part → Phys → Option Trap) (xs : List (Part × Phys)) : Option Trap :=
  lowestTrap (xs.filterMap (fun e => (f e.1 e.2).map (fun tr => (e.1.va.toNat, tr))))

/-- The translated parts, or the trap of the lowest one that does not translate or that its leaf forbids (R139 step 4). -/
def State.xlateAll (s : State) (core : Nat) (t : Trans) (k : Kind) (ps : List Part) : Except Trap (List (Part × Phys)) :=
  let xs := ps.map (fun p => (p, s.xlate core t p.va.toNat))
  match lowestTrap (xs.filterMap (fun e =>
      (match e.2 with | .ok p => leafTrap t k p e.1.va.toNat | r => r.trap k e.1.va.toNat).map (fun tr => (e.1.va.toNat, tr)))) with
  | some tr => .error tr
  | none => .ok (xs.filterMap (fun e => match e.2 with | .ok p => some (e.1, p) | _ => none))

/-- The translated parts, or the first trap of R139 steps 3 to 5 and R322, in the order of the steps, lowest address first
within a step. -/
def State.checkSteps (s : State) (core : Nat) (t : Trans) (suspended : Bool) (k : Kind) (ps : List Part) : Except Trap (List (Part × Phys)) :=
  match (rangeTrap k ps).or (sumTrap t k ps) with
  | some tr => .error tr
  | none => match s.xlateAll core t k (ps.map (cutLeaf t k)).flatten with
    | .error tr => .error tr
    | .ok xs =>
      match (firstTrap (fun a p => placeTrap k p a.va.toNat a.n (ps.length == 1)) xs).or
          ((firstTrap (fun a p => spaceTrap k p a.va.toNat) xs).or
          (firstTrap (fun a _ => capTrap s core t suspended k a.va.toNat) xs)) with
      | some tr => .error tr
      | none => .ok xs

/-- The translated parts, or the first trap: those of `State.checkSteps`, then ECC. [DEDUCED, log 19; DEDUCED, log 26] -/
def State.checkAccess (s : State) (core : Nat) (t : Trans) (suspended : Bool) (k : Kind) (ps : List Part) : Except Trap (List (Part × Phys)) :=
  match s.checkSteps core t suspended k ps with
  | .error tr => .error tr
  | .ok xs =>
    let covered := if k.isStore || k == .save then xs.map (fun e => (e.2.place, e.2.pa, e.1.n)) else []
    match firstTrap (fun a p => s.eccTrap k covered a.va.toNat a.n p) xs with
    | some tr => .error tr
    | none => .ok xs

/-- The page that a translation used, by its virtual base and size; of size 0 through the heap triple, which is no TLB entry (R23, R251). -/
def Phys.page (p : Phys) : Nat × Nat := if p.leaf = 0 then (p.base, 0) else (p.base, p.size)

/-- A part as a piece of an access in flight; only cacheable pages use the data cache (R144). -/
def pieceOf (e : Part × Phys) : Piece :=
  { va := BitVec.ofNat 64 e.1.va.toNat, place := e.2.place, pa := e.2.pa, n := e.1.n, off := e.1.off, cached := e.2.c, page := e.2.page }

end Sys2Proof.Machine
end

