-- ==== Sys2Proof/Machine/Ops.lean ====
section
/-! DEFINITION. The operations every instruction shares: fetching a chain, taking a trap and returning from one, pending bits, loop-back
decisions, the checkpoint lookup, and the frame in which an instruction issues, waits or completes. -/

namespace Sys2Proof.Machine

open Sys2Proof

/-- The bytes at a physical place, as the home holds them; a register window is read elsewhere. -/
def State.readPlace (s : State) (p : Place) (pa n : Nat) : Nat :=
  match p with
  | .here => mread s.mem pa n
  | .host => mread s.mem pa n
  | .remote d => mread s.rmem (d * 2 ^ 56 + pa) n
  | _ => 0

/-- The bytes as an access reads them at the home: the reserved bits of a record map read as 0 (R6, R74, R77). [DEDUCED, log 25] -/
def State.readHome (s : State) (p : Place) (pa n : Nat) : Nat :=
  let v := s.readPlace p pa n
  let rs := s.recordPages
  if p = .here ∧ rs.isEmpty = false then pack 8 n (fun i => lane v 8 i &&& readMask rs (pa + i)) else v

/-- Writes bytes at a physical place at once; device memory through its pier (R324). -/
def State.writePlace (s : State) (p : Place) (pa n v : Nat) : State :=
  match p with
  | .here => s.pierWrite pa n v
  | .host => { s with mem := mwrite s.mem pa n v }
  | .remote d => { s with rmem := mwrite s.rmem (d * 2 ^ 56 + pa) n v }
  | _ => s

/-- What fetching at a PC gives (R103): a trap of the fetch, or the decoded chain. [DEDUCED, log 23] -/
def State.fetchFrom (s : State) (core : Nat) (t : Trans) : Nat → Nat → List (BitVec 16) → Except Trap Decoded
  | 0, _, ws => .ok (decode ws)
  | fuel + 1, va, ws =>
    match s.checkAccess core t true .fetch [{ off := 0, va, n := 2 }] with
    | .error tr => .error tr
    | .ok es =>
      let w := match es with
        | e :: _ => s.readPlace e.2.place e.2.pa 2
        | [] => 0
      let ws := ws ++ [BitVec.ofNat 16 w]
      match decode ws with
      | .more => s.fetchFrom core t fuel (va + 2) ws
      | d => .ok d

/-- Fetches and decodes the chain at a PC for a context of a core (R89, R103). [DEDUCED, log 14; DEDUCED, log 23] -/
def State.fetch (s : State) (core : Nat) (c : Ctx) (pc : Word) : Except Trap Decoded :=
  s.fetchFrom core c.trans 5 pc.toNat []

/-- The trap reports of a cluster: while V = 0, a trap opens or joins the window (R47). -/
def State.report (s : State) (k cause : Nat) (pc : Word) : State :=
  let n := k / 256
  let cl := s.cluster n
  if cl.crepId.getLsbD 63 then s else s.setCluster n { cl with window := cl.window ++ [(k, cause, pc)] }

/-- The registers that taking a trap writes (R352): saved pc, cause, address and info; the mode becomes supervisor and PS keeps the
old one; every active loop level is suspended and PLS keeps the old suspensions; the pc goes to the handler. -/
def Ctx.enter (c : Ctx) (t : Trap) : Ctx :=
  let x := c.sr.xstat.toNat
  let sBit := fld x 0 1
  let ls := fld x 2 2
  let active := b2n (c.l0.lc != 0) + 2 * b2n (c.l1.lc != 0)
  { c with
    pc := c.sr.tvec
    trap := none
    wait := .none
    held := none
    sw := false
    entered := true
    sr := { c.sr with
      xpc := BitVec.ofNat 64 (fld ((t.xpc.getD c.pc).toNat) 0 56)
      xcause := BitVec.ofNat 64 t.cause
      xaddr := t.xaddr
      xinfo := t.xinfo
      xstat := BitVec.ofNat 64 (1 + 2 * sBit + 4 * (ls ||| active) + 16 * ls) } }

/-- Writes n lines of 64 bytes of the save area; only device memory has any. [DEDUCED, log 47] -/
def State.putLines (s : State) (pa n : Nat) (line : Nat → Nat) : State :=
  (List.range n).foldl (fun s i => if placeOf (pa + 64 * i) = .here then s.pierWrite (pa + 64 * i) 64 (line i) else s) s

/-- Writes n lines whose layout no rule gives: free values. [DESIGN CHOICE, log 12] -/
def State.putOpen (s : State) (pa n : Nat) : State :=
  let f := s.freeNo
  let t := s.putLines pa n (fun i => pack 64 8 (fun j => (Config.openWord (f + 8 * i + j)).toNat))
  { t with freeNo := f + 8 * n }

/-- The save area of a device context (R349), and the image of core k in it (R362). -/
def DevCtx.area (d : DevCtx) : Nat := fld d.svbase.toNat 21 35 * 2 ^ 21
def imageAt (sv k : Nat) : Nat := sv + 2 ^ 20 * k

/-- The 16 KiB hard-save image of the context in slot key k, in its device context's save area (R360, R362). [DESIGN CHOICE, log 12] -/
def State.savedAt (s : State) (k : Nat) : Nat := imageAt (s.dctx (s.ctx k).dc).area (k / 8) + 0xA6000 + 0x4000 * (k % 8)

/-- Line i of an image whose bytes are some function of what it holds (R362). [DESIGN CHOICE, log 12] -/
def imageLine (image : Nat → BitVec 8) (i : Nat) : Nat := pack 8 64 (fun j => (image (64 * i + j)).toNat)

/-- The whole state of the context in slot key k goes into its hard-save image (R353, R360), whose layout is open. [DESIGN CHOICE, log 12] -/
def State.putSaved (s : State) (k : Nat) : State := s.putLines (s.savedAt k) 256 (imageLine (Config.hardImage (s.ctx k)))

/-- When no context of the row of slot key k runs any more, for all have left or stopped, the row's keepers begin their taper of 40 µs (R383). [DEDUCED, log 52] -/
def State.idleRow (s : State) (k : Nat) : State :=
  let r := k / 64
  if (List.range 64).any (fun j => (s.ctx (64 * r + j)).occ && !(s.ctx (64 * r + j)).stopped) then s else s.setRow r { s.row r with taper := some (s.tick + 4000) }

/-- A context stops at its handler: its state goes into its hard-save image (R353), and the cluster management block records it (R355). [DEDUCED, log 61] -/
def State.stopAt (s : State) (k : Nat) : State :=
  let s := ((s.putSaved k).setCtx k { s.ctx k with stopped := true }).idleRow k
  s.setCluster (k / 256) { s.cluster (k / 256) with cstop := BitVec.ofNat 64 (2 ^ 63 + (k / 8 % 32) * 8 + k % 8) }

/-- Is the address of a context's next chain odd, or does its fetch trap? [DEDUCED, log 61] -/
def State.cannotFetch (s : State) (k : Nat) : Bool :=
  (s.ctx k).pc.getLsbD 0 || (match s.fetch (k / 8) (s.ctx k) (s.ctx k).pc with | .error _ => true | .ok _ => false)

/-- Taking a trap (R352), with the report of R47, which gives for TRAP the PC that `xpc` takes. When the first chain at the handler cannot be fetched or its address is odd, the context
stops (R353, R355); so it does when that fetch faults later, before the chain has run (`State.atBoundary`). [DEDUCED, log 61; DEDUCED, log 78] -/
def State.enterTrap (s : State) (k : Nat) (t : Trap) : State :=
  let c := s.ctx k
  let s := (s.setCtx k (c.enter t)).report (t.leader.getD k) t.cause (t.xpc.getD c.pc)
  if s.cannotFetch k then s.stopAt k else s

/-- An instruction traps: entry follows at once when no result is pending, else when the last has arrived (R107, R352). -/
def State.raise (s : State) (t : Trap) : State :=
  let c := s.cx
  let t := { t with xpc := some (t.xpc.getD c.pc) }
  if c.drained then s.enterTrap s.cur t
  else s.setCx { c with trap := some t, wait := .none, held := none }

/-- Return from a trap (R249): the mode and the suspensions that held before, and the saved pc. -/
def Ctx.leaveTrap (c : Ctx) : Ctx :=
  let x := c.sr.xstat.toNat
  { c with
    pc := BitVec.ofNat 64 (fld c.sr.xpc.toNat 0 56)
    sr := { c.sr with xstat := BitVec.ofNat 64 (fld x 1 1 + 2 * fld x 1 1 + 4 * fld x 4 2 + 16 * fld x 4 2) } }

/-- One level's loop-back decision (R127, R128): whether it looped back, and the context after. A level whose count a body has set to 0 falls through
here too, and its held writes are discarded. -/
def Ctx.loopLevel (c : Ctx) (k : Nat) (base : Word) : Bool × Ctx :=
  let l := c.loop k
  if c.suspended k = true ∨ l.le ≠ base then (false, c)
  else if 2 ≤ l.lc.toNat then
    (true, { c.setLoop k { lc := l.lc - 1, ls := l.heldLs.getD l.ls, le := l.heldLe.getD l.le } with pc := l.ls })
  else (false, c.setLoop k { l with lc := 0, heldLs := none, heldLe := none })

/-- The decisions after an instruction whose base word is at `base`: level 0 first, level 1 when level 0 falls through (R127). -/
def Ctx.loopBack (c : Ctx) (base : Word) : Ctx :=
  let r := c.loopLevel 0 base
  if r.1 then r.2 else (r.2.loopLevel 1 base).2

/-- NPC: the address of the next chain (R89). -/
def Ctx.npc (c : Ctx) (i : Instr) : Word := c.pc + BitVec.ofNat 64 (2 * i.words)

/-- An instruction completes in sequence (R89, R105, R127): the pc moves to the next chain or loops back; the switch marker takes effect. -/
def Ctx.retire (c : Ctx) (i : Instr) (marker : Bool) : Ctx :=
  let base := c.pc + BitVec.ofNat 64 (2 * i.words - 2)
  { ({ c with pc := c.npc i } : Ctx).loopBack base with sw := marker, wait := .none, held := none, entered := false }

/-- An instruction that transferred control completes (R127): no loop-back decision. -/
def Ctx.jump (c : Ctx) (marker : Bool) (target : Word) : Ctx := { c with pc := target, sw := marker, wait := .none, held := none, entered := false }

/-- What the body of an instruction answers. -/
inductive Eff where
  /-- completed, in sequence -/
  | done (s : State)
  /-- completed, with a control transfer -/
  | jump (s : State) (pc : Word)
  | trap (t : Trap)
  /-- the context waits, not ready; the state holds what the instruction has begun -/
  | hold (w : Wait) (s : State)
  /-- the instruction cannot issue yet: no effect -/
  | stall
  /-- the context has left its slot, or its pc is already set -/
  | gone (s : State)

/-- The same for a body that touches only its own context. -/
inductive CtxEff where
  | done (c : Ctx)
  | jump (c : Ctx) (pc : Word)
  | trap (t : Trap)

/-- A body over the context alone. -/
def onCtx (f : Ctx → CtxEff) (s : State) : Eff :=
  match f s.cx with
  | .done c => .done (s.setCx c)
  | .jump c pc => .jump (s.setCx c) pc
  | .trap t => .trap t

/-- The lowest pending register among those touched (R106, R351). -/
def Ctx.dep (c : Ctx) (touch : List Nat) : Option Nat := leastOf (touch.filter c.pending)

/-- Ends an instruction with its body's answer. One that is held has issued: the marker of the instruction before it has had its effect (R105). -/
def finishWith (i : Instr) (o : Ops) (s : State) : Eff → Host.Outcome State Fault Refusal
  | .done t => .next (t.setCx (t.cx.retire i o.s))
  | .jump t pc => .next (t.setCx (t.cx.jump o.s pc))
  | .trap t => .next (s.raise t)
  | .hold w t => .next (t.setCx { t.cx with wait := w, held := some i, sw := false, entered := false })
  | .stall => .next { s with stall := true }
  | .gone t => .next t

/-- The guard on pages 0 to 3 and 8 to 10 (R97). -/
def Ctx.guard (c : Ctx) (o : Ops) : Bool := c.getP o.pred != o.sense

/-- Issues an instruction with a predicate guard: the `DEP` check over its registers and its guard, the guard, then the body
(R97, R103, R106). A context that waits re-enters the body. -/
def issue (i : Instr) (o : Ops) (touch : List Nat) (body : State → Eff) (s : State) : Host.Outcome State Fault Refusal :=
  let c := s.cx
  if c.occ = false then .fault .noContext
  else if c.wait ≠ .none then finishWith i o s (body s)
  else match c.dep (rp o.pred :: touch) with
    | some r => .next (s.raise { cause := 2, xinfo := BitVec.ofNat 64 r })
    | none => if c.guard o then finishWith i o s (body s) else .next (s.setCx (c.retire i o.s))

/-- Issues an instruction of pages 4 to 7, whose predicate is a lane mask of `masks` registers (R97, R162). -/
def issueV (i : Instr) (o : Ops) (masks : Nat) (touch : List Nat) (body : State → Eff) (s : State) : Host.Outcome State Fault Refusal :=
  let c := s.cx
  if c.occ = false then .fault .noContext
  else if c.wait ≠ .none then finishWith i o s (body s)
  else match c.dep ((if o.pred = 0 then [] else grp rm o.pred masks) ++ touch) with
    | some r => .next (s.raise { cause := 2, xinfo := BitVec.ofNat 64 r })
    | none => finishWith i o s (body s)

/-- A register-only instruction with a predicate guard. -/
def scalar (i : Instr) (o : Ops) (touch : List Nat) (f : Ctx → CtxEff) (s : State) : Host.Outcome State Fault Refusal :=
  issue i o touch (onCtx f) s

/-- A register-only instruction under a lane mask. -/
def lanewise (i : Instr) (o : Ops) (masks : Nat) (touch : List Nat) (f : Ctx → CtxEff) (s : State) : Host.Outcome State Fault Refusal :=
  issueV i o masks touch (onCtx f) s

/-- A device event: it has its effect when its condition holds and the device is not still: frozen (R384), or failed at boot (R371); otherwise nothing happens. [DESIGN CHOICE, log 2; DESIGN CHOICE, log 54] -/
def event (enabled : Bool) (f : State → State) (s : State) : Host.Outcome State Fault Refusal :=
  .next (if enabled && !s.still then f s else s)

/-- Reads n bytes at a virtual address for the device's own use (checkpoint tables, records): none when some byte does not translate or its line
is poisoned (R390). -/
def State.readVa (s : State) (core : Nat) (t : Trans) (va n : Nat) : Option Nat :=
  match ((cutScalar 0 va n).map (cutLeaf t .load)).flatten.foldl (fun (acc : Option Nat) p => match acc with
    | none => none
    | some v => if 2 ^ 56 < p.va.toNat + p.n then none else match s.xlate core t p.va.toNat with
      | .ok q => if q.place = .absent ∨ (q.place = .here ∧ (s.badLine [] q.pa p.n).isSome = true) then none else some (v + s.readPlace q.place q.pa p.n * 256 ^ p.off)
      | _ => none) (some 0) with
  | r => r

/-- The entries of a checkpoint table from number n on: is the rest sorted and mapped, and which entry has the PC (R313, R314)? -/
def State.ckScan (s : State) (core : Nat) (t : Trans) (base pc : Nat) : Nat → Nat → Option Nat → Option (Option Nat) → Option Nat
  | 0, _, _, found => found.bind id
  | fuel + 1, n, prev, found =>
    match s.readVa core t (base + 64 * n) 8 with
    | none => none
    | some w =>
      let a := fld w 0 56
      if prev.any (fun q => decide (a ≤ q)) then none
      else s.ckScan core t base pc fuel (n + 1) (some a) (if a = pc then some (some n) else found)

/-- The checkpoint entry at a PC (R314): its ckid, or none. -/
def State.checkpoint (s : State) (core : Nat) (c : Ctx) (pc : Word) : Option Nat :=
  let base := fld c.sr.ckbase.toNat 0 56
  match s.readVa core c.trans base 8 with
  | none => none
  | some h => s.ckScan core c.trans base (fld pc.toNat 0 56) (fld h 0 16) 1 none none

/-- The ECC trap of a lookup that meets a poisoned line of the checkpoint table (R390), none without one. [DESIGN CHOICE, log 27] -/
def State.ckPoison (s : State) (core : Nat) (c : Ctx) : Option Trap :=
  let base := fld c.sr.ckbase.toNat 0 56
  let n := fld ((s.readVa core c.trans base 8).getD 0) 0 16
  if s.poison = [] then none
  else ((List.range (n + 1)).map (fun i => cutLeaf c.trans .load { off := 0, va := (base + 64 * i : Nat), n := 8 })).flatten.findSome? (fun p =>
    match s.xlate core c.trans p.va.toNat with
    | .ok q => if q.place = .here then (s.badLine [] q.pa p.n).map (fun l => trapAt 18 (lineVa p.va.toNat q.pa l) (info q.lev 7 0)) else none
    | _ => none)

/-- Is the current instruction at a checkpoint? -/
def State.atCheckpoint (s : State) : Bool := (s.checkpoint s.coreNo s.cx s.cx.pc).isSome

/-- The CKMISS trap (R314, R351). -/
def ckmiss : Trap := { cause := 10 }

/-- The trap of an instruction that needs a checkpoint and finds none: CKMISS, or ECC when a line of the table is poisoned (R314, R390). [DESIGN CHOICE, log 27] -/
def State.ckTrap (s : State) : Trap := (s.ckPoison s.coreNo s.cx).getD ckmiss

/-- An ILL trap with its reason (R102, R196). -/
def ill (reason : Nat) : Trap := { cause := 1, xinfo := BitVec.ofNat 64 reason }

/-- The privileged-instruction form of PROT (R244). -/
def privileged (n : Nat) : Trap := { cause := 5, xinfo := BitVec.ofNat 64 (2 ^ 62 + n) }

/-- A back-off wait of attempt j, in reference ticks (R67). -/
def backoff (j : Nat) : Nat := min (2 ^ j) 64

/-- Is an SSEND of the core between its two `b7` completions, where the core's capability checks are suspended (R239, R322)? [DEDUCED, log 64] -/
def Core.capSuspended (c : Core) : Bool := !c.exch.isEmpty

/-- Checks an access of the current context (R139, R140, R322). -/
def State.check (s : State) (k : Kind) (ps : List Part) : Except Trap (List (Part × Phys)) :=
  s.checkAccess s.coreNo s.cx.trans s.co.capSuspended k ps

end Sys2Proof.Machine
end

