-- ==== Sys2Proof/Machine/Operands.lean ====
section
/-! DEFINITION. Operand forms: the ALU operand rule (R114), the address operand rule (R138), vector lanes and masks (R161, R162). -/

namespace Sys2Proof.Machine

open Sys2Proof

/-- X and Y of the ALU operand rule (R114). -/
def aluXY (o : Ops) (c : Ctx) : Word × Word :=
  if o.hasImm then (c.getG o.moved, wordOf o.imm)
  else if o.hasOpnd then (c.getG o.aNum, c.getG o.bNum)
  else (c.getG o.dNum, c.getG o.aNum)

/-- The registers an ALU form names (R106, R114). -/
def aluRegs (o : Ops) : List Nat :=
  if o.hasImm then [rg o.dNum, rg o.moved]
  else if o.hasOpnd then [rg o.dNum, rg o.aNum, rg o.bNum]
  else [rg o.dNum, rg o.aNum]

/-- Base register and offset of the address operand rule (R138). [DEDUCED, log 16] -/
def addrBaseOff (o : Ops) (c : Ctx) : Word × Int :=
  if o.hasImm then (c.getG o.moved, o.imm)
  else (c.getG o.aNum, if o.hasOpnd then (c.getG o.bNum).toInt else 0)

/-- The effective address, exact (R138): the base's bits 55:0 plus the offset. -/
def effAddr (o : Ops) (c : Ctx) : Int := (fld (addrBaseOff o c).1.toNat 0 56 : Int) + (addrBaseOff o c).2

/-- The effective address of an L-memory form: the whole base register (R138). -/
def effLocal (o : Ops) (c : Ctx) : Int := ((addrBaseOff o c).1.toNat : Int) + (addrBaseOff o c).2

/-- The registers an address form reads. -/
def addrRegs (o : Ops) : List Nat :=
  if o.hasImm then [rg o.moved] else if o.hasOpnd then [rg o.aNum, rg o.bNum] else [rg o.aNum]

/-- The number of registers of the group that the width field selects (R91). -/
def groupSize (o : Ops) : Nat := 2 ^ o.width

/-- Column rule (R162): is the unit k active? -/
def unitOn (c : Ctx) (o : Ops) (k : Nat) : Bool := (c.getVm o.pred).getLsbD k != o.sense

/-- Lane rule (R162): is the lane k active? `vm0` as base stands for all ones at every lane. -/
def laneOn (c : Ctx) (o : Ops) (k : Nat) : Bool :=
  (if o.pred = 0 then true else (c.getVm (o.pred + k / 32)).getLsbD (k % 32)) != o.sense

/-- Lanes of `old` replaced by f where active. -/
def merge (c : Ctx) (o : Ops) (w n old : Nat) (f : Nat → Nat) : Nat :=
  pack w n (fun k => if laneOn c o k then f k else lane old w k)

/-- The bits of a group of w registers in the units that are active under the column rule come from `new`, the others from `old`. -/
def mergeUnits (c : Ctx) (o : Ops) (w old new : Nat) : Nat :=
  pack (32 * w) 32 (fun k => if unitOn c o k then lane new (32 * w) k else lane old (32 * w) k)

/-- X and Y of a 2- or 3-address vector form: D and A, or A and B (R163). -/
def xyNum (o : Ops) : Nat × Nat := if o.hasOpnd then (o.aNum, o.bNum) else (o.dNum, o.aNum)

/-- The vector registers of a 2- or 3-address form, each of w registers. -/
def vxyRegs (o : Ops) (w : Nat) : List Nat :=
  if o.hasOpnd then grp rv o.dNum w ++ grp rv o.aNum w ++ grp rv o.bNum w else grp rv o.dNum w ++ grp rv o.aNum w

/-- The lane size in bits of a vector-integer type (R98). -/
def intBits (ty : Nat) : Nat := match ty % 4 with | 0 => 8 | 1 => 16 | 2 => 32 | _ => 64

/-- Is a vector-integer type signed (R98)? -/
def intSigned (ty : Nat) : Bool := decide (ty < 4)

/-- A lane as an integer of its type. -/
def intVal (ty x : Nat) : Int := if intSigned ty then sgn x (intBits ty) else x

/-- The lane size in bits of a vector-float type. -/
def fltBits (ty : Nat) : Nat := (Fmt.ofTy ty).bits

/-- Sets n mask bits from vm group `d`, the active ones from f (R181). -/
def maskWrite (c : Ctx) (o : Ops) (n : Nat) (f : Nat → Bool) : Ctx :=
  (List.range ((n + 31) / 32)).foldl (fun c' r =>
    let old := (c.getVm (o.dNum + r)).toNat
    let bits := pack 1 32 (fun k => b2n (if laneOn c o (32 * r + k) then f (32 * r + k) else bitOf old k))
    if o.dNum = 0 then c' else c'.setVm (o.dNum + r) (BitVec.ofNat 32 bits)) c

/-- The OR of flags over the active lanes of n (R45). -/
def laneFlags (c : Ctx) (o : Ops) (n : Nat) (f : Nat → Nat) : Nat :=
  (List.range n).foldl (fun a k => if laneOn c o k then a ||| f k else a) 0

end Sys2Proof.Machine
end

