-- ==== Sys2Proof/Machine/Flags.lean ====
section
/-! DEFINITION. Delivery of arithmetic flags: sticky flags in `xflags`, and the precise trap `FPX` of an enabled one (R45, R46). -/

namespace Sys2Proof.Machine

open Sys2Proof

/-- The FPX trap: `xinfo` bits 5:0 hold every flag the instruction would have raised (R46). -/
def fpx (fl : Nat) : Trap := { cause := 12, xinfo := BitVec.ofNat 64 fl }

/-- Do the raised flags include an enabled one? -/
def Ctx.traps (c : Ctx) (fl : Nat) : Bool := fl &&& (c.sr.xenable.toNat % 64) != 0

/-- ORs flags into `xflags` (R45). -/
def Ctx.addFlags (c : Ctx) (fl : Nat) : Ctx := { c with sr := { c.sr with xflags := c.sr.xflags ||| BitVec.ofNat 64 fl } }

/-- An instruction that raises `fl` delivers its result `c'`, or traps with nothing written (R46). -/
def flagged (c : Ctx) (fl : Nat) (c' : Ctx) : CtxEff := if c.traps fl then .trap (fpx fl) else .done (c'.addFlags fl)

/-- A w-bit result of an integer lane, wrapped, or clamped under `.sat`; SAT on a clamp (R43). -/
def intResult (sat : Bool) (w : Nat) (signed : Bool) (x : Int) : Nat × Nat :=
  let lo : Int := if signed then -(2 ^ (w - 1) : Nat) else 0
  let hi : Int := if signed then (2 ^ (w - 1) : Nat) - 1 else (2 ^ w : Nat) - 1
  if sat = true ∧ x < lo then (wrap lo w, SAT)
  else if sat = true ∧ hi < x then (wrap hi w, SAT)
  else (wrap x w, 0)

end Sys2Proof.Machine
end

