-- ==== Sys2Proof/Machine/Units.lean ====
section
/-! DEFINITION. Operations on the shared units of a core, its cluster and the piers: queues and deques, ownership of slots, the range
scoreboard, event counters and the conditions of WAITC, release and acquire actions, full/empty changes and wake-ups. -/

namespace Sys2Proof.Machine

open Sys2Proof

/-- An entry of a vector, or the default. -/
def vget {α : Type} {n : Nat} (v : Vector α n) (i : Nat) (d : α) : α := (v[i]?).getD d

/-- A counter of R389 goes up, and stays at 2^64 − 1. [DEDUCED, log 59] -/
def bump (x : Word) : Word := if x = BitVec.allOnes 64 then x else x + 1

/-- A variable-latency result: its registers are pending until it is written back (R104). -/
def pendResult (r : Result) (regs : List Nat) (s : State) : State :=
  let s := s.setCx (s.cx.marks true regs)
  s.setCo { s.co with results := s.co.results ++ [{ r with slot := s.cur % 8 }] }

/-- The translation with which the device reads the records of a device context: its template's heap triple and ctxid (R334). [DESIGN CHOICE, log 105] -/
def State.recTrans (s : State) (dc : Nat) : Trans :=
  let t := (s.dctx dc).template
  { hbase := fld (vget t 3 0).toNat 0 56, hlimit := fld (vget t 4 0).toNat 0 56, hoffset := (vget t 5 0).toNat, ctxid := fld (vget t 7 0).toNat 0 16, dc }

/-- Is a commit in progress on a block that n bytes from `pa` on meet (R81)? [DEDUCED, log 25] -/
def State.blockBusy (s : State) (pa n : Nat) : Bool :=
  s.jobs.any (fun j => match j.2.kind with | .commit b _ => decide (pa < b + 512) && decide (b < pa + n) | _ => false)

/-- A write that the device makes of itself, of a link word or of the region table; one to a block that is BUSY waits at its pier (R81). [DEDUCED, log 25] -/
def State.lateWrite (s : State) (pa n v : Nat) : State := if s.blockBusy pa n then { s with late := s.late ++ [(pa, n, v)] } else s.pierWrite pa n v

/-- The link word of a record that comes to sit on a queue, deque or list (R10): the device writes it, with a value of its own, the same for a record
whenever it does, so that equal launches write equal bytes (R326). [DEDUCED, log 29] -/
def State.writeLink (s : State) (core : Nat) (e : QEnt) : State :=
  match s.xlate core (s.recTrans e.dc) (fld e.rcd.toNat 0 56 + 56) with
  | .ok p => if p.place = .here then s.lateWrite p.pa 8 (Config.linkWord e.rcd.toNat).toNat else s
  | _ => s

/-- Enqueues a record at the tail of a level of a cluster queue (R335). -/
def State.enqueue (s : State) (cl lvl : Nat) (e : QEnt) : State :=
  let s := s.writeLink (32 * cl) e
  let c := s.cluster cl
  s.setCluster cl { c with queues := c.queues.setIfInBounds lvl (vget c.queues lvl [] ++ [{ e with tick := s.tick }]) }

/-- Pushes a record on the LIFO end of a core's deque; when it is full, the record goes to the cluster queue (R236). -/
def State.pushDeque (s : State) (core : Nat) (e : QEnt) : State :=
  if 256 ≤ (s.core core).deque.length then s.enqueue (core / 32) e.prio e
  else
    let s := s.writeLink core e
    let c := s.core core
    s.setCore core { c with deque := c.deque ++ [{ e with tick := s.tick }] }

/-- The marker of an instruction's chain. -/
def Instr.marker (i : Instr) : Bool := match i.ops with | some o => o.s | none => false

/-- The held instruction of a context completes, its results written by `f`. -/
def State.completeHeld (s : State) (k : Nat) (f : Ctx → Ctx) : State :=
  let c := s.ctx k
  match c.held with
  | none => s
  | some i => s.setCtx k ((f c).retire i (Instr.marker i))

/-- The owner of an operand slot: A slots 0 to 31, W slots 32 to 95. -/
def Core.own (c : Core) (n : Nat) : Own := tget c.slots n .free

/-- Sets the owner of an operand slot. -/
def Core.setOwn (c : Core) (n : Nat) (w : Own) : Core := { c with slots := tset c.slots n w }

/-- A context claims, restores or releases an operand slot: no command of another continuation may write it any more (R221). [DEDUCED, log 62] -/
def Core.claim (c : Core) (n : Nat) (w : Own) : Core := { c.setOwn n w with rights := c.rights.map (fun (e : Nat × List Nat) => (e.1, e.2.filter (· != n))) }

/-- A physical accumulator. -/
def Core.acc (c : Core) (n : Nat) : Acc := tget c.accs n {}

/-- Replaces a physical accumulator. -/
def Core.setAcc (c : Core) (n : Nat) (a : Acc) : Core := { c with accs := tset c.accs n a }

/-- The physical accumulators on the free list, ascending. -/
def Core.freeAccs (c : Core) : List Nat := (List.range 32).filter (fun n => (c.acc n).own == .free)

/-- A local buffer by number: 0 A, 1 W, 2 L. -/
def Core.buf (c : Core) (b : Nat) : Mem := match b with | 0 => c.abuf | 1 => c.wbuf | _ => c.lmem

/-- Replaces a local buffer. -/
def Core.setBuf (c : Core) (b : Nat) (m : Mem) : Core := match b with
  | 0 => { c with abuf := m }
  | 1 => { c with wbuf := m }
  | _ => { c with lmem := m }

/-- The size of a local space (R20). -/
def spaceSize (b : Nat) : Nat := match b with | 0 => 0x20000 | 1 => 0x40000 | _ => 0x18000

/-- Does [lo, hi) of a buffer overlap an entry of the range scoreboard (R22)? -/
def Core.busy (c : Core) (b lo hi : Nat) : Bool := c.scores.any (fun e => e.buf == b && decide (e.lo < hi) && decide (lo < e.hi))

/-- Does [lo, hi) of L-memory overlap a retained range (R15)? -/
def Core.retained (c : Core) (lo hi : Nat) : Bool := c.kept.any (fun e => decide (e.lo < hi) && decide (lo < e.lo + e.len))

/-- An address outside a local space or a retained or unowned part of one (R139, R350). [DEDUCED, log 26] -/
def localTrap (addr : Nat) (reason : Nat) : Trap := trapAt 5 addr (info 15 9 reason)

/-- Is a slot an operand slot of an operation (R203)? -/
def MatOp.uses (m : MatOp) (n : Nat) : Bool :=
  let len := fld m.mctl.toNat 32 5
  (m.ownA && decide (m.ta ≤ n) && decide (n < m.ta + len)) || (decide (32 + m.tb ≤ n) && decide (n < 32 + m.tb + len))

/-- Does a matrix operation of the core, held or running, use this operand slot (R52)? -/
def Core.slotInUse (c : Core) (n : Nat) : Bool := c.mat.any (fun m => m.uses n)

/-- Is a core a member of a group's domain (R331)? -/
def Group.member (g : Group) (core : Nat) : Bool := match g.level with
  | 1 => g.mask.getLsbD (core % 8)
  | 2 => g.mask.getLsbD (core % 32)
  | 3 => g.spread == 0 || decide (core < g.count)
  | 4 => g.spread == 0 || decide (core < g.count)
  | _ => false

/-- Cores of a span (R230). -/
def spanCores (level dom : Nat) : List Nat :=
  let n := match level with | 1 => 8 | 2 => 32 | 3 => 384 | _ => 1536
  (List.range n).map (n * dom + ·)

/-- The span of a core at a level (R230): its row, cluster, die or the device, as a number. -/
def spanOf (level core : Nat) : Nat := match level with | 1 => core / 8 | 2 => core / 32 | 3 => core / 384 | _ => 0

/-- The members of a domain. [DEDUCED, log 34] -/
def Group.members (g : Group) (dom : Nat) : List Nat := (spanCores g.level dom).filter g.member

/-- The group's layout. -/
def State.group (s : State) (g : Nat) : Group := vget s.truss g {}

/-- The barrier group of a core. -/
def State.bar (s : State) (core g : Nat) : Bar := vget (s.core core).bars g {}

/-- Replaces a barrier group of a core. -/
def State.setBar (s : State) (core g : Nat) (b : Bar) : State :=
  let c := s.core core
  s.setCore core { c with bars := c.bars.setIfInBounds g b }

/-- Is a phase of the core's domain of a group latched? -/
def State.isLatched (s : State) (core g : Nat) : Bool := s.latched.contains (g, spanOf (s.group g).level core)

/-- Do both conditions of a phase hold (R230): every member has arrived, a fenced core counting as arrived with pc 0 (R391), and the pending-byte
counters of the span sum to 0? [DEDUCED, log 34] -/
def State.phaseReady (s : State) (group dom : Nat) : Bool :=
  let g := s.group group
  let ms := g.members dom
  g.level != 0 && !ms.isEmpty && !s.latched.contains (group, dom) && ms.all (fun c => (s.bar c group).arrived || (s.core c).fenced)
  && (spanCores g.level dom).foldl (fun (t : Int) c => if (s.core c).fenced then t else t + (s.bar c group).pc.toInt) 0 == 0

/-- Latches a phase whose conditions hold (R230). [DEDUCED, log 34] -/
def State.latch (s : State) (group dom : Nat) : State := if s.phaseReady group dom then { s with latched := s.latched ++ [(group, dom)] } else s

/-- Latches every phase whose conditions hold (R230): one has a core that has arrived, or that is fenced. [DEDUCED, log 34] -/
def State.latchAll (s : State) : State :=
  s.cores.foldl (fun s e => (List.range 8).foldl (fun s g => if e.2.fenced || (vget e.2.bars g {}).arrived then s.latch g (spanOf (s.group g).level e.1) else s) s) s

/-- An arrival or a pending-byte counter of a core has changed: its phase is latched in the same step when its conditions now hold (R230). -/
def State.latchOf (s : State) (core group : Nat) : State := s.latch group (spanOf (s.group group).level core)

/-- Releases every operand slot and accumulator that a context holds; one that a matrix operation uses is released when the
operation ends (R135). [DEDUCED, log 62] -/
def Core.releaseCtx (c : Core) (slot : Nat) : Core :=
  let c := (List.range 96).foldl (fun c n => if c.own n = .ctx slot then c.setOwn n (if c.slotInUse n then .ending else .free) else c) c
  (List.range 32).foldl (fun c n =>
    let a := c.acc n
    if a.own = .ctx slot then c.setAcc n { a with own := if c.mat.any (fun m => m.tc == n) then .ending else .free } else c) c

/-- The engine of a core. -/
def Core.engine (c : Core) (index : Bool) : Engine := if index then c.index else c.copy

/-- Replaces an engine. -/
def Core.setEngine (c : Core) (index : Bool) (e : Engine) : Core := if index then { c with index := e } else { c with copy := e }

/-- Does an engine of a core hold a command of a continuation that has not completed, or a program of it that has still to add to its counter (R227, R316)? -/
def Core.commandsOf (c : Core) (uid : Nat) : Bool :=
  let one (e : Engine) : Bool := e.queue.any (fun q => match q with | .cmd d => d.uid == uid | .prog _ _ _ u => u == uid) || e.ends.any (fun p => p.uid == uid)
    || e.flight.any (fun d => d.uid == uid) || e.prog.any (fun p => p.uid == uid) || e.fault.any (fun f => f.cmd.uid == uid)
  one c.copy || one c.index

/-- A context halts or is hard-saved: the commands that it has issued and that have not completed run on, and may write the slots that it owns (R135, R221,
R360). [DEDUCED, log 62] -/
def Core.entitle (c : Core) (slot uid : Nat) : Core :=
  let mine := (List.range 96).filter (fun n => c.own n == .ctx slot)
  if mine = [] ∨ c.commandsOf uid = false then c else { c with rights := tset c.rights uid mine }

/-- Ends the retention for a record: its slots, accumulators and range are free (R15). -/
def Core.releaseKept (c : Core) (rcd : Word) : Core :=
  let c := (List.range 96).foldl (fun c n => if c.own n = .kept rcd then c.setOwn n .free else c) c
  let c := (List.range 32).foldl (fun c n => if (c.acc n).own = .kept rcd then c.setAcc n { c.acc n with own := .free } else c) c
  { c with kept := c.kept.filter (fun e => e.rcd != rcd) }

/-- Records placed or forked: they are live, and the launch has created them (R333). -/
def DevCtx.born (d : DevCtx) (n : Nat) : DevCtx := { d with live := d.live + n, launch := d.launch.map (fun l => { l with created := l.created + n }) }

/-- One record fewer is live (R333). -/
def State.liveDown (s : State) (dc : Nat) : State := s.setDctx dc { s.dctx dc with live := (s.dctx dc).live - 1 }

/-- A context slot is free again. -/
def State.freeCtx (s : State) (k : Nat) : State := (s.setCtx k {}).idleRow k

/-- A context halts: its slots return, its context slot is free, and its record is no longer live (R135, R333). [DEDUCED, log 38] -/
def State.endContext (s : State) (k : Nat) : State :=
  let dc := (s.ctx k).dc
  let uid := (s.ctx k).uid
  let c := ((s.core (k / 8)).entitle (k % 8) uid).releaseCtx (k % 8)
  let s := s.setCore (k / 8) { c with exch := c.exch.filter (· != uid), ss := tdel c.ss uid }
  (s.freeCtx k).liveDown dc

/-- The address space of a fault address (R226). -/
def EFault.trap (f : EFault) (index : Bool) : Trap :=
  { cause := 15, xaddr := f.addr, xinfo := BitVec.ofNat 64 (f.index * 2 ^ 48 + (f.ec.getD 0) * 2 ^ 40 + b2n index * 2 ^ 35 + b2n f.ec.isSome * 2 ^ 34 + f.xsp * 256 + f.cause) }

/-- The ENGINE trap of a counter whose flag is reported: that of the engine whose fault raised it (R133, R226). Of two that raised it, the copy engine's. [DESIGN CHOICE, log 81] -/
def Core.ecTrap (c : Core) (n : Nat) : Trap :=
  match c.copy.fault with
  | some f => if f.ec = some n then f.trap false else (match c.index.fault with | some g => g.trap true | none => { cause := 15 })
  | none => match c.index.fault with | some g => g.trap true | none => { cause := 15 }

/-- The kinds of a WAITC condition word, and its malformed words (R131). -/
def condKind (w : Nat) : Nat := fld w 60 4

def condBad (w : Nat) : Bool :=
  match condKind w with
  | 0 => fld w 0 60 != 0
  | 1 => fld w 36 24 != 0
  | 2 => fld w 56 4 != 0
  | 3 => fld w 56 4 != 0
  | 4 => fld w 3 57 != 0
  | 5 => fld w 3 57 != 0
  | _ => true

/-- The condition words of a WAITC, in register order. -/
def condWords (o : Ops) (c : Ctx) : List Nat := (List.range (groupSize o)).map (fun i => (c.getG (o.aNum + i)).toNat)

/-- Counter ≥ k, across a wrap (R19). -/
def counterGe (v k : BitVec 32) : Bool := decide (0 ≤ (v - k).toInt)

/-- Does one condition hold (R132)? Kind 0 holds under `.all` only. -/
def condHolds (c : Core) (all : Bool) (w : Nat) (p : Probe) : Bool :=
  match condKind w with
  | 0 => all
  | 1 => counterGe (vget c.ec (fld w 32 4) 0) (BitVec.ofNat 32 w)
  | 2 => p.answer == some true
  | 3 => p.answer == some false
  | 4 => !(vget c.bars (fld w 0 3) {}).arrived
  | _ => p.answer == some true

/-- Does the combination hold? A group of only kind 0 holds. -/
def combination (c : Core) (all : Bool) (ws : List Nat) (ps : List Probe) : Bool :=
  let hs := (ws.zip ps).map (fun e => condHolds c all e.1 e.2)
  if ws.all (fun w => condKind w == 0) then true else if all then hs.all id else hs.any id

/-- The counters that a WAITC names. -/
def condCounters (ws : List Nat) : List Nat := ws.filterMap (fun w => if condKind w = 1 then some (fld w 32 4) else none)

/-- The outcome of an evaluation (R132, R133): the predicate to write, and the raised flags moved to reported. [DEDUCED, log 31] -/
def waitcEval (c : Core) (all : Bool) (ws : List Nat) (ps : List Probe) : Option Bool × Core :=
  let raised := (condCounters ws).filter (fun n => vget c.ecf n .clear == .raised)
  if raised ≠ [] then (some false, { c with ecf := raised.foldl (fun v n => v.setIfInBounds n .reported) c.ecf })
  else if combination c all ws ps then (some true, c)
  else (none, c)

/-- Is `.all` selected (R131)? -/
def waitcAll (o : Ops) : Bool := bitOf (o.clsOr 0) 5

/-- The core evaluates the WAITC of one of its contexts again (R132), but not after its expiry edge. [DEDUCED, log 31; DESIGN CHOICE, log 66] -/
def State.reevaluate (s : State) (k : Nat) : State :=
  let c := s.ctx k
  match c.wait, c.held with
  | .waitc deadline ps, some (.waitc o) =>
    if deadline ≠ 0 ∧ deadline ≤ s.tick then s
    else
      let r := waitcEval (s.core (k / 8)) (waitcAll o) (condWords o c) ps
      match r.1 with
      | none => s
      | some b => (s.setCore (k / 8) r.2).completeHeld k (fun c => (c.setP o.dNum b).mark false (rp o.dNum))
  | _, _ => s

/-- Every WAITC of a core is evaluated again, the lowest slot first: of two that name a counter whose flag is raised, that one takes the flag to
reported (R133). [DESIGN CHOICE, log 66] -/
def State.poke (s : State) (core : Nat) : State := (State.slotsOf core).foldl State.reevaluate s

/-- A counter has changed: the records parked on it go to the cluster queue, pinned to their core, in the order in which they parked, and waiting conditions
are evaluated again (R134, R229). [DESIGN CHOICE, log 82] -/
def State.counterChanged (s : State) (core n : Nat) : State :=
  let c := s.core core
  let hit := c.ecWait.filter (fun e => e.2.contains n)
  let s := s.setCore core { c with ecWait := c.ecWait.filter (fun e => !e.2.contains n) }
  (hit.foldl (fun s e => s.enqueue (core / 32) e.1.prio e.1) s).poke core

/-- Writes an event counter. -/
def State.setCounter (s : State) (core n : Nat) (v : BitVec 32) : State :=
  let c := s.core core
  (s.setCore core { c with ec := c.ec.setIfInBounds n v }).counterChanged core n

/-- Adds to an event counter. -/
def State.addCounter (s : State) (core n : Nat) (v : BitVec 32) : State := s.setCounter core n (vget (s.core core).ec n 0 + v)

/-- Is the result of a BARMX of a slot's context still to come from a group? -/
def Bar.awaited (b : Bar) (slot : Nat) : Bool :=
  b.waiters.any (fun w => w.1 == slot) || b.kept.any (fun k => match k with | .mx _ w _ => w == slot | _ => false)

/-- The contexts of a core have been discarded (R398): no result goes to them, while what they have contributed stays. [DEDUCED, log 46] -/
def Bar.forgo (b : Bar) : Bar :=
  { b with waiters := [], kept := b.kept.map (fun k => match k with | .mx x _ r => .mx x 8 r | k => k) }

/-- Has the context of a slot a BARMX whose result, which is an acquire, has not come (R145, R232, R278)? [DEDUCED, log 25] -/
def Core.awaitsMx (c : Core) (slot : Nat) : Bool := c.bars.toList.any (fun b => b.awaited slot)

/-- Has the context of a slot no access in flight? -/
def State.performedAll (s : State) (core slot : Nat) : Bool := (s.core core).flight.all (fun a => a.slot != slot)

/-- Are the waits of a release over (R145)? Every earlier access of the context is performed, whatever the scope, and every BARMX result has come, which is an
acquire before it. What a context has seen of another's stores is performed: a store in flight gives its data to no one. [DEDUCED, log 25; DESIGN CHOICE, log 75] -/
def State.releaseReady (s : State) (core slot : Nat) : Bool := s.performedAll core slot && !(s.core core).awaitsMx slot

/-- Key of a line in a cache: its number; a remote line's has its device. -/
def lineKey (p : Place) (pa : Nat) : Nat := match p with | .remote d => ((d + 1) * 2 ^ 56 + pa) / 64 | _ => pa / 64

/-- Is a cache line's home this device's HBM5? The others are of another device, or of host memory (R252). [DESIGN CHOICE, log 10] -/
def homeKey (key : Nat) : Bool := decide (key < 2 ^ 49)

/-- The acquire actions at a scope (R145): from `die` on, the data cache is emptied and the lines that are homed elsewhere leave the cluster cache. [DESIGN CHOICE, log 10] -/
def State.acquire (s : State) (core scope : Nat) : State :=
  if scope < 2 then s
  else
    let s := s.setCore core { s.core core with dcache := [] }
    let cl := s.cluster (core / 32)
    s.setCluster (core / 32) { cl with cache := cl.cache.filter (fun e => homeKey e.1) }

/-- The hash of a word address over the park table's buckets (R357). -/
def parkBucket (k pa : Nat) : Nat := (pa / 8 * 0x9E3779B97F4A7C15) % 2 ^ 64 / 2 ^ (64 - k)

/-- The park table's base and its bucket count's logarithm (R349, R356). [DESIGN CHOICE, log 8] -/
def State.parkBase (s : State) : Nat := fld s.regs.pkbase.toNat 12 44 * 4096
def State.parkLog (s : State) : Nat := fld (s.rd s.parkBase 8) 0 5

/-- Physical address of the head of a word's bucket. -/
def State.bucketAt (s : State) (pa : Nat) : Nat := s.parkBase + 4096 + 8 * parkBucket s.parkLog pa

/-- The slots of a chain, in order, from the word that points to the first, through the link field at `off` of each slot. It ends at a link in a poisoned
line (R390). [DESIGN CHOICE, log 27] -/
def State.chain (s : State) (off : Nat) : Nat → Nat → List Nat
  | 0, _ => []
  | fuel + 1, link => let a := s.rd link 8; if a = 0 ∨ s.sound link 8 = false then [] else a :: s.chain off fuel (a + off)

/-- Writes a chain: `head` points to the first slot, each slot's link at `off` to the next. -/
def State.writeChain (s : State) (head off : Nat) : List Nat → State
  | [] => s.pierWrite head 8 0
  | a :: r => (s.pierWrite head 8 a).writeChain (a + off) off r

/-- Returns a slot to the park table's free pool (R69), unless a poisoned line keeps the pool from it (R390). [DESIGN CHOICE, log 27] -/
def State.freeSlot (s : State) (a : Nat) : State :=
  let b := s.parkBase
  if s.sound b 24 = false ∨ s.sound (a + 88) 8 = false then s else
  let s := s.pierWrite (a + 88) 8 (s.rd (b + 8) 8)
  let s := s.pierWrite (b + 8) 8 a
  s.pierWrite (b + 16) 8 (s.rd (b + 16) 8 - 1)

/-- Adds 1 to the WCNT of a page's first group entry, or refuses: 0 for an entry that is not valid, 1 for a full count (R347). -/
def State.wcntUp (s : State) (entry : Nat) : Except Nat State :=
  if entry = 0 then .ok s
  else if bitOf (s.rd entry 1) 0 = false then .error 0
  else if s.rd (entry + 7) 1 = 255 then .error 1
  else .ok (s.pierWrite (entry + 7) 1 (s.rd (entry + 7) 1 + 1))

/-- Takes 1 from a WCNT that can be read (R347, R390). [DESIGN CHOICE, log 27] -/
def State.wcntDown (s : State) (entry : Nat) : State :=
  if entry = 0 ∨ s.sound (entry + 7) 1 = false then s else s.pierWrite (entry + 7) 1 (s.rd (entry + 7) 1 - 1)

/-- One record has been unlinked from its bucket: its page's count goes down; it is on its way to its cluster queue, or on the wake
list of its device context while that is not resident (R69, R347, R357). -/
def State.wakeOne (s : State) (p : Parked) : State :=
  let s := s.wcntDown p.leaf
  if s.resident = some p.ctxid then
    let s := s.freeSlot p.slot
    { s with parked := s.parked.filter (fun q => q.slot != p.slot), wakes := s.wakes ++ [p] }
  else
    let at_ := s.parkBase + 64 + 16 * p.ctxid
    let s := s.pierWrite (p.slot + 56) 8 0
    let tail := s.rd (at_ + 8) 8
    let s := if s.rd at_ 8 = 0 then s.pierWrite at_ 8 p.slot else s.pierWrite (tail + 56) 8 p.slot
    s.pierWrite (at_ + 8) 8 p.slot

/-- Can the record of a slot be woken: is no line poisoned of the slot or, while its device context is not resident, of the wake list that takes it (R390)? [DESIGN CHOICE, log 27] -/
def State.wakeable (s : State) (p : Parked) : Bool :=
  let at_ := s.parkBase + 64 + 16 * p.ctxid
  s.sound (p.slot + 56) 16 && (s.resident == some p.ctxid || (s.sound at_ 16 && (s.rd at_ 8 == 0 || s.sound (s.rd (at_ + 8) 8 + 56) 8)))

/-- Unlinks every record parked on a word, in chain order, and clears the word's wait bit (R69). [DESIGN CHOICE, log 27; DESIGN CHOICE, log 97] -/
def State.wakeWord (s : State) (pa : Nat) : State :=
  if s.sound s.parkBase 8 = false then s
  else
    let head := s.bucketAt pa
    let all := s.chain 56 (s.parked.length + 1) head
    let ps := all.filterMap (fun a => s.parked.find? (fun p => p.slot == a && s.wakeable p && s.rd (a + 64) 8 == pa))
    let s := s.writeChain head 56 (all.filter (fun a => !ps.any (fun p => p.slot == a)))
    ps.foldl State.wakeOne (s.setWaitBit pa false)

/-- Changes the fe bit of a word; a change wakes the waiters (R63, R69). [DESIGN CHOICE, log 97] -/
def State.setFe (s : State) (pa : Nat) (v : Bool) : State :=
  if s.fe pa = v then s
  else
    let t := s.setMetaBit pa (pa / 8 % 8) v
    if t.waitBit pa then t.wakeWord (pa / 8 * 8) else t

/-- Charges a row's token bucket, or nothing when the balance is too low (R382). [DESIGN CHOICE, log 54] -/
def State.charge (s : State) (core cost : Nat) : Option State :=
  let r := s.row (core / 8)
  if r.balance < min cost 256 then none
  else some (if cost = 0 then s else s.setRow (core / 8) { r with balance := r.balance - min cost r.balance, taper := none })

end Sys2Proof.Machine
end

