-- ==== Sys2Proof/Machine/Window.lean ====
section
/-! DEFINITION. The register window (R327, R349, R355, R370, R375, R377, R387, R389, R392): what a read returns, what a write does, and
the replies to Cethen's callers that a write can complete (R250, R375). -/

namespace Sys2Proof.Machine

open Sys2Proof

/-- A word from a number. -/
def w64 (n : Nat) : Word := BitVec.ofNat 64 n

/-- The field [hi, lo] of a written value in place; every other bit is reserved (R6). -/
def keep (v : Word) (hi lo : Nat) : Word := w64 (fld v.toNat lo (hi + 1 - lo) * 2 ^ lo)

/-- `qstat` (R327): the stored status fields, with BUSY and RES as they stand. [DESIGN CHOICE, log 107] -/
def State.qstatOf (s : State) (n : Nat) : Word :=
  w64 ((s.dctx n).qstat.toNat + 8 * b2n (s.dctx n).launch.isSome + 4 * b2n (s.resident == some n))

/-- Sets a field of the stored `qstat`. -/
def DevCtx.setStat (d : DevCtx) (lo n v : Nat) : DevCtx := { d with qstat := w64 (setFld d.qstat.toNat lo n v) }

/-- Sets `bstat`.state. -/
def State.setBoot (s : State) (st : Nat) : State := { s with regs := { s.regs with bstat := w64 (setFld s.regs.bstat.toNat 0 4 st) } }

/-- Boot fails with an error code (R371). [DEDUCED, log 51] -/
def State.bootFail (s : State) (err : Nat) : State :=
  let t := s.setBoot 6
  { t with regs := { t.regs with bstat := w64 (setFld t.regs.bstat.toNat 8 8 err) } }

/-- Freeze (R384): the clocks stop, memory goes into self-refresh. -/
def State.doFreeze (s : State) : State := { s.setBoot 7 with selfRefresh := true }

/-- The fence map word w (R389). -/
def State.fenceMap (s : State) (w : Nat) : Word := w64 (pack 1 64 (fun j => b2n (s.core (64 * w + j)).fenced))

/-- A word of the error ring (R392): entry e of 64, word w. Entry number n of the ring lies at n mod 64. [DEDUCED, log 59] -/
def State.ringWord (s : State) (e w : Nat) : Word :=
  let n := s.ring.length
  let last := (List.range n).foldl (fun acc i => if i % 64 = e then some i else acc) none
  match last.bind (fun i => s.ring[i]?) with
  | none => 0
  | some x => w64 (match w with | 0 => x.1 | 1 => x.2.1 | 2 => x.2.2.1 | _ => x.2.2.2)

/-- The 8-byte register at an aligned window offset. [DESIGN CHOICE, log 24] -/
def State.winReg (s : State) (off : Nat) : Word :=
  let r := s.regs
  if 0x10000 ≤ off ∧ off < 0x11000 then
    let n := (off - 0x10000) / 64
    let d := s.dctx n
    match off % 64 / 8 with
    | 0 => d.qbasep | 1 => d.qsize | 2 => d.qhead | 3 => d.qtail | 4 => d.tmplp | 5 => s.qstatOf n | _ => 0
  else if 0x20000 ≤ off ∧ off < 0x21000 then
    let d := s.dctx ((off - 0x20000) / 64)
    match off % 64 / 8 with
    | 0 => d.ptroot | 1 => d.rtbase | 2 => d.svbase | 3 => d.dlctl | _ => 0
  else if off = 0x30000 then r.pkbase
  else if 0x40000 ≤ off ∧ off < 0x43000 then
    let c := s.cluster ((off - 0x40000) / 256)
    match off % 256 / 8 with
    | 0 => c.crepId | 1 => c.crepPc | 2 => c.cstop | _ => 0
  else if 0x50080 ≤ off ∧ off < 0x50200 then (s.cluster ((off - 0x50080) / 8)).energy
  else if 0x60000 ≤ off ∧ off < 0x60600 then
    let p := s.port ((off - 0x60000) / 64)
    match off % 64 / 8 with
    | 0 => p.ulctl | 1 => p.ulstat | 2 => p.rqbase | _ => 0
  else if 0x70000 ≤ off ∧ off < 0x78000 then tget s.routes ((off - 0x70000) / 8) 0
  else if 0x80000 ≤ off ∧ off < 0x81000 then
    let d := s.dctx ((off - 0x80000) / 64)
    match off % 64 / 8 with
    | 0 => d.energy | 1 => d.res | 2 => d.lnch | 3 => d.switches | _ => 0
  else if 0x90100 ≤ off ∧ off < 0x901C0 then s.fenceMap ((off - 0x90100) / 8)
  else if 0x91000 ≤ off ∧ off < 0x91800 then s.ringWord ((off - 0x91000) / 32) (off % 32 / 8)
  else match off with
    | 0x50000 => r.bstat | 0x50008 => r.bootsrc | 0x50010 => r.bootlen | 0x50018 => r.fwver | 0x50020 => r.devid
    | 0x50028 => r.rwbase | 0x50030 => r.rwsize | 0x50038 => r.pwcap | 0x50040 => r.pwnow | 0x50048 => r.frz
    | 0x50200 => r.pcib2
    | 0x90000 => r.rascmem | 0x90008 => r.rasumem | 0x90010 => r.rascsram | 0x90018 => r.rasusram | 0x90020 => r.rasjoin
    | 0x90028 => r.rasfenced | 0x90030 => r.raslast | 0x90038 => 0
    | 0xA0000 => r.mbstage | 0xA0008 => r.mbslen | 0xA0010 => r.mbreq0 | 0xA0018 => r.mbreq1 | 0xA0020 => r.mbreq2
    | 0xA0028 => r.mbans0 | 0xA0030 => r.mbans1 | 0xA0038 => 0
    | _ => Config.windowHole off

/-- A read of n bytes of the window, 4 or 8, aligned. [DESIGN CHOICE, log 24] -/
def State.winRead (s : State) (off n : Nat) : Nat := fld (s.winReg (off / 8 * 8)).toNat (8 * (off % 8)) (8 * n)

/-- The reply to a service request (R250): the caller's G[D] takes the status, and the acquire actions at `sys` follow. [DEDUCED, log 37] -/
def State.reply (s : State) (q : FwReq) (status : Nat) : State :=
  let k := 8 * q.core + q.slot
  let c := s.ctx k
  match c.wait, c.held with
  | .fw id, some (.fwcall o) => if id = q.id then (s.completeHeld k (fun c => c.setG o.dNum (w64 status))).acquire q.core 4 else s
  | _, _ => s

/-- Cethen finishes the request at the head of its queue. [DEDUCED, log 37] -/
def State.finish (s : State) (q : FwReq) (status : Nat) : State := { s with fwq := s.fwq.drop 1 }.reply q status

/-- Writes V and the page's address into the entries of a group, the first entry last (R375). -/
def State.mapGroup (s : State) (entry pa : Nat) : Nat → State
  | 0 => s
  | n + 1 =>
    let a := entry + 16 * n
    let w := setFld (setFld (s.rd a 8) 12 44 (pa / 4096)) 0 1 1
    (s.pierWrite a 8 w).mapGroup entry pa n

/-- Sets the fe bits of the lines of a page from the bitmap in the staging buffer: byte i is line i (R375). A page without waiters
wakes no one (R63). -/
def State.restoreFe (s : State) (stage pa lines : Nat) : State :=
  { s with lineMeta := (List.range lines).foldl (fun t i =>
      let n := pa / 64 + i
      tset t n ((tget t n 0xFF &&& 0xFFFFFF00) ||| BitVec.ofNat 32 (s.rd (stage + i) 1))) s.lineMeta }

/-- A write of `mbans1` (R375): with the posted sequence number it completes the request. A page-in whose bitmap or whose group has a poisoned line finds no
copy (R390). [DESIGN CHOICE, log 27] -/
def State.mailboxWrite (s : State) (v : Word) : State :=
  let v := keep v 39 0
  let s := { s with regs := { s.regs with mbans1 := v } }
  match s.posted with
  | none => s
  | some p =>
    if fld v.toNat 0 32 ≠ p.seq then s
    else
      let st := fld v.toNat 32 8
      let t := { s with posted := none }
      if p.op = 1 ∧ st ≠ 3 then
        let pa := fld s.regs.mbans0.toNat 0 56
        let stage := fld s.regs.mbstage.toNat 12 44 * 4096
        if s.sound stage (p.size / 64) = false ∨ s.sound p.entry (16 * p.count) = false then t.finish p.req 3
        else ((t.restoreFe stage pa (p.size / 64)).mapGroup p.entry pa p.count).finish p.req 0
      else t.finish p.req st

/-- A write of `qsize` (R327): ignored while BUSY; it clears err, REF, ridx and lst. -/
def State.qsizeWrite (s : State) (n : Nat) (v : Word) : State :=
  let d := s.dctx n
  if d.launch.isSome then s else s.setDctx n { d with qsize := keep v 15 0, qstat := 0 }

/-- A write of `qtail` (R327, R328): an index not below `qsize` sets err 1. -/
def State.qtailWrite (s : State) (n : Nat) (v : Word) : State :=
  let d := s.dctx n
  let t := keep v 15 0
  let d := { d with qtail := t }
  s.setDctx n (if d.qsize.toNat ≤ t.toNat then d.setStat 4 4 1 else d)

/-- A write of `ulctl` (R377): EN = 1 starts training, EN = 0 leaves the port down. [DESIGN CHOICE, log 24] -/
def State.ulctlSet (s : State) (port : Nat) (v : Word) : State :=
  let p := s.port port
  let st := if v.getLsbD 0 then 1 else 0
  s.setPort port { p with ulctl := keep v 3 0, ulstat := w64 (setFld (setFld p.ulstat.toNat 0 4 st) 4 8 0), since := s.tick }

/-- Is a slot's entry still in the reduction queue (R380)? -/
def Port.queued (p : Port) (slot : Nat) : Bool := p.queue.any (fun e => e.2 == fld p.rqbase.toNat 15 41 * 2 ^ 15 + 128 * slot)

/-- A write of `rqrel` (R380): frees a slot. It has no effect while the slot's entry has not been popped, and a number above 255 is ignored. [DEDUCED, log 52] -/
def State.rqrelSet (s : State) (port : Nat) (v : Word) : State :=
  let p := s.port port
  if 255 < v.toNat ∨ p.queued v.toNat = true then s else s.setPort port { p with used := p.used &&& ~~~(BitVec.ofNat 256 (2 ^ v.toNat)) }

/-- A write of `frz` (R370, R384). -/
def State.frzSet (s : State) (v : Word) : State :=
  let t := { s with regs := { s.regs with frz := keep v 0 0 } }
  if v.getLsbD 0 then t.doFreeze else t

/-- A write of `crep.id` (R47, R355): 0 in bit 63 clears the report and rearms the window; while V = 0 an open window goes on. [DESIGN CHOICE, log 65] -/
def State.crepSet (s : State) (c : Nat) (v : Word) : State :=
  if v.getLsbD 63 then s else s.setCluster c { s.cluster c with crepId := 0, crepPc := 0 }

/-- A write of `cstop` (R355). -/
def State.cstopSet (s : State) (c : Nat) (v : Word) : State :=
  if v.getLsbD 63 then s else s.setCluster c { s.cluster c with cstop := 0 }

/-- A write to a device register that only stores its value (R370, R349, R375). -/
def Regs.store (r : Regs) (off : Nat) (v : Word) : Regs :=
  match off with
  | 0x30000 => { r with pkbase := keep v 55 12 }
  | 0x50008 => { r with bootsrc := keep v 55 0 }
  | 0x50010 => { r with bootlen := keep v 31 0 }
  | 0x50020 => { r with devid := keep v 11 0 }
  | 0x50028 => { r with rwbase := keep v 55 6 }
  | 0x50030 => { r with rwsize := keep v 55 6 }
  | 0x50038 => { r with pwcap := keep v 11 0 }
  | 0x50200 => { r with pcib2 := keep v 55 36 }
  | 0xA0000 => { r with mbstage := keep v 55 12 }
  | 0xA0008 => { r with mbslen := keep v 39 0 }
  | 0xA0028 => { r with mbans0 := keep v 55 0 }
  | _ => r

/-- A write to a register with no behaviour of its own: it stores its value; read-only registers and holes ignore it. Queue
registers are ignored while BUSY, translation registers while RES (R327, R349). -/
def State.plainWrite (s : State) (off : Nat) (v : Word) : State :=
  if 0x10000 ≤ off ∧ off < 0x11000 then
    let n := (off - 0x10000) / 64
    let d := s.dctx n
    if d.launch.isSome then s
    else match off % 64 / 8 with
      | 0 => s.setDctx n { d with qbasep := keep v 55 0 }
      | 4 => s.setDctx n { d with tmplp := keep v 55 0 }
      | _ => s
  else if 0x20000 ≤ off ∧ off < 0x21000 then
    let n := (off - 0x20000) / 64
    let d := s.dctx n
    if s.resident = some n then s
    else match off % 64 / 8 with
      | 0 => s.setDctx n { d with ptroot := keep v 55 12 }
      | 1 => s.setDctx n { d with rtbase := keep v 55 16 }
      | 2 => s.setDctx n { d with svbase := keep v 55 21 }
      | 3 => s.setDctx n { d with dlctl := keep v 32 0 }
      | _ => s
  else if 0x60000 ≤ off ∧ off < 0x60600 then
    let n := (off - 0x60000) / 64
    if off % 64 = 16 then s.setPort n { s.port n with rqbase := keep v 55 15 } else s
  else if 0x70000 ≤ off ∧ off < 0x78000 then { s with routes := tset s.routes ((off - 0x70000) / 8) (keep v 23 0) }
  else { s with regs := s.regs.store off v }

/-- Has the register at this offset a behaviour of its own on a write? -/
def hasBehaviour (off : Nat) : Bool :=
  (decide (0x10000 ≤ off) && decide (off < 0x11000) && (off % 64 == 8 || off % 64 == 24))
  || (decide (0x40000 ≤ off) && decide (off < 0x43000) && (off % 256 == 0 || off % 256 == 16))
  || (decide (0x60000 ≤ off) && decide (off < 0x60600) && (off % 64 == 0 || off % 64 == 24))
  || off == 0x50048 || off == 0xA0030

/-- A write of 8 bytes to the register at an aligned window offset. [DESIGN CHOICE, log 24] -/
def State.winSet (s : State) (off : Nat) (v : Word) : State :=
  if hasBehaviour off = false then s.plainWrite off v
  else if off = 0x50048 then s.frzSet v
  else if off = 0xA0030 then s.mailboxWrite v
  else if off < 0x11000 then (if off % 64 = 8 then s.qsizeWrite ((off - 0x10000) / 64) v else s.qtailWrite ((off - 0x10000) / 64) v)
  else if off < 0x43000 then (if off % 256 = 0 then s.crepSet ((off - 0x40000) / 256) v else s.cstopSet ((off - 0x40000) / 256) v)
  else if off % 64 = 0 then s.ulctlSet ((off - 0x60000) / 64) v
  else s.rqrelSet ((off - 0x60000) / 64) v

/-- A write of n bytes, 4 or 8, aligned; a 4-byte write leaves the register's other half as it reads. [DESIGN CHOICE, log 24] -/
def State.winWrite (s : State) (off n v : Nat) : State :=
  let a := off / 8 * 8
  s.winSet a (if n = 8 then w64 v else w64 (setFld (s.winReg a).toNat (8 * (off % 8)) 32 v))

end Sys2Proof.Machine
end

