-- ==== Sys2Proof/Machine/Access.lean ====
section
/-! DEFINITION. Accesses in flight and their pieces: what is performed at the home of a piece, when a piece may be performed, and what a
completed access delivers (R81, R141, R144, R145, R148, R153, R154, R282, R378, R390). -/

namespace Sys2Proof.Machine

open Sys2Proof

/-- Does the access read memory (R276)? GACC and GARR do, as read-modify-writes. -/
def AccKind.reads (k : AccKind) : Bool := match k with
  | .store => false
  | .fe .ste => false
  | .fe .feset => false
  | _ => true

/-- Does the access change memory? -/
def AccKind.stores (k : AccKind) : Bool := match k with
  | .load => false
  | .fe .ldw => false
  | .fe .feget => false
  | .gstat => false
  | _ => true

/-- Does the access wait on its fe bit (R64)? -/
def AccKind.waits (k : AccKind) : Bool := match k with
  | .fe .ldw => true
  | .fe .ldc => true
  | .fe .stf => true
  | _ => false

/-- xinfo.kind of an access (R350). -/
def AccKind.code (k : AccKind) : Nat := match k with
  | .load => 1
  | .store => 2
  | .atomic _ _ _ _ => 3
  | .fe _ => 4
  | _ => 5

/-- Are the homes of some parts of an access free of a commit in progress (R81)? What does not translate has no home. [DEDUCED, log 25] -/
def State.partsFree (s : State) (core : Nat) (t : Trans) (ps : List Part) : Bool :=
  s.jobs.all (fun j => match j.2.kind with | .commit _ _ => false | _ => true) || ps.all (fun p => match s.xlate core t p.va.toNat with
    | .ok q => !(q.place == .here && s.blockBusy q.pa p.n)
    | _ => true)

/-- The same of a run of bytes, read or written. [DEDUCED, log 25] -/
def State.bytesFree (s : State) (core : Nat) (t : Trans) (va n : Nat) : Bool := s.partsFree core t ((cutScalar 0 (va : Nat) n).map (cutLeaf t .load)).flatten

/-- Is a write of `mbans1` to wait? It completes a page-in, which reads the bitmap and writes the page's group (R375), and one of them meets a block that is
BUSY (R81). [DEDUCED, log 25] -/
def State.answerHeld (s : State) : Bool := s.posted.any (fun p => p.op == 1 && (s.blockBusy (fld s.regs.mbstage.toNat 12 44 * 4096) (p.size / 64) || s.blockBusy p.entry (16 * p.count)))

/-- Does a commit in progress hold an access to a physical place (R81)? [DEDUCED, log 25] -/
def State.placeHeld (s : State) (p : Place) (pa n : Nat) : Bool := (p == .here && s.blockBusy pa n) || (p == .window && pa == 2 ^ 40 + 0xA0030 && s.answerHeld)

/-- Is the word held: emptied by a commit or PST2 and not filled yet (R148)? [DEDUCED, log 25] -/
def State.wordHeld (s : State) (pa : Nat) : Bool :=
  s.jobs.any (fun j => decide (j.2.stage < 2) && (j.2.words.take j.2.emptied).contains (pa / 8 * 8))

/-- Does a byte lie in words 3 to 7 of the header of a block that has been armed (R76)? [DEDUCED, log 25] -/
def State.headerByte (s : State) (pa : Nat) : Bool := s.armed.any (fun e => decide (e.2.hdr + 24 ≤ pa) && decide (pa < e.2.hdr + 64))

/-- The port that carries traffic for a line to a device (R377): one of the ports of its mask. [DESIGN CHOICE, log 8] -/
def State.portTo (s : State) (dev pa : Nat) : Option Nat :=
  let ps := bitsOf (tget s.routes dev 0).toNat 24
  ps[Config.portHash (pa / 64) % ps.length]?

/-- Is a port up? -/
def State.portUp (s : State) (n : Nat) : Bool := fld (s.port n).ulstat.toNat 0 4 == 2

/-- Can the traffic of a piece flow? -/
def State.linkReady (s : State) (p : Piece) : Bool := match p.place with
  | .remote d => (s.portTo d p.pa).any s.portUp
  | _ => true

/-- Do two pieces touch a common location, an aligned 8-byte word (R272)? -/
def overlap (p q : Piece) : Bool := p.place == q.place && decide (p.pa / 8 ≤ (q.pa + q.n - 1) / 8) && decide (q.pa / 8 ≤ (p.pa + p.n - 1) / 8)

/-- Is the access a record instruction's? -/
def AccKind.record (k : AccKind) : Bool := match k with
  | .gacc _ => true
  | .garr => true
  | .gstat => true
  | _ => false

/-- What a piece of an access touches: a record instruction its block's header too (R76). [DEDUCED, log 25] -/
def Access.spans (a : Access) (p : Piece) : List Piece := if a.kind.record then [p, { p with pa := a.hdr, n := 64 }] else [p]

/-- Does an earlier access of the core hold back a piece of a later one (R145, R272, R275)? In its own context: where they meet; an
acquire; one that reads before a store; anything before a release. Of another context, a store that it meets. [DEDUCED, log 25; DESIGN CHOICE, log 63; DESIGN CHOICE, log 75] -/
def holdsBack (e a : Access) (p : Piece) : Bool :=
  let meets := e.pieces.any (fun q => !q.done && (e.spans q).any (fun x => (a.spans p).any (fun y => overlap x y)))
  let release := a.ord == 2 || a.ord == 3
  if e.slot = a.slot then meets || e.ord == 1 || e.ord == 3 || (a.kind.stores && e.kind.reads) || release
  else meets && e.kind.stores && !e.kind.waits && e.kind != .garr

/-- Does nothing at the core hold back a piece: no earlier access, and no BARMX of its context whose result, which is an acquire, has not come (R145, R278)? [DEDUCED, log 25] -/
def Core.freeToGo (c : Core) (a : Access) (p : Piece) : Bool :=
  !c.awaitsMx a.slot && (c.flight.takeWhile (fun e => e.id != a.id)).all (fun e => !holdsBack e a p)

/-- May a piece be performed now? One whose port has lost its peer may not any more (R378). [DEDUCED, log 25; DESIGN CHOICE, log 63; DESIGN CHOICE, log 75] -/
def State.pieceReady (s : State) (core : Nat) (a : Access) (p : Piece) : Bool :=
  !p.done && p.lost.isNone && (s.core core).freeToGo a p && !s.placeHeld p.place p.pa p.n && s.linkReady p

/-- A line of 64 bytes at its home. -/
def State.homeLine (s : State) (p : Place) (pa : Nat) : BitVec 512 := BitVec.ofNat 512 (s.readHome p (pa / 64 * 64) 64)

/-- Puts a line into the data cache, in place of the lowest when the cache is full (R20, R144). [DESIGN CHOICE, log 10] -/
def Core.fill (c : Core) (key : Nat) (line : BitVec 512) : Core :=
  let d := if 1024 ≤ c.dcache.length ∧ thas c.dcache key = false then c.dcache.drop 1 else c.dcache
  { c with dcache := tset d key line }

/-- A line as a cluster sees it, from the cluster cache, which fills on a miss, in place of the lowest when its 6 MiB are full (R9, R150, R252,
R282). [DESIGN CHOICE, log 10] -/
def State.clusterLine (s : State) (cl : Nat) (p : Place) (pa : Nat) : BitVec 512 × State :=
  let c := s.cluster cl
  let key := lineKey p pa
  match c.cache.find? (fun e => e.1 == key) with
  | some e => (e.2.data, s)
  | none =>
    let l := s.homeLine p pa
    (l, s.setCluster cl { c with cache := tset (if 98304 ≤ c.cache.length then c.cache.drop 1 else c.cache) key { data := l } })

/-- The keys of the lines that n bytes touch. -/
def keysAt (p : Place) (pa n : Nat) : List Nat := (linesAt pa n).map (lineKey p)

/-- A core has read or written n bytes at their home: its data cache and its cluster's cache give up their copies of the lines, so that no later
load of the core reads an older value from them (R144, R275). [DESIGN CHOICE, log 10] -/
def State.forget (s : State) (core : Nat) (p : Place) (pa n : Nat) : State :=
  let ks := keysAt p pa n
  let s := s.setCore core { s.core core with dcache := (s.core core).dcache.filter (fun e => !ks.contains e.1) }
  let cl := s.cluster (core / 32)
  s.setCluster (core / 32) { cl with cache := cl.cache.filter (fun e => !ks.contains e.1) }

/-- A load piece: through the data cache on a cacheable page without `.nc`, else at the home (R144). A piece that an odd heap offset lays across two
lines is read at the home. [DESIGN CHOICE, log 10] -/
def State.loadPiece (s : State) (core : Nat) (nc : Bool) (p : Piece) : Nat × State :=
  if p.place = .window then (s.winRead (p.pa - 2 ^ 40) p.n, s)
  else if p.cached = false ∨ nc = true ∨ 64 < p.pa % 64 + p.n then (s.readHome p.place p.pa p.n, s.forget core p.place p.pa p.n)
  else
    let key := lineKey p.place p.pa
    let at_ := 8 * (p.pa % 64)
    match (s.core core).dcache.find? (fun e => e.1 == key) with
    | some e => (fld e.2.toNat at_ (8 * p.n), s)
    | none =>
      let r := s.clusterLine (core / 32) p.place p.pa
      (fld r.1.toNat at_ (8 * p.n), r.2.setCore core ((r.2.core core).fill key r.1))

/-- Writes bytes at their home, but for those that the pier keeps against every store (R6, R74, R76). -/
def State.storeHome (s : State) (p : Place) (pa n v : Nat) : State :=
  let rs := if p = .here then s.recordPages else []
  let kept (i : Nat) : Bool := p == .here && (keptByte rs (pa + i) || s.headerByte (pa + i))
  if (List.range n).any kept then
    (List.range n).foldl (fun t i => if kept i then t else t.writePlace p (pa + i) 1 (v / 256 ^ i)) s
  else s.writePlace p pa n v

/-- The caches of a core after it wrote n bytes: its data-cache copies are updated, or removed (R144); its cluster's copies go. [DESIGN CHOICE, log 10] -/
def State.afterStore (s : State) (core : Nat) (keepCopy : Bool) (p : Place) (pa n : Nat) : State :=
  let held := (keysAt p pa n).filter (fun k => thas (s.core core).dcache k)
  let t := s.forget core p pa n
  if keepCopy then (linesAt pa n).foldl (fun t a => if held.contains (lineKey p a) then t.setCore core ((t.core core).fill (lineKey p a) (t.homeLine p a)) else t) t else t

/-- A store piece (R144). -/
def State.storePiece (s : State) (core : Nat) (nc : Bool) (p : Piece) : State :=
  if p.place = .window then s.winWrite (p.pa - 2 ^ 40) p.n p.data
  else (s.storeHome p.place p.pa p.n p.data).afterStore core (!nc) p.place p.pa p.n

/-- FP32 addition and maximum of an atomic, lane by lane (R154). -/
def atomicFloat (isMax : Bool) (old y n : Nat) : Nat :=
  pack 32 (n / 4) (fun k =>
    let a := Fmt.f32.decode (lane old 32 k)
    let b := Fmt.f32.decode (lane y 32 k)
    if isMax then (fMinMax Fmt.f32 true a b).1 else (fAdd Fmt.f32 RNE a b).1)

/-- op(old, y) of an atomic of n bytes (R153); `c` is the compare value of ACAS. -/
def atomicVal (op n old y c : Nat) : Nat :=
  let w := 8 * n
  match op with
  | 0 => (old + y) % 2 ^ w
  | 1 => old &&& y
  | 2 => old ||| y
  | 3 => old ^^^ y
  | 4 => if sgn old w ≤ sgn y w then old else y
  | 5 => if sgn old w ≤ sgn y w then y else old
  | 6 => if old ≤ y then old else y
  | 7 => if old ≤ y then y else old
  | 8 => y
  | 9 => if old = c then y else old
  | 10 => atomicFloat false old y n
  | _ => atomicFloat true old y n

/-- An atomic at its home (R153): a failed ACAS writes nothing. Atomics that the reduction window lets the switches merge are performed one by
one, in the order of their pieces (R155, R379). [DESIGN CHOICE, log 67] -/
def State.atomicPiece (s : State) (core op n y c : Nat) (p : Piece) : Nat × State :=
  let old := s.readHome p.place p.pa n
  (old, (if op = 9 ∧ old ≠ c then s else s.storeHome p.place p.pa n (atomicVal op n old y c)).afterStore core false p.place p.pa n)

/-- Starts an access: it joins the accesses in flight, with the translation of its context. [DESIGN CHOICE, log 63] -/
def State.startAccess (s : State) (core : Nat) (a : Access) : State :=
  let c := s.core core
  s.setCore core { c with flight := c.flight ++ [{ a with id := c.nextId, trans := (s.ctx (8 * core + a.slot)).trans }], nextId := c.nextId + 1 }

/-- Drops an access. -/
def State.dropAccess (s : State) (core id : Nat) : State :=
  let c := s.core core
  s.setCore core { c with flight := c.flight.filter (fun a => a.id != id) }

/-- Replaces an access. -/
def State.setAccess (s : State) (core : Nat) (a : Access) : State :=
  let c := s.core core
  s.setCore core { c with flight := c.flight.map (fun e => if e.id = a.id then a else e) }

/-- Every piece has been performed. -/
def Access.complete (a : Access) : Bool := a.pieces.all (fun p => p.done)

/-- The bytes that an access's pieces hold, over `base`. -/
def Access.bytes (a : Access) (base : Nat) : Nat := a.pieces.foldl (fun v p => setFld v (8 * p.off) (8 * p.n) p.data) base

/-- Elements per block of a scaled format (R30). -/
def blkElems (fmt c : Nat) : Nat := if fmt = 6 ∨ fmt = 7 then 32 else 2 ^ (c + 3)
/-- Data bytes per block (R31). -/
def blkBytes (fmt c : Nat) : Nat := if fmt = 7 then 16 else blkElems fmt c
/-- Scale bytes per block (R31). -/
def blkScale (fmt : Nat) : Nat := if fmt = 6 ∨ fmt = 7 then 2 else 1
/-- The shift of the scale plane (R31). -/
def blkShift (fmt c : Nat) : Nat := match fmt with | 6 => 4 | 7 => 3 | _ => c + 3

/-- The value of element `k` of a converting access whose buffer holds the data bytes, and from `total` on the scale bytes (R32, R33);
none in a block marked NF. [DEDUCED, log 76] -/
def convElem (fmt c total buf k : Nat) : Option Num :=
  let b := k / blkElems fmt c
  let byte (i : Nat) : Nat := fld buf (8 * i) 8
  let e0 := byte (total + blkScale fmt * b)
  if e0 = 255 then none
  else if fmt = 6 then
    let x := byte k
    let e := if bitOf x 7 then byte (total + 2 * b + 1) else e0
    some (.fin (bitOf x 6) (fld x 0 6) (e - 132))
  else if fmt = 7 then
    let x := fld (byte (k / 2)) (4 * (k % 2)) 4
    let e := if bitOf x 3 then byte (total + 2 * b + 1) else e0
    some (.fin (bitOf x 2) (fld x 0 2) (e - 128))
  else if fmt = 8 then some ((Num.ofInt (sgn (byte k) 8)).scale ((e0 : Int) - 127))
  else some (((if fmt = 4 then Fmt.e4m3 else Fmt.e5m2).decode (byte k)).scale ((e0 : Int) - 127))

/-- The FP32 lanes of a converting load over the old lanes (R168), and the flags: `on` tells the active units. -/
def convLanes (on : Nat → Bool) (fmt c w buf old : Nat) : Nat × Nat :=
  let total := 32 * w / blkElems fmt c * blkBytes fmt c
  (List.range (32 * w)).foldr (fun k a =>
    let r : Nat × Nat := if on (k / w) then (match convElem fmt c total buf k with
      | none => (Fmt.canon .f32, 0)
      | some x => convert .f32 RNE 0 false x) else (lane old 32 k, 0)
    (r.1 % 2 ^ 32 + 2 ^ 32 * a.1, r.2 ||| a.2)) (0, 0)

/-- The registers that a completed access delivers to (R104). -/
def Access.regs (a : Access) : List Nat := match a.dest with
  | .gregs ws => ws.map (fun w => rg w.1)
  | .vregs d w => grp rv d w
  | .conv d w _ _ _ _ => grp rv d w
  | _ => []

/-- The result of a completed access; masked-off bytes of a vector group keep what the registers hold. -/
def Access.result (a : Access) (c : Ctx) : Result :=
  match a.dest with
  | .gregs ws =>
    let b := a.bytes 0
    { slot := a.slot, g := ws.map (fun w => (w.1, if w.2.2.2 then sext (fld b (8 * w.2.1) (8 * w.2.2.1)) (8 * w.2.2.1) else zext (fld b (8 * w.2.1) (8 * w.2.2.1)) (8 * w.2.2.1))) }
  | .vregs d w =>
    let b := a.bytes (c.getVs d w)
    { slot := a.slot, v := (List.range w).map (fun i => (d + i, BitVec.ofNat 1024 (fld b (1024 * i) 1024))) }
  | .conv d w fmt cc mask _ =>
    let r := convLanes (fun k => mask.getLsbD k) fmt cc w (a.bytes 0) (c.getVs d w)
    { slot := a.slot, v := (List.range w).map (fun i => (d + i, BitVec.ofNat 1024 (fld r.1 (1024 * i) 1024))), flags := r.2 }
  | _ => { slot := a.slot }

/-- A completed access leaves the accesses in flight and hands its result to writeback; one whose instruction waits for the bytes
stays until that instruction takes them. [DESIGN CHOICE, log 63] -/
def State.settle (s : State) (core : Nat) (a : Access) : State :=
  match a.dest with
  | .conv _ _ _ _ _ true => s.setAccess core a
  | .image _ => s.setAccess core a
  | .nowhere => s.dropAccess core a.id
  | _ =>
    let s := s.dropAccess core a.id
    let c := s.core core
    s.setCore core { c with results := c.results ++ [a.result (s.ctx (8 * core + a.slot))] }

/-- Puts the access back with its piece performed, or settles it when that was the last. -/
def State.performed (s : State) (core : Nat) (a : Access) : State := if a.complete then s.settle core a else s.setAccess core a

/-- The accumulator name that a failed TFILL has bound is unbound again (R213). -/
def State.unfill (s : State) (core : Nat) (a : Access) : State := match a.dest with
  | .image (some n) =>
    let k := 8 * core + a.slot
    match vget (s.ctx k).tc n none with
    | some p => (s.setCore core ((s.core core).setAcc p {})).setCtx k { s.ctx k with tc := (s.ctx k).tc.setIfInBounds n none }
    | none => s
  | _ => s

/-- An access fails at its home (R378, R390): it ends without a result, and its context takes ECC at its next instruction. [DESIGN CHOICE, log 27] -/
def State.failAccess (s : State) (core : Nat) (a : Access) (va : Word) : State :=
  let s := (s.dropAccess core a.id).unfill core a
  let k := 8 * core + a.slot
  let c := s.ctx k
  let c := c.marks false a.regs
  let mine := match c.wait with | .fe acc _ _ => acc == a.id | .access acc => acc == a.id | _ => false
  let c := if mine then { c with wait := .none, held := none } else c
  if c.occ = false then s
  else s.setCtx k { c with ecc := some { cause := 18, xaddr := va, xinfo := info 15 a.kind.code 0 } }

/-- The lines that a piece of an access touches: those of its bytes; of a record access, its header, and the sums of GACC (R76, R78). -/
def Access.lines (a : Access) (p : Piece) : List Nat := match a.kind with
  | .gacc _ => a.hdr :: linesAt (p.pa + 192) 256
  | .garr => [a.hdr]
  | .gstat => [a.hdr]
  | _ => linesAt p.pa p.n

/-- The address of a poisoned line that a piece meets (R351, R390), none without one. A store that covers the whole line does not meet it. A
record's header has its physical address. [DESIGN CHOICE, log 27] -/
def State.poisoned (s : State) (a : Access) (p : Piece) : Option Word :=
  if p.place ≠ .here ∨ s.poison = [] then none
  else
    let covered := if a.kind = .store then a.pieces.map (fun q => (q.place, q.pa, q.n)) else []
    ((a.lines p).find? (fun l => s.poison.contains (l / 64) && !coversLine covered l)).map (fun l =>
      w64 (if a.kind.record ∧ l = a.hdr then l else lineVa p.va.toNat p.pa l))

/-- Clears the poison marks of the lines that lie wholly in [pa, pa + n) (R390). -/
def State.clearPoison (s : State) (pa n : Nat) : State := { s with poison := s.poison.filter (fun l => decide (64 * l < pa) || decide (pa + n < 64 * l + 64)) }

/-- Clears the marks of the lines that writes cover whole (R390). -/
def State.heal (s : State) (covered : List (Place × Nat × Nat)) : State := { s with poison := s.poison.filter (fun l => !coversLine covered (64 * l)) }

/-- Clears the marks of the lines that the performed pieces of a store cover. -/
def State.healed (s : State) (a : Access) : State :=
  if a.kind = .store then s.heal ((a.pieces.filter (fun q => q.done)).map (fun q => (q.place, q.pa, q.n))) else s

/-- What one piece of an ordinary access or of a GSTAT does at its home (R144, R153, R159): the bytes it returns, and the state after. -/
def State.pieceEffect (s : State) (core : Nat) (a : Access) (p : Piece) : Nat × State := match a.kind with
  | .load => s.loadPiece core a.nc p
  | .store => (0, s.storePiece core a.nc p)
  | .atomic op n y c => s.atomicPiece core op n y c p
  | .gstat => (s.readHome .here a.hdr 64, s.forget core .here a.hdr 64)
  | _ => (0, s)

/-- One piece of an ordinary access or of a GSTAT is performed at its home (R141, R144, R159). [DESIGN CHOICE, log 63] -/
def State.performPiece (s : State) (core : Nat) (a : Access) (i : Nat) (p : Piece) : State :=
  match s.poisoned a p with
  | some va => s.failAccess core a va
  | none =>
    let r := (if a.ord = 1 ∨ a.ord = 3 then s.acquire core a.scope else s).pieceEffect core a p
    let a := { a with pieces := a.pieces.set i { p with done := true, data := r.1 } }
    (r.2.healed a).performed core a

/-- Is the access of the kind whose pieces PIER_ACCESS performs? -/
def AccKind.ordinary (k : AccKind) : Bool := match k with
  | .load => true
  | .store => true
  | .atomic _ _ _ _ => true
  | .gstat => true
  | _ => false

/-- The access with a number, and one of its pieces. -/
def State.findPiece (s : State) (core id i : Nat) : Option (Access × Piece) :=
  match (s.core core).flight.find? (fun a => a.id == id) with
  | none => none
  | some a => (a.pieces[i]?).map (fun p => (a, p))

/-- PIER_ACCESS (R141): a piece is performed when nothing holds it back. [DESIGN CHOICE, log 63] -/
def execPierAccess (core id i : Nat) (s : State) :=
  event true (fun s => match s.findPiece core id i with
    | none => s
    | some (a, p) => if a.kind.ordinary && s.pieceReady core a p then s.performPiece core a i p else s) s

/-- RESULT_WRITEBACK (R104, R45): the n-th result on its way in a core is written, its flags are delivered, its pending bits clear. -/
def execResultWriteback (core n : Nat) (s : State) :=
  event true (fun s =>
    let c := s.core core
    match c.results[n]? with
    | none => s
    | some r =>
      let s := s.setCore core { c with results := c.results.eraseIdx n }
      let k := 8 * core + r.slot
      let x := s.ctx k
      let x := r.g.foldl (fun x e => x.setG e.1 e.2) x
      let x := r.v.foldl (fun x e => x.setV e.1 e.2) x
      let x := r.p.foldl (fun x e => x.setP e.1 e.2) x
      let x := r.vm.foldl (fun x e => x.setVm e.1 e.2) x
      let x := x.marks false (r.g.map (fun e => rg e.1) ++ r.v.map (fun e => rv e.1) ++ r.p.map (fun e => rp e.1) ++ r.vm.map (fun e => rm e.1))
      s.setCtx k (x.addFlags r.flags)) s

/-- DCACHE_LINE_EXPIRY (R144). [DESIGN CHOICE, log 10; DESIGN CHOICE, log 32] -/
def execDcacheLineExpiry (core line : Nat) (s : State) :=
  event true (fun s => let c := s.core core; s.setCore core { c with dcache := tdel c.dcache line }) s

/-- CLUSTER_CACHE_LINE_EXPIRY (R282): a line that is homed elsewhere. [DESIGN CHOICE, log 10; DESIGN CHOICE, log 32] -/
def execClusterCacheLineExpiry (cluster line : Nat) (s : State) :=
  event true (fun s =>
    let c := s.cluster cluster
    s.setCluster cluster { c with cache := c.cache.filter (fun e => e.1 != line || homeKey e.1) }) s

/-- Has a remote piece that is not performed waited 10^5 ticks since its port lost the peer, while it was outstanding or before (R378)? [DESIGN CHOICE, log 27] -/
def State.linkLost (s : State) (p : Piece) : Bool :=
  !p.done && (match p.place with
    | .remote d => match p.lost with
      | some t => decide (t + 100000 ≤ s.tick)
      | none => (s.portTo d p.pa).any (fun n => !s.portUp n && decide ((s.port n).since + 100000 ≤ s.tick))
    | _ => false)

/-- A failed store or atomic may or may not have been performed at the remote home (R378): a free value decides for each of its pieces that had been sent
when its port lost the peer. One that something held back had not (R145). [DESIGN CHOICE, log 27] -/
def State.perhaps (s : State) (core : Nat) (a : Access) (p : Piece) : State :=
  if a.kind.stores = false ∨ p.lost.isNone = true ∨ s.linkLost p = false then s
  else
    let t := s.fresh
    if (Config.openWord s.freeNo).getLsbD 0 then (t.pieceEffect core a p).2 else t

/-- REMOTE_ACCESS_TIMEOUT (R378): an outstanding remote access whose port lost its peer 10^5 ticks ago is answered as failed. -/
def execRemoteAccessTimeout (core id : Nat) (s : State) :=
  event true (fun s => match (s.core core).flight.find? (fun a => a.id == id) with
    | none => s
    | some a => match a.pieces.find? s.linkLost with
      | some p => (a.pieces.foldl (fun t q => t.perhaps core a q) s).failAccess core a p.va
      | none => s) s

/-- Does [pa, pa + n) take in a part of a poisoned line (R390)? -/
def State.poisonedPart (s : State) (pa n : Nat) : Bool :=
  s.poison.any (fun l => decide (64 * l < pa + n) && decide (pa < 64 * l + 64) && (decide (64 * l < pa) || decide (pa + n < 64 * l + 64)))

/-- REMOTE_ACCESS_ARRIVAL (R155): an access of another device at its home here, held while its block is BUSY (R81). -/
def execRemoteAccessArrival (pa : Nat) (req : RemoteReq) (s : State) :=
  let n := match req with | .read n => n | .write n _ => n | .atomic _ n _ _ => n
  event (decide (pa + n ≤ 0x8000000000) && !s.blockBusy pa n && !s.poisonedPart pa n) (fun s => match req with
    | .read _ => s
    | .write n v => (s.storeHome .here pa n v).clearPoison pa n
    | .atomic op n y c =>
      let old := s.readHome .here pa n
      if op = 9 ∧ old ≠ c then s else s.storeHome .here pa n (atomicVal op n old y c)) s

/-- HOST_ACCESS (R376): a host read or write through BAR2, at the base in `pcib2`, held while it meets a block that is BUSY (R81). -/
def execHostAccess (off len : Nat) (data : Option Nat) (s : State) :=
  let pa := fld s.regs.pcib2.toNat 36 20 * 2 ^ 36 + off
  event (decide (off + len ≤ 2 ^ 36) && decide (pa + len ≤ 0x8000000000) && !s.blockBusy pa len && !s.poisonedPart pa len) (fun s => match data with
    | none => s
    | some v => (s.storeHome .here pa len v).clearPoison pa len) s

end Sys2Proof.Machine
end

