-- ==== Sys2Proof/Machine/Memory.lean ====
section
/-! DEFINITION. Loads, stores, full/empty forms, PST2, PREF, fences, atomics and record instructions of pages 0, 2 and 3, as they issue
(R137 to R160). The piers perform them in Access, FullEmpty and Records. -/

namespace Sys2Proof.Machine

open Sys2Proof

/-- Order, scope and bit 0 of class Memory (R98); the default is that of the entry. -/
def ordOf (o : Ops) (dflt : Nat) : Nat := fld (o.clsOr dflt) 4 2
def scopeOf (o : Ops) (dflt : Nat) : Nat := fld (o.clsOr dflt) 1 3
def bit0Of (o : Ops) (dflt : Nat) : Bool := bitOf (o.clsOr dflt) 0

/-- Destination registers of a load of w registers of n bytes; `g0` takes nothing and is not pending (R143). -/
def loadDest (d w n : Nat) (signed : Bool) : Dest :=
  match ((List.range w).map (fun i => (d + i, n * i, n, signed))).filter (fun e => e.1 != 0) with
  | [] => .nowhere
  | ws => .gregs ws

/-- A load of w registers of n bytes (R143). -/
def loadOp (i : Instr) (o : Ops) (w n : Nat) (signed : Bool) (s : State) : Host.Outcome State Fault Refusal :=
  issue i o (grp rg o.dNum w ++ addrRegs o) (fun s =>
    match s.check .load (cutLdSt (effAddr o s.cx) (w * n)) with
    | .error t => .trap t
    | .ok es =>
      let a : Access := { id := 0, slot := s.cur % 8, kind := .load, ord := ordOf o 6, scope := scopeOf o 6, nc := bit0Of o 6, pieces := es.map pieceOf, dest := loadDest o.dNum w n signed }
      .done ((s.setCx (s.cx.marks true a.regs)).startAccess s.coreNo a)) s

/-- The data of a piece of a store: the bytes of `v` at its offset. -/
def withData (v : Nat) (p : Piece) : Piece := { p with data := fld v (8 * p.off) (8 * p.n) }

/-- A group of w general registers as one number. -/
def Ctx.getGs (c : Ctx) (d : Nat) : Nat → Nat
  | 0 => 0
  | w + 1 => (c.getG d).toNat + 2 ^ 64 * c.getGs (d + 1) w

/-- A store of n bytes from w registers (R143): the registers are read at issue. -/
def storeOp (i : Instr) (o : Ops) (w n : Nat) (s : State) : Host.Outcome State Fault Refusal :=
  issue i o (grp rg o.dNum w ++ addrRegs o) (fun s =>
    match s.check .store (cutLdSt (effAddr o s.cx) n) with
    | .error t => .trap t
    | .ok es =>
      let v := s.cx.getGs o.dNum w
      .done (s.startAccess s.coreNo { id := 0, slot := s.cur % 8, kind := .store, ord := ordOf o 6, scope := scopeOf o 6, nc := bit0Of o 6, pieces := es.map (fun e => withData v (pieceOf e)) })) s

/-- LD (R143). -/
def execLd (o : Ops) (s : State) := loadOp (.ld o) o (groupSize o) 8 false s
/-- LD.i8 (R143). -/
def execLdI8 (o : Ops) (s : State) := loadOp (.ldI8 o) o 1 1 true s
/-- LD.n8 (R143). -/
def execLdN8 (o : Ops) (s : State) := loadOp (.ldN8 o) o 1 1 false s
/-- LD.i16 (R143). -/
def execLdI16 (o : Ops) (s : State) := loadOp (.ldI16 o) o 1 2 true s
/-- LD.n16 (R143). -/
def execLdN16 (o : Ops) (s : State) := loadOp (.ldN16 o) o 1 2 false s
/-- LD.i32 (R143). -/
def execLdI32 (o : Ops) (s : State) := loadOp (.ldI32 o) o 1 4 true s
/-- LD.n32 (R143). -/
def execLdN32 (o : Ops) (s : State) := loadOp (.ldN32 o) o 1 4 false s
/-- ST (R143). -/
def execSt (o : Ops) (s : State) := storeOp (.st o) o (groupSize o) (8 * groupSize o) s
/-- ST.8 (R143). -/
def execSt8 (o : Ops) (s : State) := storeOp (.st8 o) o 1 1 s
/-- ST.16 (R143). -/
def execSt16 (o : Ops) (s : State) := storeOp (.st16 o) o 1 2 s
/-- ST.32 (R143). -/
def execSt32 (o : Ops) (s : State) := storeOp (.st32 o) o 1 4 s

/-- The checks of an L-memory access of n bytes, aligned to n (R139, R146): ALIGN, then PROT for a byte outside L-memory. -/
def lmemTrap (ea : Int) (n : Nat) : Option Trap :=
  if ea % n ≠ 0 then some (trapAt 3 (wrap ea 64) (info 15 9 0))
  else if ea < 0 then some (localTrap (wrap ea 64) 4)
  else if (0x18000 : Int) < ea + n then some (localTrap (max ea.toNat 0x18000) 4)
  else none

/-- LDL (R146): the value is read in issue order; it stalls while a scoreboard entry covers it (R22). -/
def execLdl (o : Ops) (s : State) :=
  let w := groupSize o
  issue (.ldl o) o (grp rg o.dNum w ++ addrRegs o) (fun s =>
    let ea := effLocal o s.cx
    match lmemTrap ea (8 * w) with
    | some t => .trap t
    | none =>
      let a := ea.toNat
      if s.co.busy 2 a (a + 8 * w) then .stall
      else .done (pendResult { slot := 0, g := (List.range w).map (fun i => (o.dNum + i, BitVec.ofNat 64 (mread s.co.lmem (a + 8 * i) 8))) } (grp rg o.dNum w) s)) s

/-- STL (R146): a write into a retained range traps PROT. -/
def execStl (o : Ops) (s : State) :=
  let w := groupSize o
  issue (.stl o) o (grp rg o.dNum w ++ addrRegs o) (fun s =>
    let ea := effLocal o s.cx
    match lmemTrap ea (8 * w) with
    | some t => .trap t
    | none =>
      let a := ea.toNat
      match (List.range (8 * w)).find? (fun i => s.co.retained (a + i) (a + i + 1)) with
      | some i => .trap (localTrap (a + i) 5)
      | none =>
        if s.co.busy 2 a (a + 8 * w) then .stall
        else .done (s.setCo { s.co with lmem := mwrite s.co.lmem a (8 * w) (s.cx.getGs o.dNum w) })) s

/-- A full/empty form (R65, R139, R147). The waiting forms hold their context until the pier has performed them. -/
def feOp (i : Instr) (o : Ops) (form : FeForm) (dflt : Nat) (s : State) : Host.Outcome State Fault Refusal :=
  let waiting := (AccKind.fe form).waits
  let k : Kind := match form with | .ldw => .feRead | .feget => .feRead | .ste => .feWrite | .feset => .feWrite | _ => .feRmw
  issue i o (rg o.dNum :: addrRegs o) (fun s =>
    if s.cx.wait ≠ .none then .stall
    else if waiting = true ∧ s.atCheckpoint = false then .trap s.ckTrap
    else
      let ea := effAddr o s.cx
      if ea % 8 ≠ 0 then .trap (trapAt 3 (wrap ea 64) (info 15 4 0))
      else match s.check k [{ off := 0, va := ea, n := 8 }] with
        | .error t => .trap t
        | .ok es =>
          let leaf := match es with | e :: _ => e.2.leaf | [] => 0
          let dest := if form = .ldw ∨ form = .ldc ∨ form = .feget then loadDest o.dNum 1 8 false else .nowhere
          let a : Access := { id := 0, slot := s.cur % 8, kind := .fe form, ord := ordOf o dflt, scope := scopeOf o dflt, pieces := es.map (fun e => withData (s.cx.getG o.dNum).toNat (pieceOf e)), dest, leaf }
          let id := s.co.nextId
          if waiting then .hold (.fe id 0 .evaluating) (s.startAccess s.coreNo a)
          else .done ((s.setCx (s.cx.marks true a.regs)).startAccess s.coreNo a)) s

/-- LDW (R147). -/
def execLdw (o : Ops) (s : State) := feOp (.ldw o) o .ldw 22 s
/-- LDC (R147). -/
def execLdc (o : Ops) (s : State) := feOp (.ldc o) o .ldc 22 s
/-- STF (R147). -/
def execStf (o : Ops) (s : State) := feOp (.stf o) o .stf 38 s
/-- STE (R147). -/
def execSte (o : Ops) (s : State) := feOp (.ste o) o .ste 6 s
/-- FEGET (R147). -/
def execFeget (o : Ops) (s : State) := feOp (.feget o) o .feget 6 s
/-- FESET (R147). -/
def execFeset (o : Ops) (s : State) := feOp (.feset o) o .feset 6 s

/-- PST2 (R87, R149): the pier's job holds the context until both fills; its words are the aligned ones that hold the first bytes. Of two misaligned addresses the first operand's is reported. [DEDUCED, log 26; DESIGN CHOICE, log 97] -/
def execPst2 (o : Ops) (s : State) :=
  issue (.pst2 o) o [rg o.aNum, rg o.bNum, rg o.dNum, rg (o.dNum + 1)] (fun s =>
    if s.cx.wait ≠ .none then .stall
    else
      let a := fld (s.cx.getG o.aNum).toNat 0 56
      let b := fld (s.cx.getG o.bNum).toNat 0 56
      if a % 8 ≠ 0 then .trap (trapAt 3 a (info 15 4 0))
      else if b % 8 ≠ 0 then .trap (trapAt 3 b (info 15 4 0))
      else match s.check .feRmw [{ off := 0, va := a, n := 8 }, { off := 8, va := b, n := 8 }] with
        | .error t => .trap t
        | .ok es =>
          if s.releaseReady s.coreNo (s.cur % 8) = false then .stall
          else
            let v := s.cx.getGs o.dNum 2
            let ws := es.map (fun e => (e.2.pa, fld v (8 * e.1.off) 64))
            let words := match ws.map (fun e => e.1 / 8 * 8) with
              | [x, y] => if x = y then [x] else if x < y then [x, y] else [y, x]
              | l => l
            let j : Job := { kind := .pst2 s.coreNo (s.cur % 8) ws, words, dc := s.cx.dc }
            .hold (.pst2 s.nextJob) { s with jobs := tset s.jobs s.nextJob j, nextJob := s.nextJob + 1 }) s

/-- PREF (R150): the line goes into the caches; a prefetch that would trap is dropped. So is one of a block that
is BUSY, whose line nothing reads before the commit ends (R81). [DEDUCED, log 25] -/
def execPref (o : Ops) (s : State) :=
  issue (.pref o) o (addrRegs o) (fun s =>
    let ea := effAddr o s.cx
    match s.check .load [{ off := 0, va := ea, n := 1 }] with
    | .error _ => .done s
    | .ok es => match es with
      | [] => .done s
      | e :: _ =>
        if e.2.c = false ∨ e.2.place = .window ∨ (e.2.place = .here ∧ s.blockBusy (e.2.pa / 64 * 64) 64 = true) then .done s
        else
          let r := s.clusterLine (s.coreNo / 32) e.2.place e.2.pa
          if bit0Of o 0 then .done r.2
          else
            let key := lineKey e.2.place e.2.pa
            if thas r.2.co.dcache key then .done r.2 else .done (r.2.setCo (r.2.co.fill key r.1))) s

/-- FENCE (R151): an acquire waits for the earlier accesses that read, a release for all. [DESIGN CHOICE, log 9] -/
def execFence (o : Ops) (s : State) :=
  issue (.fence o) o [] (fun s =>
    let k := ordOf o 6
    let sc := scopeOf o 6
    if s.co.flight.any (fun a => a.slot == s.cur % 8 && (k != 1 || a.kind.reads)) then .stall
    else
      let s := if k = 2 then s else s.acquire s.coreNo sc
      .done (if k = 0 then { s with scOrder := s.scOrder + 1 } else s)) s

/-- FENCEX (R152). -/
def execFencex (o : Ops) (s : State) :=
  issue (.fencex o) o [] (fun s =>
    let k := fld (o.clsOr 48) 4 2
    if (k = 1 ∨ k = 3) ∧ s.performedAll s.coreNo (s.cur % 8) = false then .stall
    else .done (if k = 1 then s else s.setCo { s.co with dcache := [] })) s

/-- An atomic (R153): a naturally aligned n at the plain base. -/
def atomicOp (i : Instr) (o : Ops) (op : Nat) (s : State) : Host.Outcome State Fault Refusal :=
  let n := if bit0Of o 6 then 4 else 8
  issue i o ([rg o.dNum, rg o.aNum, rg o.bNum] ++ (if op = 9 then [rg (o.bNum + 1)] else [])) (fun s =>
    let ea := fld (s.cx.getG o.aNum).toNat 0 56
    if ea % n ≠ 0 then .trap (trapAt 3 ea (info 15 3 0))
    else match s.check (.atomic op) [{ off := 0, va := ea, n }] with
      | .error t => .trap t
      | .ok es =>
        let b := fld (s.cx.getG o.bNum).toNat 0 (8 * n)
        let y := if op = 9 then fld (s.cx.getG (o.bNum + 1)).toNat 0 (8 * n) else b
        let a : Access := { id := 0, slot := s.cur % 8, kind := .atomic op n y b, ord := ordOf o 6, scope := scopeOf o 6, pieces := es.map pieceOf, dest := loadDest o.dNum 1 n false }
        .done ((s.setCx (s.cx.marks true a.regs)).startAccess s.coreNo a)) s

/-- AADD (R153). -/
def execAadd (o : Ops) (s : State) := atomicOp (.aadd o) o 0 s
/-- AAND (R153). -/
def execAand (o : Ops) (s : State) := atomicOp (.aand o) o 1 s
/-- AOR (R153). -/
def execAor (o : Ops) (s : State) := atomicOp (.aor o) o 2 s
/-- AXOR (R153). -/
def execAxor (o : Ops) (s : State) := atomicOp (.axor o) o 3 s
/-- AMIN (R153). -/
def execAmin (o : Ops) (s : State) := atomicOp (.amin o) o 4 s
/-- AMAX (R153). -/
def execAmax (o : Ops) (s : State) := atomicOp (.amax o) o 5 s
/-- AMINN (R153). -/
def execAminn (o : Ops) (s : State) := atomicOp (.aminn o) o 6 s
/-- AMAXN (R153). -/
def execAmaxn (o : Ops) (s : State) := atomicOp (.amaxn o) o 7 s
/-- ASWP (R153). -/
def execAswp (o : Ops) (s : State) := atomicOp (.aswp o) o 8 s
/-- ACAS (R153). -/
def execAcas (o : Ops) (s : State) := atomicOp (.acas o) o 9 s
/-- AFADD (R154). -/
def execAfadd (o : Ops) (s : State) := atomicOp (.afadd o) o 10 s
/-- AFMAX (R154). -/
def execAfmax (o : Ops) (s : State) := atomicOp (.afmax o) o 11 s

/-- The checks of a record instruction (R139, R140): ALIGN at 512, then the page class, then a header line that is poisoned (R390); the
block's physical address and its header's (R76). [DESIGN CHOICE, log 27; DESIGN CHOICE, log 98] -/
def State.recordBlock (s : State) (va : Nat) : Except Trap (Phys × Nat) :=
  if va % 512 ≠ 0 then .error (trapAt 3 va (info 15 5 0))
  else match s.check .record [{ off := 0, va, n := 512 }] with
    | .error t => .error t
    | .ok es => match es with
      | e :: _ =>
        let hdr := e.2.hdrBase + 64 * ((globalVa s.cx.trans va - e.2.base) / 512)
        if s.poison.contains (hdr / 64) then .error (trapAt 18 hdr (info e.2.lev 5 0)) else .ok (e.2, hdr)
      | [] => .error (trapAt 9 va 1)

/-- The issuing core's copies of the lines of a block and of its header are gone (R144). -/
def State.dropBlock (s : State) (core pa hdr : Nat) : State := (s.forget core .here pa 512).forget core .here hdr 64

/-- The piece of a record access: the first n bytes of its block. -/
def blockPiece (va : Nat) (p : Phys) (n : Nat) : Piece := { va := BitVec.ofNat 64 va, place := .here, pa := p.pa, n, page := p.page }

/-- GACC (R156): lanes and mask are read at issue. -/
def execGacc (o : Ops) (s : State) :=
  issue (.gacc o) o [rg o.aNum, rv o.bNum, rm o.dNum] (fun s =>
    let va := fld (s.cx.getG o.aNum).toNat 0 56
    match s.recordBlock va with
    | .error t => .trap t
    | .ok (p, hdr) =>
      let x := (s.cx.getV o.bNum).toNat
      let m := s.cx.getVm o.dNum
      let lanes := (List.range 16).map (fun j => if m.getLsbD j then some (lane x 32 j) else none)
      .done (s.startAccess s.coreNo { id := 0, slot := s.cur % 8, kind := .gacc lanes, pieces := [blockPiece va p 512], hdr })) s

/-- GARR (R157): the release actions, then the arrival; the pier's answer ends the wait. -/
def execGarr (o : Ops) (s : State) :=
  issue (.garr o) o [rg o.aNum] (fun s =>
    if s.cx.wait ≠ .none then .stall
    else
      let va := fld (s.cx.getG o.aNum).toNat 0 56
      match s.recordBlock va with
      | .error t => .trap t
      | .ok (p, hdr) =>
        if s.releaseReady s.coreNo (s.cur % 8) = false then .stall
        else
          let id := s.co.nextId
          .hold (.access id) (s.startAccess s.coreNo { id := 0, slot := s.cur % 8, kind := .garr, ord := 2, pieces := [blockPiece va p 512], hdr })) s

/-- The physical base of a working-copy span, when it lies in one page, or in the heap range, that the context may store to in this device's HBM5 (R79): every
byte of it translates there by R23. [DEDUCED, log 60] -/
def State.spanBase (s : State) (ptr stride : Nat) : Option Nat :=
  let t := s.cx.trans
  let g := globalVa t ptr
  let len := 15 * stride + 2
  let inHeap := t.hbase ≤ g ∧ g < t.hbase + t.hlimit
  if 2 ^ 56 < ptr + len ∨ (ptr < privStart ∧ privStart < ptr + len) ∨ 2 ^ 56 < g + len ∨ (¬ inHeap ∧ g < t.hbase ∧ t.hbase < g + len ∧ 0 < t.hlimit) then none
  else match s.xlate s.coreNo t ptr with
  | .ok p =>
    if p.place = .here ∧ p.ro = false ∧ p.pr = false ∧ p.rh = false ∧ (t.super = true ∨ p.sup = false) ∧ g + len ≤ p.base + p.size
        ∧ p.pa + len ≤ 0x8000000000 then some p.pa else none
  | _ => none

/-- The words 3 and 4 of a header as GARM leaves them (R77): word 4 keeps `step` unless RS is set. [DEDUCED, log 60] -/
def armWord3 (cfg : Nat) : Nat :=
  fld cfg 0 16 * 2 ^ 16 + fld cfg 16 8 * 2 ^ 32 + fld cfg 24 4 * 2 ^ 40 + b2n (fld cfg 0 16 != 0) * 2 ^ 48
def armWord4 (cfg old : Nat) : Nat := if bitOf cfg 28 then 0 else fld old 0 32

/-- GARM (R79, R158): it waits while the block is BUSY and until the context's earlier accesses are performed. [DEDUCED, log 26] -/
def execGarm (o : Ops) (s : State) :=
  issue (.garm o) o [rg o.aNum, rg o.bNum] (fun s =>
    let va := fld (s.cx.getG o.aNum).toNat 0 56
    match s.recordBlock va with
    | .error t => .trap t
    | .ok (p, hdr) =>
      if s.blockBusy p.pa 512 = true ∨ s.releaseReady s.coreNo (s.cur % 8) = false then .stall
      else
        let pptr := fld (s.rd hdr 8) 0 56
        let tptr := fld (s.rd (hdr + 8) 8) 0 56
        let pst := s.rd (hdr + 16) 4
        let tst := s.rd (hdr + 20) 4
        if pptr % 2 ≠ 0 ∨ tptr % 2 ≠ 0 ∨ pst % 2 ≠ 0 ∨ tst % 2 ≠ 0 then .trap (trapAt 3 va (info 15 5 0))
        else match s.spanBase pptr pst, s.spanBase tptr tst with
          | some pb, some tb =>
            let cfg := (s.cx.getG o.bNum).toNat
            let s := s.pierWrite (hdr + 24) 8 (armWord3 cfg)
            let s := s.pierWrite (hdr + 32) 8 (armWord4 cfg (s.rd (hdr + 32) 8))
            let s := (List.range 3).foldl (fun s i => s.pierWrite (hdr + 40 + 8 * i) 8 0) s
            let s := (List.range 32).foldl (fun s i => s.pierWrite (p.pa + 192 + 8 * i) 8 0) s
            let s := (s.clearPoison (p.pa + 192) 256).dropBlock s.coreNo p.pa hdr
            .done { s with armed := if fld cfg 0 16 = 0 then tdel s.armed p.pa else tset s.armed p.pa { hdr, pbase := pb, tbase := tb, pstride := pst, tstride := tst, dc := s.cx.dc } }
          | _, _ => .trap (trapAt 9 va 3)) s

/-- GSTAT (R159): bits 511:0 of the destination take the header, the rest 0. -/
def execGstat (o : Ops) (s : State) :=
  issue (.gstat o) o [rg o.aNum, rv o.dNum] (fun s =>
    let va := fld (s.cx.getG o.aNum).toNat 0 56
    match s.recordBlock va with
    | .error t => .trap t
    | .ok (p, hdr) =>
      let a : Access := { id := 0, slot := s.cur % 8, kind := .gstat, ord := ordOf o 6, scope := scopeOf o 6, pieces := [blockPiece va p 128], dest := .vregs o.dNum 1, hdr }
      .done ((s.setCx (s.cx.marks true a.regs)).startAccess s.coreNo a)) s

end Sys2Proof.Machine
end

