-- ==== Sys2Proof/Machine/MatrixCore.lean ====
section
/-! DEFINITION. The matrix slice's data: `mctl` fields, operand elements, norm tables, the exact products of MMA and MSP24, and the
sampled product of MSAMP (R27, R42, R48 to R61, R194, R199 to R202, R207 to R209). -/

namespace Sys2Proof.Machine

open Sys2Proof

/-- A field of `mctl` (R194). -/
def mf (m : BitVec 128) (lo n : Nat) : Nat := fld m.toNat lo n

def mN (m : BitVec 128) : Nat := mf m 0 6
def mM (m : BitVec 128) : Nat := mf m 6 6
def mLen (m : BitVec 128) : Nat := mf m 32 5
def mFmt (m : BitVec 128) : Nat := mf m 39 3
def mScl (m : BitVec 128) : Bool := bitOf m.toNat 42
def mSofs (m : BitVec 128) : Nat := mf m 43 5
def mGang (m : BitVec 128) : Nat := mf m 56 8

/-- Bytes per element, doubled, and cycles per slice (R59, R207). -/
def mCycles (m : BitVec 128) : Nat := match mFmt m with | 2 => 8 | 3 => 8 | 7 => 2 | _ => 4

/-- Does an element format take scales from S-memory? -/
def mScaled (m : BitVec 128) : Bool := mScl m || decide (6 ≤ mFmt m)

/-- A value of `mctl` that is not accepted (R195). -/
def mctlBad (core x : Nat) : Bool :=
  let m : BitVec 128 := BitVec.ofNat 128 x
  decide (mFmt m < 2) || decide (16 < mLen m) || decide (32 < mM m) || decide (32 < mN m)
  || (mScl m && mFmt m != 4 && mFmt m != 5) || (mGang m != 0 && !bitOf (mGang m) (core % 8))

/-- `mctl` without its reserved bits (R6, R194). -/
def mctlOf (x : Nat) : BitVec 128 := BitVec.ofNat 128 (setFld (setFld (x % 2 ^ 96) 37 2 0) 12 15 0)

/-- The canonical NaN as a number. -/
def nanNum : Num := .nan false (2 ^ 30) false

/-- An element scaled by a block's exponent byte (R32). -/
def scaleBy (e : Nat) (x : Num) : Num := if e = 0xFF then nanNum else x.scale ((e : Int) - 127)

/-- A DB8 or DB4 element under its exponent pair (R33). -/
def db8 (e0 e1 x : Nat) : Num :=
  if e0 = 0xFF then nanNum else .fin (bitOf x 6) (fld x 0 6) ((if bitOf x 7 then (e1 : Int) else e0) - 127 - 5)
def db4 (e0 e1 x : Nat) : Num :=
  if e0 = 0xFF then nanNum else .fin (bitOf x 2) (fld x 0 2) ((if bitOf x 3 then (e1 : Int) else e0) - 127 - 1)

/-- An element of an operand format from its bits and its block's scale bytes (R199). -/
def element (m : BitVec 128) (e0 e1 x : Nat) : Num :=
  match mFmt m with
  | 6 => db8 e0 e1 x
  | 7 => db4 e0 e1 x
  | f => let v := (Fmt.ofCode f).decode x
    if mScl m then scaleBy e0 v else v

/-- The bits of an element at a byte position of a slot: 2 bytes, 1 byte, or half a byte. -/
def slotBits (b : Mem) (at_ n : Nat) : Nat := mread b at_ n

/-- A(row, k) of a slot's tile, k below 64 (R48, R199, R200). -/
def elemA (c : Core) (m : BitVec 128) (slot pos row k : Nat) : Num :=
  let base := 4096 * slot + 512 * (k / 8)
  let x := match mFmt m with
    | 2 => slotBits c.abuf (base + 16 * row + 2 * (k % 8)) 2
    | 3 => slotBits c.abuf (base + 16 * row + 2 * (k % 8)) 2
    | 7 => fld (slotBits c.abuf (base + 4 * row + k % 8 / 2) 1) (4 * (k % 2)) 4
    | _ => slotBits c.abuf (base + 8 * row + k % 8) 1
  let r := 256 * (mSofs m + pos) + 4 * row + 2 * (k / 32)
  element m (mread c.smem r 1) (mread c.smem (r + 1) 1) x

/-- B(k, column) of a slot's tile (R48, R199, R200). -/
def elemB (c : Core) (m : BitVec 128) (slot pos k col : Nat) : Num :=
  let base := 4096 * slot + 512 * (k / 8)
  let x := match mFmt m with
    | 2 => slotBits c.wbuf (base + 64 * (k % 8) + 2 * col) 2
    | 3 => slotBits c.wbuf (base + 64 * (k % 8) + 2 * col) 2
    | 7 => fld (slotBits c.wbuf (base + 16 * (k % 8) + col / 2) 1) (4 * (col % 2)) 4
    | _ => slotBits c.wbuf (base + 32 * (k % 8) + col) 1
  let r := 256 * (mSofs m + pos) + 128 + 4 * col + 2 * (k / 32)
  element m (mread c.smem r 1) (mread c.smem (r + 1) 1) x

/-- B′(k, column) of a compressed tile (R202): of two values with one index the later stands. [DEDUCED, log 85] -/
def elemSparse (c : Core) (m : BitVec 128) (slot k col : Nat) : Num :=
  let base := 4096 * slot
  let j := k / 8
  let two : Bool := mFmt m == 2 || mFmt m == 3
  let val (i : Nat) : Num := (Fmt.ofCode (mFmt m)).decode (if two then slotBits c.wbuf (base + 256 * j + 64 * i + 2 * col) 2 else slotBits c.wbuf (base + 128 * j + 32 * i + col) 1)
  let idx := mread c.wbuf (base + 2048 + 32 * j + col) 1
  let i := 2 * (k % 8 / 4)
  if fld idx (2 * i + 2) 2 = k % 4 then val (i + 1) else if fld idx (2 * i) 2 = k % 4 then val i else .fin false 0 0

/-- The B element of an operation (R207): masked positions of `MMA.msk` are +0. -/
def opB (c : Core) (o : MatOp) (pos k col : Nat) : Num :=
  if o.op = 3 then elemSparse c o.mctl (o.tb + pos) k col
  else if o.op = 4 ∧ bitOf (mread c.smem (256 * (mSofs o.mctl + pos) + 4 * k + col / 8) 1) (col % 8) = false then .fin false 0 0
  else elemB c o.mctl (o.tb + pos) pos k col

/-- The eight elements of slice s of the A chain for a row, and of the B chain for a column. -/
def sliceA (lead : Core) (o : MatOp) (s row : Nat) : List Num := (List.range 8).map (fun k => elemA lead o.mctl (o.ta + s / 8) (s / 8) row (8 * (s % 8) + k))
def sliceB (c : Core) (o : MatOp) (s col : Nat) : List Num := (List.range 8).map (fun k => opB c o (s / 8) (8 * (s % 8) + k) col)

/-- The exact sum of the products of a slice, plus more terms (R42): products that are invalid make it a NaN. -/
def sliceSum (xs ys : List Num) (more : List Num) : Num × Nat :=
  let ps := (List.zipWith exactMul xs ys)
  let fl := ps.foldl (fun a p => a ||| p.2) 0
  if ps.any (fun p => p.2 != 0) then (nanNum, fl) else let t := exactSum RNE (ps.map (fun p => p.1) ++ more); (t.1, t.2 ||| fl)

/-- The operands of a slice in the order of R39. [DEDUCED, log 22] -/
def sliceOperands (xs ys : List Num) : List Num := (List.zipWith (fun x y => [x, y]) xs ys).flatten

/-- One slice added to the accumulator with one `RNE_A40` (R42). [DEDUCED, log 20] -/
def sliceStep (xs ys : List Num) (acc : Nat) : Nat × Nat :=
  let c := Fmt.a40.decode acc
  deliver Fmt.a40 RNE (sliceOperands xs ys ++ [c]) (sliceSum xs ys [c])

/-- The dense sum of R207 at one element over S slices, from a starting accumulator. -/
def denseAt (lead c : Core) (o : MatOp) (row col start : Nat) : Nat × Nat :=
  (List.range (8 * mLen o.mctl)).foldl (fun a s => let r := sliceStep (sliceA lead o s row) (sliceB c o s col) a.1; (r.1, a.2 ||| r.2)) (start, 0)

/-- A40 addition. [DEDUCED, log 86] -/
def add40 (a b : Nat) : Nat × Nat := fAdd Fmt.a40 RNE (Fmt.a40.decode a) (Fmt.a40.decode b)

/-- The active elements, row-major. -/
def active (m : BitVec 128) : List (Nat × Nat) := ((List.range (mM m)).map (fun x => (List.range (mN m)).map (fun y => (x, y)))).flatten

/-- An element of an accumulator (R27). -/
def Acc.get (a : Acc) (x y : Nat) : Nat := fld a.el.toNat (40 * (32 * x + y)) 40

/-- Writes elements of an accumulator. -/
def Acc.put (a : Acc) (es : List ((Nat × Nat) × Nat)) : Acc :=
  { a with el := es.foldl (fun (b : BitVec 40960) e => BitVec.ofNat 40960 (setFld b.toNat (40 * (32 * e.1.1 + e.1.2)) 40 e.2)) a.el }

/-- `RN` of the `MSAMP` entry: FP32 operations in `.rne` on patterns. -/
def rn (x : Num) : Nat := pat Fmt.f32 x
def rnAdd (a b : Nat) : Nat := (fAdd Fmt.f32 RNE (Fmt.f32.decode a) (Fmt.f32.decode b)).1
def rnSub (a b : Nat) : Nat := (fSub Fmt.f32 RNE (Fmt.f32.decode a) (Fmt.f32.decode b)).1
def rnMul (a b : Nat) : Nat := (fMul Fmt.f32 RNE (Fmt.f32.decode a) (Fmt.f32.decode b)).1
def rnDiv (a b : Num) : Nat := (fDiv Fmt.f32 RNE a b).1
def rnSqrt (a : Nat) : Nat := (fSqrt Fmt.f32 RNE (Fmt.f32.decode a)).1

/-- A natural number as a number. -/
def natNum (n : Nat) : Num := .fin false n 0

/-- F of R208: the row-major RN-sum of the squares of the active elements, rounded to FP32. -/
def sumSquares (es : List Nat) : Nat := es.foldl (fun f x => let a := rn (Fmt.a40.decode x); rnAdd f (rnMul a a)) 0

/-- The norm table of a slot after reset (R50). -/
def normReset : BitVec 320 := BitVec.ofNat 320 (0xFF * 2 ^ 256)

/-- The norm table of a slot: A 0 to 31, W 32 to 95. -/
def Core.norm (c : Core) (n : Nat) : BitVec 320 := tget c.norms n normReset

/-- Buffer and base address of a slot. -/
def Core.slotMem (c : Core) (n : Nat) : Mem × Nat := if n < 32 then (c.abuf, 4096 * n) else (c.wbuf, 4096 * (n - 32))

/-- The squared norm of slice j of a slot in an unscaled format (R51). -/
def normSlice (b : Mem) (base fmt j : Nat) : Nat :=
  let w := if fmt ≤ 3 then 2 else 1
  let xs := (List.range 256).map (fun i => (Fmt.ofCode fmt).decode (mread b (base + 512 * j + w * i) w))
  if xs.any (fun x => x.isNan) then Fmt.f32.canon
  else (convert Fmt.f32 RNE 0 false (exactSum RNE (xs.map (fun x => (exactMul x x).1))).1).1

/-- Recomputes the slices of a list in a format (R51). -/
def Core.renorm (c : Core) (n fmt : Nat) (js : List Nat) : Core :=
  let mb := c.slotMem n
  let x := js.foldl (fun x j => setFld (setFld x (32 * j) 32 (normSlice mb.1 mb.2 fmt j)) (256 + j) 1 0) (c.norm n).toNat
  { c with norms := tset c.norms n (BitVec.ofNat 320 (setFld x 264 8 fmt)) }

/-- Marks slices stale. -/
def Core.stale (c : Core) (n : Nat) (js : List Nat) : Core :=
  { c with norms := tset c.norms n (BitVec.ofNat 320 (js.foldl (fun x j => setFld x (256 + j) 1 1) (c.norm n).toNat)) }

/-- The slices of a slot that an `MSAMP` in a format recomputes: the stale ones, or all when the table has another format (R51). -/
def Core.toRenorm (c : Core) (n fmt : Nat) : List Nat :=
  let x := (c.norm n).toNat
  if fld x 264 8 ≠ fmt then List.range 8 else (List.range 8).filter (fun j => bitOf x (256 + j))

/-- Brings a run of slots up to date: the core after, and how many slices were recomputed. -/
def Core.refresh (c : Core) (first len fmt : Nat) : Core × Nat :=
  (List.range len).foldl (fun r i => let js := r.1.toRenorm (first + i) fmt; (if js = [] then r.1 else r.1.renorm (first + i) fmt js, r.2 + js.length)) (c, 0)

/-- The norms of a chain of slots, one per slice. -/
def Core.chainNorms (c : Core) (first len : Nat) : List Nat := (List.range (8 * len)).map (fun s => fld (c.norm (first + s / 8)).toNat (32 * (s % 8)) 32)

/-- What a sampled product has come to before C is written (R208). -/
structure Sampled where
  /-- 0 empty, 1 sampled, 2 exact -/
  mode : Nat
  acc : List Nat := []
  fl : Nat := 0
  v : Nat := 0
  f : Nat := 0
  q : Nat := 0
  distinct : Nat := 0
  bigX : Bool := false
  bigN : Bool := false
  /-- its own V exceeds its limit -/
  exceeds : Bool := false
  deriving Repr

/-- The weights of the slices (R208); −0, from a restored norm, is 0 (R61). -/
def weights (o : MatOp) : List Nat := (List.zipWith (fun a b => rnSqrt (rnMul a b)) o.na o.nb).map (fun w => if w = 0x80000000 then 0 else w)

/-- floor(4095 · x) of a non-negative FP32 pattern. -/
def floor4095 (x : Nat) : Nat := match Fmt.f32.decode x with
  | .fin _ m e => if 0 ≤ e then 4095 * m * 2 ^ e.toNat else 4095 * m / 2 ^ (-e).toNat
  | _ => 0

/-- q[s] of R208. -/
def quantised (wmax w : Nat) : Nat := if w = 0 then 0 else max 1 (floor4095 (rnDiv (Fmt.f32.decode w) (Fmt.f32.decode wmax)))

/-- The largest of a list of non-negative FP32 patterns, which order as their values. -/
def largest (ws : List Nat) : Nat := ws.foldl max 0

/-- The smallest s whose running total passes t. -/
def pickSlice (t : Nat) : List Nat → Nat → Nat → Nat
  | [], _, s => s
  | q :: qs, run, s => if t < run + q then s else pickSlice t qs (run + q) (s + 1)

/-- One draw over the active elements (R208): the accumulators after, flags, and e_i. [DEDUCED, log 20] -/
def drawStep (lead c : Core) (o : MatOp) (si f g : Nat) (acc : List ((Nat × Nat) × Nat)) : List ((Nat × Nat) × Nat) × Nat × Nat :=
  acc.foldl (fun r e =>
    let xs := sliceA lead o si e.1.1
    let ys := sliceB c o si e.1.2
    let p := ((firstNan (sliceOperands xs ys)).getD (sliceSum xs ys [])).1
    let pf := (convert Fmt.a40 RNE 0 false (exactMul p (Fmt.f32.decode f)).1)
    let n := add40 e.2 pf.1
    let z := rnMul (rn p) g
    (r.1 ++ [(e.1, n.1)], r.2.1 ||| pf.2 ||| n.2, rnAdd r.2.2 (rnMul z z))) ([], 0, 0)

/-- The threshold RN(F · 4^−(L−1)) (R208). -/
def threshold (f l : Nat) : Nat := rn ((Fmt.f32.decode f).scale (-2 * ((l : Int) - 1)))

/-- The exact product over all slices from +0 (R207). -/
def exactAll (lead c : Core) (o : MatOp) : List Nat × Nat :=
  (active o.mctl).foldl (fun r e => let d := denseAt lead c o e.1 e.2 0; (r.1 ++ [d.1], r.2 ||| d.2)) ([], 0)

/-- The draws of a sampled product (R208). -/
def sampled (lead c : Core) (o : MatOp) (qs : List Nat) : Sampled :=
  let m := o.mctl
  let q := qs.foldl (· + ·) 0
  let b := o.b
  let start : List ((Nat × Nat) × Nat) := (active m).map (fun e => (e, 0))
  let r := (List.range b).foldl (fun (r : List ((Nat × Nat) × Nat) × Nat × Nat × List Nat) i =>
    let si := pickSlice (draw o.seed (mf m 64 32) i * q / 2 ^ 32) qs 0 0
    let qi := qs[si]?.getD 1
    let d := drawStep lead c o si (rnDiv (natNum q) (natNum (b * qi))) (rnDiv (natNum q) (natNum qi)) r.1
    (d.1, r.2.1 ||| d.2.1, rnAdd r.2.2.1 d.2.2, r.2.2.2 ++ [si])) (start, 0, 0, [])
  let acc := r.1.map (fun e => e.2)
  let f := sumSquares acc
  let v := if b = 1 then Fmt.f32.infPat else rnDiv (Fmt.f32.decode (rnSub r.2.2.1 (rnMul (rn (natNum b)) f))) (natNum (b * (b - 1)))
  let l := mf m 52 4
  let exceeds := l != 0 && (fCond 20 (Fmt.f32.decode v) (Fmt.f32.decode (threshold f l))).1
  { mode := 1, acc, fl := r.2.1, v, f, q, distinct := r.2.2.2.eraseDups.length, exceeds }

/-- The sampled product up to the test of its variance (R208). -/
def sample (lead c : Core) (o : MatOp) : Sampled :=
  let ws := weights o
  let bad := ws.any (fun w => match Fmt.f32.decode w with | .fin _ _ _ => false | _ => true)
  let exact (n : Bool) : Sampled :=
    let e := exactAll lead c o
    { mode := 2, acc := e.1, fl := e.2, f := sumSquares e.1, bigX := true, bigN := n }
  if mLen o.mctl = 0 then { mode := 0 }
  else if bad then exact true
  else if largest ws = 0 then { mode := 0 }
  else
    let qs := ws.map (quantised (largest ws))
    if (qs.filter (· != 0)).length ≤ o.b then exact false else sampled lead c o qs

/-- The fields of a header (R57). -/
def header (o : MatOp) (fl : Nat) : Nat :=
  fl % 32 * 2 ^ 192 + o.op * 2 ^ 208 + mLen o.mctl * 2 ^ 216 + (if o.gang then mGang o.mctl else 0) * 2 ^ 224

/-- C after `.acc` or without it, element by element, from the product's values; and the flags. [DEDUCED, log 86] -/
def intoC (o : MatOp) (a : Acc) (es : List ((Nat × Nat) × Nat)) : List ((Nat × Nat) × Nat) × Nat :=
  if o.acc = false then (es, 0)
  else es.foldl (fun r e => let x := add40 (a.get e.1.1 e.1.2) e.2; (r.1 ++ [(e.1, x.1)], r.2 ||| x.2)) ([], 0)

/-- The accumulator that MMA, MMA.msk or MSP24 leaves (R207). -/
def mmaResult (lead c : Core) (o : MatOp) (a : Acc) : Acc :=
  let es := active o.mctl
  let r := if mLen o.mctl = 0 then intoC o a (es.map (fun e => (e, 0)))
    else es.foldl (fun r e => let d := denseAt lead c o e.1 e.2 (if o.acc then a.get e.1 e.2 else 0); (r.1 ++ [(e, d.1)], r.2 ||| d.2)) ([], 0)
  { a.put r.1 with hdr := BitVec.ofNat 512 (header o r.2) }

/-- The accumulator that MSAMP leaves, E as the gang decided it (R208, R209). -/
def msampResult (lead c : Core) (o : MatOp) (x : Sampled) (e : Bool) (a : Acc) : Acc :=
  let es := active o.mctl
  let redo := e && x.mode == 1
  let ex := if redo then exactAll lead c o else ([], 0)
  let vals := if redo then ex.1 else if x.mode = 0 then es.map (fun _ => 0) else x.acc
  let r := intoC o a (List.zip es vals)
  let fl := (if redo then ex.2 else x.fl) ||| r.2
  let f := if x.mode = 0 then sumSquares (r.1.map (fun t => t.2)) else x.f
  let h := header o fl + x.v + f * 2 ^ 32 + o.seed * 2 ^ 64 + mf o.mctl 64 32 * 2 ^ 96 + x.q * 2 ^ 128 + o.b * 2 ^ 160 + x.distinct * 2 ^ 168 + o.stale * 2 ^ 176
    + b2n (x.mode == 0) * 2 ^ 200 + b2n redo * 2 ^ 201 + b2n x.bigX * 2 ^ 202 + b2n x.bigN * 2 ^ 203
  { a.put r.1 with hdr := BitVec.ofNat 512 h }

end Sys2Proof.Machine
end

