-- ==== Sys2Proof/Machine/Matrix.lean ====
section
/-! DEFINITION. The instructions of page 8 and the steps of the matrix slice and the gang join (R193 to R215). -/

namespace Sys2Proof.Machine

open Sys2Proof

/-- A wait with the back-off of R67: another try, or the trap when the budget is spent. -/
def retryOr (c : Ctx) (now : Nat) (t : Trap) (s : State) : Eff :=
  let j := match c.wait with | .retry j _ => j + 1 | _ => 0
  if c.budget ≤ j then .trap t else .hold (.retry j (now + backoff j)) s

/-- A retry event: when the back-off has passed, the held instruction tries again. An attempt that must wait for something else is made again, its back-off
over. -/
def retryEvent (core slot : Nat) (f : Instr → State → Option (Host.Outcome State Fault Refusal)) (s : State) : Host.Outcome State Fault Refusal :=
  let k := 8 * core + slot
  let c := s.ctx k
  match c.wait, c.held with
  | .retry j till, some i =>
    if s.still = false ∧ c.occ = true ∧ till ≤ s.tick then (match f i { s with cur := k } with
      | some (.next t) => .next (if t.stall then s.setCtx k { c with wait := .retry j 0 } else t)
      | some r => r
      | none => .next s)
    else .next s
  | _, _ => .next s

/-- Slots of a run in an operand space, as numbers 0 to 95. -/
def runOf (o : Ops) : List Nat := (List.range (o.aNum + 1)).map (fun i => o.dNum + i + (if fld (o.clsOr 0) 0 2 = 1 then 32 else 0))

/-- Byte range of an operand slot in its buffer: buffer number, start. -/
def slotRange (n : Nat) : Nat × Nat := if n < 32 then (0, 4096 * n) else (1, 4096 * (n - 32))

/-- Does a scoreboard entry cover part of an operand slot (R22)? -/
def Core.slotBusy (c : Core) (n : Nat) : Bool := let r := slotRange n; c.busy r.1 r.2 (r.2 + 4096)

/-- TCLAIM (R197). [DESIGN CHOICE, log 100] -/
def execTclaim (o : Ops) (s : State) :=
  issue (.tclaim o) o [] (fun s =>
    let co := s.co
    let run := runOf o
    let slot := s.cur % 8
    if run.any (fun n => co.own n != .free && co.own n != .ctx slot) then retryOr s.cx s.tick { cause := 14, xinfo := 2 } s
    else if run.any (fun n => co.slotBusy n) then .stall
    else .done (s.setCo (run.foldl (fun co n => { co.claim n (.ctx slot) with norms := tdel co.norms n }) co))) s

/-- Unbinds a logical accumulator: its slot is free when every operation that writes it has ended (R197). -/
def unbind (s : State) (n : Nat) : State :=
  match vget s.cx.tc n none with
  | none => s
  | some p =>
    let a := s.co.acc p
    let s := s.setCx { s.cx with tc := s.cx.tc.setIfInBounds n none }
    s.setCo (s.co.setAcc p { a with own := if s.co.mat.any (fun m => m.tc == p) then .ending else .free })

/-- TREL (R197). -/
def execTrel (o : Ops) (s : State) :=
  issue (.trel o) o [] (fun s =>
    if fld (o.clsOr 0) 0 2 = 2 then .done ((List.range (o.aNum + 1)).foldl (fun s i => unbind s (o.dNum + i)) s)
    else
      let run := runOf o
      let slot := s.cur % 8
      if run.any (fun n => s.co.slotBusy n || s.co.slotInUse n) then .stall
      else .done (s.setCo (run.foldl (fun co n => if co.own n = .ctx slot then co.claim n .free else co) s.co))) s

/-- Does an operation in flight use a block of S-memory (R201)? -/
def Core.smemInUse (c : Core) (blk : Nat) : Bool :=
  c.mat.any (fun m => (mScaled m.mctl || m.op == 4) && decide (mSofs m.mctl ≤ blk) && decide (blk < mSofs m.mctl + mLen m.mctl))

/-- TSCL (R201). -/
def execTscl (o : Ops) (s : State) :=
  issue (.tscl o) o [rg o.dNum] (fun s =>
    let a := (s.cx.getG o.dNum).toNat
    if a % 16 ≠ 0 then .trap (trapAt 3 a (info 15 9 0))
    else if 0x18000 < a + 256 then .trap (localTrap (max a 0x18000) 4)
    else if s.co.busy 2 a (a + 256) = true ∨ s.co.smemInUse o.imm.toNat = true then .stall
    else .done (s.setCo { s.co with smem := mblit s.co.smem (256 * o.imm.toNat) (mbytes s.co.lmem a 256) })) s

/-- MCFG (R195). -/
def execMcfg (o : Ops) (s : State) :=
  let t := bit0Of o 0
  issue (.mcfg o) o (if t then [rg o.aNum] else [rg o.aNum, rg (o.aNum + 1)]) (fun s =>
    let c := s.cx
    let x := if t then setFld c.sr.mctl.toNat 64 32 (c.getG o.aNum).toNat else c.getGs o.aNum 2
    if mctlBad s.coreNo x then .trap (ill 9) else .done (s.setCx { c with sr := { c.sr with mctl := mctlOf x } })) s

/-- A configuration that a product does not accept (R203 item 2). No product accepts format 0 or 1, which `mctl` has only after a restore from a frame (R49,
R194, R317). -/
def productBad (op : Nat) (g : Bool) (m : BitVec 128) (ta tb : Nat) : Bool :=
  let f := mFmt m
  decide (f < 2) || (op == 2 && (decide (5 < f) || mScl m)) || (op == 3 && (decide (5 < f) || mScl m)) || (op == 4 && (decide (5 < f) || mScl m))
  || ((mScaled m || op == 4) && decide (32 < mSofs m + mLen m))
  || decide (32 < ta + mLen m) || decide (64 < tb + mLen m) || (g && mGang m == 0)

/-- The lowest slot of a chain that a context does not own: the trap of R203 item 3. [DEDUCED, log 26] -/
def ownTrap (c : Core) (slot first len : Nat) : Option Trap :=
  ((List.range len).find? (fun i => c.own (first + i) != .ctx slot)).map (fun i => localTrap (slotRange (first + i)).2 5)

/-- The token cost of a product (R382). [DESIGN CHOICE, log 54] -/
def productCost (op b : Nat) (m : BitVec 128) : Nat :=
  let e := mCycles m
  if op = 2 then (e * b + 3) / 4 + 1 else (e * (8 * mLen m) + 3) / 4

/-- Binds a logical accumulator that is unbound to the lowest free physical slot, with +0 and a reset header (R198); none when no
slot is free. -/
def bind (s : State) (k n : Nat) : Option (Nat × State) :=
  let c := s.ctx k
  match vget c.tc n none with
  | some p => some (p, s)
  | none => match (s.core (k / 8)).freeAccs with
    | [] => none
    | p :: _ =>
      let s := s.setCtx k { c with tc := c.tc.setIfInBounds n (some p) }
      some (p, s.setCore (k / 8) ((s.core (k / 8)).setAcc p { own := .ctx (k % 8) }))

/-- Ticks that a wait by R67 lasts in all. -/
def budgetTicks (c : Ctx) : Nat := (List.range c.budget).foldl (fun t j => t + backoff j) 0

/-- The completion of a product: 1 added to its counter when its `mctl` names one (R206). -/
def State.productDone (s : State) (core : Nat) (m : BitVec 128) : State :=
  if bitOf m.toNat 31 then s.addCounter core (mf m 27 4) 1 else s

/-- The operation that a product instruction makes (R203, R204). -/
def matOp (op : Nat) (o : Ops) (ta tb b : Nat) (c : Ctx) (core : Nat) : MatOp :=
  let m := c.sr.mctl
  { uid := c.uid, op, acc := bit0Of o 0, gang := bitOf (o.clsOr 0) 1, mctl := m, tc := 0, ta, tb, b, seed := (c.getSd (mf m 48 4)).toNat,
    leader := if bitOf (o.clsOr 0) 1 then 8 * (core / 8) + ((bitsOf (mGang m) 8).headD 0) else core,
    ownA := if bitOf (o.clsOr 0) 1 then (bitsOf (mGang m) 8).headD 0 == core % 8 else true }

/-- Does a scoreboard entry cover an operand slot of an operation (R22)? [DEDUCED, log 22] -/
def Core.operandsBusy (c : Core) (m : MatOp) : Bool :=
  (m.ownA && (List.range (mLen m.mctl)).any (fun i => c.slotBusy (m.ta + i))) || (List.range (mLen m.mctl)).any (fun i => c.slotBusy (32 + m.tb + i))

/-- The scoreboard entries that cover operand slots of an operation as it is issued (R22). [DEDUCED, log 72] -/
def Core.covering (c : Core) (m : MatOp) : List (Bool × Nat) :=
  (c.scores.filter (fun e => ({ c with scores := [e] } : Core).operandsBusy m)).map (fun e => (e.eng, e.cmd))

/-- Is an entry left that was there when the operation was issued (R22)? A copy issued after it waits for the operation (R52). [DEDUCED, log 72] -/
def Core.awaits (c : Core) (m : MatOp) : Bool := c.scores.any (fun e => m.waits.contains (e.eng, e.cmd))

/-- The product that a gang member waits with: destination, operation. -/
def gangOp (s : State) (k : Nat) : Option (Nat × MatOp) :=
  let c := s.ctx k
  match c.wait, c.held with
  | .gang _ _, some (.mma o) => some (o.dNum, matOp (if bitOf (o.clsOr 0) 2 then 4 else 1) o o.aNum o.bNum 0 c (k / 8))
  | .gang _ _, some (.msamp o) => some (o.dNum, matOp 2 o (fld o.imm.toNat 8 5) o.bNum (fld o.imm.toNat 0 8) c (k / 8))
  | .gang _ _, some (.msp24 o) => some (o.dNum, matOp 3 o o.aNum o.bNum 0 c (k / 8))
  | _, _ => none

/-- Does a member wait at the join whose conditions have held (R205)? [DEDUCED, log 22] -/
def Ctx.gangHeld (c : Ctx) : Bool := match c.wait with | .gang _ met => met | _ => false

/-- The member of a core that waits at the join: its context, destination and operation. Of several contexts it is the one whose join's conditions have held,
else the lowest slot. [DESIGN CHOICE, log 91] -/
def gangMember (s : State) (core : Nat) : Option (Nat × Nat × MatOp) :=
  let xs := (State.slotsOf core).filterMap (fun k => (gangOp s k).map (fun x => (k, x.1, x.2)))
  (xs.find? (fun e => (s.ctx e.1).gangHeld)).or xs.head?

/-- Has the wait of a member ended (R7, R205)? Not once the join's conditions have held. [DEDUCED, log 22] -/
def gangOver (s : State) (k : Nat) : Bool := match (s.ctx k).wait with | .gang till met => !met && decide (till ≤ s.tick) | _ => true

/-- The members that wait at the join in the cores of a mask. [DEDUCED, log 22] -/
def gangWaiting (s : State) (row mask : Nat) : List (Nat × Nat × MatOp) := (bitsOf mask 8).filterMap (fun j => gangMember s (8 * row + j))

/-- Does every core of a mask that one of them names wait, none past its budget (R205)? A member that has just come has had no wait yet. [DEDUCED, log 22] -/
def gangFull (s : State) (row mask : Nat) (fresh : Option Nat) : Bool :=
  let ms := gangWaiting s row mask
  ms.any (fun e => mGang e.2.2.mctl == mask) && ms.length == (bitsOf mask 8).length && ms.all (fun e => fresh == some e.1 || !gangOver s e.1)

/-- What the join compares (R205). [DEDUCED, log 101] -/
def gangKey (m : MatOp) : List Nat :=
  [m.op, b2n m.acc, mGang m.mctl, mLen m.mctl, mFmt m.mctl, b2n (mScl m.mctl), mM m.mctl, mSofs m.mctl, mf m.mctl 52 4, mf m.mctl 64 32]
  ++ (if m.op = 2 then [m.b, m.seed] else [])

/-- Do the compared values of some members differ? -/
def gangDiffers (ms : List (Nat × Nat × MatOp)) : Bool := match ms with | [] => false | x :: _ => ms.any (fun e => gangKey e.2.2 != gangKey x.2.2)

/-- Do the conditions of a join hold (R205): every core of the mask waits, and no slice holds an earlier operation? For a join that traps its members the first
is enough, and conditions that have held go on holding. [DEDUCED, log 22] -/
def gangMet (s : State) (row mask : Nat) (fresh : Option Nat) : Bool :=
  let ms := gangWaiting s row mask
  gangFull s row mask fresh && (ms.all (fun e => (s.ctx e.1).gangHeld) || gangDiffers ms || ms.all (fun e => (s.core (e.1 / 8)).mat == []))

/-- A member has come to a join of the row or has left it, or a slice has ended an operation: the conditions are looked at in the same step; a member does not
run out of its budget while those of a mask that takes it in hold. [DEDUCED, log 22] -/
def State.meetGangs (s : State) (row : Nat) (fresh : Option Nat) : State :=
  let ms := gangWaiting s row 255
  let masks := (ms.map (fun e => mGang e.2.2.mctl)).filter (fun m => gangMet s row m fresh)
  ms.foldl (fun t e => match (s.ctx e.1).wait with
    | .gang till _ => t.setCtx e.1 { t.ctx e.1 with wait := .gang till (masks.any (fun m => m.testBit (e.1 / 8 % 8))) }
    | _ => t) s

/-- Issue of MMA, MSAMP and MSP24 (R203 to R206). [DESIGN CHOICE, log 92] -/
def productOp (i : Instr) (o : Ops) (op ta tb b : Nat) (s : State) : Host.Outcome State Fault Refusal :=
  issue i o [] (fun s =>
    let c := s.cx
    let co := s.co
    let slot := s.cur % 8
    let m := c.sr.mctl
    let mo := matOp op o ta tb b c s.coreNo
    let g := mo.gang
    match c.wait with
    | .gang _ _ => .stall
    | _ =>
      if productBad op g m ta tb then .trap (ill 9)
      else match (if mo.ownA then ownTrap co slot ta (mLen m) else none).or (ownTrap co slot (32 + tb) (mLen m)) with
        | some t => .trap t
        | none =>
          if mM m = 0 ∨ mN m = 0 then .done (s.productDone s.coreNo m)
          else if vget c.tc o.dNum none = none ∧ co.freeAccs = [] then retryOr c s.tick { cause := 14, xinfo := 1 } s
          else if g then
            let t := (s.setCx { c with wait := .gang (s.tick + budgetTicks c) false, held := some i }).meetGangs (s.coreNo / 8) (some s.cur)
            .hold t.cx.wait t
          else if 4 ≤ co.mat.length then .stall
          else match s.charge s.coreNo (productCost op b m) with
            | none => .stall
            | some t => match bind t t.cur o.dNum with
              | none => .stall
              | some (p, t) => .done (t.setCo { t.co with mat := t.co.mat ++ [{ mo with tc := p, waits := co.covering mo }] })) s

/-- MMA (R207); op 4 is `.msk`. -/
def execMma (o : Ops) (s : State) := productOp (.mma o) o (if bitOf (o.clsOr 0) 2 then 4 else 1) o.aNum o.bNum 0 s
/-- MSAMP (R208). -/
def execMsamp (o : Ops) (s : State) := productOp (.msamp o) o 2 (fld o.imm.toNat 8 5) o.bNum (fld o.imm.toNat 0 8) s
/-- MSP24 (R207). -/
def execMsp24 (o : Ops) (s : State) := productOp (.msp24 o) o 3 o.aNum o.bNum 0 s

/-- Takes a trap in a context that is not the current one (R107, R352). -/
def State.trapCtx (s : State) (k : Nat) (t : Trap) : State := { { s with cur := k }.raise t with cur := s.cur }

/-- GANG_JOIN (R205): when every core of the mask waits at the join, none of them past its budget, a mismatch traps every member; else, when the slices, the
scoreboards, the row's tokens and the free lists allow, all start together, on the leader's A chain. [DEDUCED, log 22; DESIGN CHOICE, log 92] -/
def execGangJoin (row : Nat) (mask : BitVec 8) (s : State) :=
  event true (fun s =>
    let all := gangWaiting s row mask.toNat
    if gangFull s row mask.toNat none = false then s
    else
      let lead := match all with | e :: _ => e.1 | [] => 0
      let lta := match all with | e :: _ => e.2.2.ta | [] => 0
      if gangDiffers all then
        all.foldl (fun s e => s.trapCtx e.1 { cause := 13, xinfo := 1, leader := some lead }) s
      else if all.any (fun e => (s.core (e.1 / 8)).mat != [] || (s.core (e.1 / 8)).operandsBusy e.2.2) then s
      else match s.charge (8 * row) (all.foldl (fun t e => t + productCost e.2.2.op e.2.2.b e.2.2.mctl) 0) with
        | none => s
        | some s1 =>
          let start := all.foldl (fun (acc : Option State) e => match acc with
            | none => none
            | some t => match bind t e.1 e.2.1 with
              | none => none
              | some (p, t) =>
                let core := e.1 / 8
                let t := t.setCore core { t.core core with mat := [{ e.2.2 with tc := p, ta := lta, running := true }] }
                some (t.completeHeld e.1 id)) (some s1)
          match start with
          | none => s
          | some t =>
            let sample := (all.map (fun e => e.2.2.op)).headD 0 == 2
            if !sample then t
            else
              let fmt := (all.map (fun e => mFmt e.2.2.mctl)).headD 2
              let len := (all.map (fun e => mLen e.2.2.mctl)).headD 0
              let lc := lead / 8
              let ra := (t.core lc).refresh lta len fmt
              let t := t.setCore lc ra.1
              let na := (t.core lc).chainNorms lta len
              let step := all.foldl (fun (r : State × List (Nat × Nat)) e =>
                let core := e.1 / 8
                let rb := (r.1.core core).refresh (32 + e.2.2.tb) len fmt
                (r.1.setCore core rb.1, r.2 ++ [(core, rb.2 + (if core = lc then ra.2 else 0))])) (t, [])
              let t := step.1
              let nbs := all.map (fun e => (t.core (e.1 / 8)).chainNorms (32 + e.2.2.tb) len)
              let nb := (List.range (8 * len)).map (fun i =>
                let xs := nbs.map (fun l => Fmt.f32.decode (l[i]?.getD 0))
                match firstNan xs with
                | some (x, _) => (convert Fmt.f32 RNE 0 false x).1
                | none => (convert Fmt.f32 RNE 0 false (exactSum RNE xs).1).1)
              step.2.foldl (fun t e => t.setCore e.1 { t.core e.1 with mat := (t.core e.1).mat.map (fun m => { m with na, nb, stale := e.2 }) }) t) s

/-- GANG_WAIT_EXPIRY (R205): the trap counts as the leader's; that is slot 0 of the leader core while none of its contexts waits at the join (R47). [DEDUCED, log 22; DESIGN CHOICE, log 65] -/
def execGangWaitExpiry (core slot : Nat) (s : State) :=
  event true (fun s =>
    let k := 8 * core + slot
    match (s.ctx k).wait, gangOp s k with
    | .gang till met, some (_, m) =>
      if met = false ∧ till ≤ s.tick then
        let lead := match gangMember s m.leader with | some e => e.1 | none => 8 * m.leader
        s.trapCtx k { cause := 13, xinfo := 2, leader := some lead }
      else s
    | _, _ => s) s

/-- MATRIX_OP_START (R204): the first held operation starts when no earlier copy covers its operands; MSAMP brings its norms up to date. [DEDUCED, log 22] -/
def execMatrixOpStart (core : Nat) (s : State) :=
  event true (fun s =>
    let c := s.core core
    match c.mat with
    | [] => s
    | m :: rest =>
      if m.running = true ∨ c.awaits m = true then s
      else if m.op ≠ 2 then s.setCore core { c with mat := { m with running := true } :: rest }
      else
        let len := mLen m.mctl
        let ra := c.refresh m.ta len (mFmt m.mctl)
        let rb := ra.1.refresh (32 + m.tb) len (mFmt m.mctl)
        let m := { m with running := true, na := rb.1.chainNorms m.ta len, nb := rb.1.chainNorms (32 + m.tb) len, stale := ra.2 + rb.2 }
        s.setCore core { rb.1 with mat := m :: rest }) s

/-- Operand slots of halted contexts that no operation uses any more are free (R135). [DEDUCED, log 62] -/
def Core.freeEnded (c : Core) : Core :=
  (List.range 96).foldl (fun c n => if c.own n = .ending ∧ c.slotInUse n = false then c.setOwn n .free else c) c

/-- Writes the result of an operation into its accumulator, drops it from the slice, frees the slots whose names or contexts are gone, and completes
(R135, R197, R206). [DEDUCED, log 22; DEDUCED, log 62] -/
def State.endOp (s : State) (core : Nat) (m : MatOp) (a : Acc) : State :=
  let c := s.core core
  let c := { c with mat := c.mat.drop 1 }.freeEnded
  let a := if a.own = .ending ∧ c.mat.any (fun n => n.tc == m.tc) = false then { a with own := .free } else a
  ((s.setCore core (c.setAcc m.tc a)).productDone core m.mctl).meetGangs (core / 8) none

/-- The running operations that end with that of a core: the members of its gang, or its own alone. -/
def endsWith (s : State) (core : Nat) (m : MatOp) : List (Nat × MatOp) :=
  if m.gang = false then [(core, m)]
  else (bitsOf (mGang m.mctl) 8).filterMap (fun j =>
    let k := 8 * (core / 8) + j
    match (s.core k).mat with
    | n :: _ => if n.running && n.gang then some (k, n) else none
    | [] => none)

/-- MATRIX_OP_END (R206 to R209): the operation, or the whole gang's, ends. An exact recomputation waits for its tokens (R382). [DEDUCED, log 22; DESIGN CHOICE, log 32] -/
def execMatrixOpEnd (core : Nat) (s : State) :=
  event true (fun s =>
    match (s.core core).mat with
    | [] => s
    | m :: _ =>
      if m.running = false then s
      else
        let lead := s.core m.leader
        let ops := endsWith s core m
        if m.op ≠ 2 then ops.foldl (fun s e => s.endOp e.1 e.2 (mmaResult lead (s.core e.1) e.2 ((s.core e.1).acc e.2.tc))) s
        else
          let xs := ops.map (fun e => (e.1, e.2, sample lead (s.core e.1) e.2))
          let e := xs.any (fun x => x.2.2.exceeds)
          let redo := xs.filter (fun x => x.2.2.bigX || (e && x.2.2.mode == 1))
          match s.charge core (redo.foldl (fun t x => t + (mCycles x.2.1.mctl * (8 * mLen x.2.1.mctl) + 3) / 4) 0) with
          | none => s
          | some s => xs.foldl (fun s x => s.endOp x.1 x.2.1 (msampResult lead (s.core x.1) x.2.1 x.2.2 e ((s.core x.1).acc x.2.1.tc))) s) s

/-- TCLAIM_RETRY (R197). -/
def execTclaimRetry (core slot : Nat) (s : State) :=
  retryEvent core slot (fun i s => match i with | .tclaim o => some (execTclaim o s) | _ => none) s

/-- TNORM (R210). -/
def execTnorm (o : Ops) (s : State) :=
  issue (.tnorm o) o [rv o.dNum] (fun s =>
    let n := o.aNum + (if bitOf (o.clsOr 0) 1 then 32 else 0)
    let m := s.cx.sr.mctl
    let rc := bit0Of o 0
    if rc = true ∧ mScaled m = true then .trap (ill 9)
    else if s.co.own n ≠ .ctx (s.cur % 8) then .trap (localTrap (slotRange n).2 5)
    else if s.co.slotBusy n = true ∨ s.co.slotInUse n = true then .stall
    else
      let s := if rc then s.setCo (s.co.renorm n (mFmt m) (List.range 8)) else s
      .done (pendResult { slot := 0, v := [(o.dNum, (s.co.norm n).setWidth 1024)] } [rv o.dNum] s)) s

/-- The physical accumulator of a name, and whether an operation of the slice writes it (R204). -/
def accOf (s : State) (n : Nat) : Option Nat := vget s.cx.tc n none
def accBusy (s : State) (n : Nat) : Bool := (accOf s n).any (fun p => s.co.mat.any (fun m => m.tc == p))

/-- The accumulator of a name: +0 and a zero header when it is unbound. -/
def accRead (s : State) (n : Nat) : Acc := match accOf s n with | some p => s.co.acc p | none => {}

/-- TSTAT (R211). -/
def execTstat (o : Ops) (s : State) :=
  issue (.tstat o) o [rv o.dNum] (fun s =>
    if accBusy s o.aNum then .stall
    else .done (pendResult { slot := 0, v := [(o.dNum, (accRead s o.aNum).hdr.setWidth 1024)] } [rv o.dNum] s)) s

/-- TZERO (R211). -/
def execTzero (o : Ops) (s : State) :=
  issue (.tzero o) o [] (fun s =>
    if accBusy s o.dNum then .stall
    else match bind s s.cur o.dNum with
      | none => retryOr s.cx s.tick { cause := 14, xinfo := 1 } s
      | some (p, s) => .done (s.setCo (s.co.setAcc p { own := .ctx (s.cur % 8) }))) s

/-- TCVT (R212). -/
def execTcvt (o : Ops) (s : State) :=
  issue (.tcvt o) o [rg o.aNum] (fun s =>
    let c := s.cx
    let m := c.sr.mctl
    let mode := fld (o.clsOr 0) 3 3
    let f := Fmt.ofTy (fld (o.clsOr 0) 0 3)
    let es := f.bits / 8
    let a := (c.getG o.aNum).toNat
    let seed := (c.getSd (mf m 48 4)).toNat
    let cells := (active m).map (fun e => (a + 32 * es * e.1 + es * e.2, e))
    let bytes := (cells.map (fun e => (List.range es).map (fun i => e.1 + i))).flatten
    if a % es ≠ 0 then .trap (trapAt 3 a (info 15 9 0))
    else match bytes.find? (fun x => decide (0x18000 ≤ x)) with
      | some x => .trap (localTrap x 4)
      | none => match bytes.find? (fun x => s.co.retained x (x + 1)) with
        | some x => .trap (localTrap x 5)
        | none =>
          if accBusy s o.dNum = true ∨ bytes.any (fun x => s.co.busy 2 x (x + 1)) = true then .stall
          else
            let acc := accRead s o.dNum
            let r := cells.foldl (fun (r : Mem × Nat) e =>
              let v := convert f mode (mix seed (32 * e.2.1 + e.2.2)) false (Fmt.a40.decode (acc.get e.2.1 e.2.2))
              (mwrite r.1 e.1 es v.1, r.2 ||| v.2)) (s.co.lmem, 0)
            let co := { s.co with lmem := r.1 }
            let co := match accOf s o.dNum with
              | some p => co.setAcc p { co.acc p with hdr := (co.acc p).hdr ||| BitVec.ofNat 512 (r.2 % 32 * 2 ^ 192) }
              | none => co
            let s := s.setCo co
            .done (if mode = RS then s.setCx (s.cx.setSd (mf m 48 4) (BitVec.ofNat 32 (seedNext seed))) else s)) s

/-- The image of an accumulator (R213): 5,120 bytes of elements, then the header. -/
def accImage (a : Acc) : Nat := a.el.toNat + 2 ^ 40960 * a.hdr.toNat

/-- The defined bits of a header (R57). [DEDUCED, log 87] -/
def hdrFields : List (Nat × Nat) := [(0, 147), (160, 25), (192, 6), (200, 4), (208, 4), (216, 5), (224, 8)]

/-- The accumulator of an image; reserved header bits read as 0. -/
def accOfImage (x : Nat) (w : Own) : Acc :=
  let h := fld x 40960 512
  { el := BitVec.ofNat 40960 x, hdr := BitVec.ofNat 512 (hdrFields.foldl (fun v f => v + fld h f.1 f.2 * 2 ^ f.1) 0), own := w }

/-- The pieces of an image in device memory (R213). -/
def imageParts (va n : Nat) : List Part := (List.range (n / 16)).map (fun i => { off := 16 * i, va := (va + 16 * i : Nat), n := 16 })

/-- The access that a context waits for, while it is in flight. -/
def State.waited (s : State) : Option Access := match s.cx.wait with
  | .access id => s.co.flight.find? (fun a => a.id == id)
  | _ => none

/-- The checks of `.l` (R213): ALIGN at 16, PROT outside L-memory or in a retained range. -/
def imageLocalTrap (c : Core) (a : Nat) : Option Trap :=
  if a % 16 ≠ 0 then some (trapAt 3 a (info 15 9 0))
  else if 0x18000 < a + 5184 then some (localTrap (max a 0x18000) 4)
  else ((List.range 5184).find? (fun i => c.retained (a + i) (a + i + 1))).map (fun i => localTrap (a + i) 5)

/-- TSPILL (R213): the context waits until every piece has been performed. -/
def execTspill (o : Ops) (s : State) :=
  issue (.tspill o) o [rg o.aNum] (fun s =>
    match s.cx.wait with
    | .access _ => if s.waited.isSome then .stall else .done s
    | _ =>
      let x := (s.cx.getG o.aNum).toNat
      if bit0Of o 0 then match imageLocalTrap s.co x with
        | some t => .trap t
        | none =>
          if accBusy s o.dNum = true ∨ s.co.busy 2 x (x + 5184) = true then .stall
          else .done (s.setCo { s.co with lmem := mwrite s.co.lmem x 5184 (accImage (accRead s o.dNum)) })
      else
        let va := fld x 0 56
        if va % 64 ≠ 0 then .trap (trapAt 3 va (info 15 2 0))
        else match s.check (.vstore false) (imageParts va 5184) with
          | .error t => .trap t
          | .ok es =>
            if accBusy s o.dNum then .stall
            else
              let v := accImage (accRead s o.dNum)
              let id := s.co.nextId
              .hold (.access id) (s.startAccess s.coreNo { id := 0, slot := s.cur % 8, kind := .store, pieces := es.map (fun e => withData v (pieceOf e)) })) s

/-- TFILL (R213): binding at issue (R198), then every byte must arrive; an access that fails unbinds the name again. -/
def execTfill (o : Ops) (s : State) :=
  issue (.tfill o) o [rg o.aNum] (fun s =>
    let fill (s : State) (x : Nat) : Eff := match bind s s.cur o.dNum with
      | none => retryOr s.cx s.tick { cause := 14, xinfo := 1 } s
      | some (p, s) => .done (s.setCo (s.co.setAcc p (accOfImage x (.ctx (s.cur % 8)))))
    match s.cx.wait with
    | .access id => match s.waited with
      | none => .stall
      | some a => if a.complete then fill (s.dropAccess s.coreNo id) (a.bytes 0) else .stall
    | _ =>
      let x := (s.cx.getG o.aNum).toNat
      if bit0Of o 0 then match imageLocalTrap s.co x with
        | some t => .trap t
        | none => if accBusy s o.dNum = true ∨ s.co.busy 2 x (x + 5184) = true then .stall else fill s (mread s.co.lmem x 5184)
      else
        let va := fld x 0 56
        if va % 64 ≠ 0 then .trap (trapAt 3 va (info 15 1 0))
        else match s.check (.vload false) (imageParts va 5184) with
          | .error t => .trap t
          | .ok es =>
            if accBusy s o.dNum then .stall
            else match bind s s.cur o.dNum with
              | none => retryOr s.cx s.tick { cause := 14, xinfo := 1 } s
              | some (_, t) =>
                let bound := if accOf s o.dNum = none then some o.dNum else none
                .hold (.access s.co.nextId) (t.startAccess s.coreNo { id := 0, slot := s.cur % 8, kind := .load, pieces := es.map pieceOf, dest := .image bound })) s

/-- SDSET (R214). -/
def execSdset (o : Ops) (s : State) :=
  scalar (.sdset o) o (if o.hasImm then [] else [rg o.aNum]) (fun c =>
    .done (c.setSd o.dNum (if o.hasImm then BitVec.ofInt 32 o.imm else (c.getG o.aNum).setWidth 32))) s

/-- SDGET (R214). -/
def execSdget (o : Ops) (s : State) := scalar (.sdget o) o [rg o.dNum] (fun c => .done (c.setG o.dNum ((c.getSd o.aNum).setWidth 64))) s

/-- ACCUMULATOR_BIND_RETRY (R198). -/
def execAccumulatorBindRetry (core slot : Nat) (s : State) :=
  retryEvent core slot (fun i s => match i with
    | .mma o => some (execMma o s)
    | .msamp o => some (execMsamp o s)
    | .msp24 o => some (execMsp24 o s)
    | .tzero o => some (execTzero o s)
    | .tfill o => some (execTfill o s)
    | _ => none) s

end Sys2Proof.Machine
end

