-- ==== Sys2Proof/Machine/VectorMem.lean ====
section
/-! DEFINITION. Vector access to device memory, L-memory, the tile buffers and the accumulators, raw and converting (R29 to R34, R161 to
R163, R167 to R174). -/

namespace Sys2Proof.Machine

open Sys2Proof

/-- Are the codes of a pointer permitted (R30)? [DEDUCED, log 30] -/
def codesOk (fmt c : Nat) : Bool :=
  decide (fmt < 16) && (if fmt = 6 ∨ fmt = 7 then c == 2 else if fmt = 4 ∨ fmt = 5 ∨ fmt = 8 then true else c == 0)

/-- Does the access convert (R168)? -/
def converts (fmt c : Nat) : Bool := fmt == 6 || fmt == 7 || c != 0

/-- Maximal runs of consecutive active units of `u` bytes, as offset and length. -/
def runsOf (u : Nat) (on : Nat → Bool) (n : Nat) : List (Nat × Nat) :=
  (List.range n).foldl (fun l k =>
    if on k = false then l
    else match l.getLast? with
      | some (off, len) => if off + len = u * k then l.dropLast ++ [(off, len + u)] else l ++ [(u * k, u)]
      | none => [(u * k, u)]) []

/-- The magnitude of a number. -/
def magOf : Num → Num
  | .fin _ m e => .fin false m e
  | .inf _ => .inf false
  | n => n

/-- The greater of two magnitudes, none of them a NaN. -/
def greaterOf (a b : Num) : Num := if a.lt b then b else a

/-- The largest absolute value of a list (R34): +0 for none. -/
def absMax (xs : List Num) : Num := xs.foldl (fun a x => greaterOf a (magOf x)) (.fin false 0 0)

/-- Is a number finite? -/
def finOf : Num → Bool
  | .fin _ _ _ => true
  | _ => false

/-- The smallest E in [lo, 254] with k·2^(E − 127 − sh) ≥ A, or 254. -/
def leastExp (lo k sh : Nat) (a : Num) : Nat :=
  (((List.range (255 - lo)).map (lo + ·)).find? (fun (e : Nat) => decide (0 ≤ Num.cmp (.fin false k ((e : Int) - 127 - sh)) a))).getD 254

/-- One element of a DB block (R34 steps 4 and 5): its code and flags. `mb` is 6 for DB8, 2 for DB4. -/
def dbElem (mb e0 e1 : Nat) (x : Num) : Nat × Nat :=
  match x with
  | .fin neg m e =>
    let top := 2 ^ mb - 1
    let g (ex : Nat) := gridRound RNE 0 false m e false ((ex : Int) - 127 - (mb - 1 : Nat))
    let r1 := g e1
    let sel := decide (r1.1 ≤ top)
    let r := if sel then r1 else g e0
    let mag := min r.1 top
    let fl := if top < r.1 then NX + SAT else if r.2.1 then NX else 0
    (if mag = 0 then 0 else mag + b2n neg * 2 ^ mb + b2n sel * 2 ^ (mb + 1), fl)
  | _ => (0, 0)

/-- A quantised block (R34, R169): its scale bytes, and the code and the flags of each element. -/
structure Block where
  e0 : Nat
  e1 : Nat := 0
  codes : List Nat
  flags : List Nat

/-- The flags that the elements of a block raise in its active lanes (R45). -/
def Block.raised (b : Block) (on : Nat → Bool) : Nat :=
  (List.range b.flags.length).foldl (fun f k => if on k then f ||| (b.flags[k]?).getD 0 else f) 0

/-- A block of which every element is the code 0, with the flags that `f` gives an element. -/
def Block.blank (e0 e1 : Nat) (xs : List Num) (f : Num → Nat) : Block := { e0, e1, codes := xs.map (fun _ => 0), flags := xs.map f }

/-- Quantises a block (R34). An agreed A of 0 makes an element that is not 0 inexact, and clamps none. [DESIGN CHOICE, log 68] -/
def dbBlock (db8 : Bool) (a : Num) (xs : List Num) : Block :=
  let d := if db8 then 3 else 2
  if finOf a = false ∨ xs.all finOf = false then .blank 255 (255 - d) xs (fun _ => 0)
  else if a.cmp (.fin false 0 0) = 0 then .blank 0 0 xs (fun x => if x.cmp (.fin false 0 0) = 0 then 0 else NX)
  else
    let e0 := if db8 then leastExp (d + 1) 63 5 a else leastExp (d + 1) 3 1 a
    let es := xs.map (dbElem (if db8 then 6 else 2) e0 (e0 - d))
    { e0, e1 := e0 - d, codes := es.map (fun e => e.1), flags := es.map (fun e => e.2) }

/-- An element of a scaled `.i8` block: clamped to [−128, 127] with SAT (R169). [DEDUCED, log 21] -/
def scaledI8 (x : Num) : Nat × Nat :=
  match x with
  | .fin neg m e =>
    let r := gridRound RNE 0 neg m e false 0
    let v : Int := if neg then -(r.1 : Int) else r.1
    if v < -128 then (128, NX + SAT) else if 127 < v then (127, NX + SAT) else (wrap v 8, if r.2.1 then NX else 0)
  | _ => (0, 0)

/-- Encodes a block of a converting store (R169). -/
def convBlock (fmt : Nat) (xs : List Num) : Block :=
  let a := absMax xs
  if fmt = 6 ∨ fmt = 7 then dbBlock (fmt == 6) a xs
  else if xs.all finOf = false then .blank 255 0 xs (fun _ => 0)
  else if a.cmp (.fin false 0 0) = 0 then .blank 0 0 xs (fun _ => 0)
  else
    let e := match fmt with
      | 4 => leastExp 1 448 0 a
      | 5 => leastExp 1 57344 0 a
      | _ => leastExp 1 127 0 a
    let rs := xs.map (fun x =>
      let y := x.scale (127 - (e : Int))
      match fmt with
      | 4 => convert .e4m3 RNE 0 true y
      | 5 => convert .e5m2 RNE 0 true y
      | _ => scaledI8 y)
    { e0 := e, codes := rs.map (fun r => r.1), flags := rs.map (fun r => r.2) }

/-- The data bytes and the scale bytes of a block as numbers (R31, R33). -/
def Block.data (b : Block) (fmt : Nat) : Nat := if fmt = 7 then pack 4 32 (fun k => (b.codes[k]?).getD 0) else ofBytes b.codes
def Block.scale (b : Block) : Nat := b.e0 + 256 * b.e1

/-- The codes, address and heap of a contiguous vector access. -/
structure VAddr where
  fmt : Nat
  c : Nat
  ea : Int
  hbase : Nat
  hlimit : Nat
  qbase : Nat

/-- The address of a VLD or VST (R167). -/
def vaddr (o : Ops) (c : Ctx) : VAddr :=
  let b := (addrBaseOff o c).1.toNat
  { fmt := fld b 59 5, c := fld b 56 3, ea := effAddr o c, hbase := c.sr.hbase.toNat, hlimit := c.sr.hlimit.toNat, qbase := fld c.sr.qbase.toNat 0 56 }

/-- Data bytes that 32·w elements take. -/
def VAddr.total (v : VAddr) (w : Nat) : Nat := 32 * w / blkElems v.fmt v.c * blkBytes v.fmt v.c

/-- The checks of step 1 of R167: codes, block cover, and the data within the heap. The data are those of every block, of those without an active lane
too (R31). [DEDUCED, log 30] -/
def VAddr.trap (v : VAddr) (w kind : Nat) : Option Trap :=
  if codesOk v.fmt v.c = false then some (protEntry kind 6 (wrap v.ea 64))
  else if converts v.fmt v.c = false then none
  else if (32 * w) % blkElems v.fmt v.c ≠ 0 ∨ (v.ea - v.hbase) % (blkBytes v.fmt v.c : Int) ≠ 0 then some (trapAt 3 (wrap v.ea 64) (info 15 kind 0))
  else if v.ea < v.hbase then some (protEntry kind 7 (wrap v.ea 64))
  else if (v.hbase : Int) + v.hlimit < v.ea + v.total w then some (protEntry kind 7 (wrap (max v.ea (v.hbase + v.hlimit)) 64))
  else none

/-- Is a block active: has it an active lane? FP32 lane k lies in unit k / w. -/
def blkOn (c : Ctx) (o : Ops) (v : VAddr) (w b : Nat) : Bool :=
  (List.range (blkElems v.fmt v.c)).any (fun i => unitOn c o ((blkElems v.fmt v.c * b + i) / w))

/-- The pieces of a contiguous access before translation (R170); in a converting one the scale bytes stand after the data. [DEDUCED, log 30] -/
def VAddr.parts (v : VAddr) (c : Ctx) (o : Ops) (w : Nat) : List Part :=
  if converts v.fmt v.c = false then ((runsOf (4 * w) (unitOn c o) 32).map (fun r => cutVector r.1 (v.ea + r.1) r.2)).flatten
  else
    let n := 32 * w / blkElems v.fmt v.c
    let db := blkBytes v.fmt v.c
    let sb := blkScale v.fmt
    let data := (runsOf db (blkOn c o v w) n).map (fun r => cutVector r.1 (v.ea + r.1) r.2)
    let scale := ((List.range n).filter (blkOn c o v w)).map (fun b =>
      cutScalar (v.total w + sb * b) (v.qbase + (v.ea + (db * b : Nat) - v.hbase) / 2 ^ blkShift v.fmt v.c) sb)
    (data ++ scale).flatten

/-- A group of w registers as a delayed result. -/
def vecResult (d w v : Nat) (fl : Nat) : Result := { slot := 0, v := (List.range w).map (fun i => (d + i, BitVec.ofNat 1024 (fld v (1024 * i) 1024))), flags := fl }

/-- An access with every unit inactive (R192): only its order's core actions. -/
def emptyAccess (o : Ops) (s : State) : Eff :=
  if ordOf o 6 = 2 then (if s.releaseReady s.coreNo (s.cur % 8) then .done s else .stall)
  else if ordOf o 6 = 1 then .done (s.acquire s.coreNo (scopeOf o 6)) else .done s

/-- A load with every unit inactive: its group is pending (R162) until the values it has come back to it. -/
def emptyLoad (o : Ops) (w : Nat) (s : State) : Eff := match emptyAccess o s with
  | .done t => .done (pendResult (vecResult o.dNum w (t.cx.getVs o.dNum w) 0) (grp rv o.dNum w) t)
  | e => e

/-- Is no unit active? -/
def noUnit (c : Ctx) (o : Ops) : Bool := (List.range 32).all (fun k => !unitOn c o k)

/-- The flags that an element of a converting load may raise (R36, R39, R168): a value beyond FP32, and a signalling NaN of E5M2. [DEDUCED, log 76] -/
def convMay (fmt : Nat) : Nat := if fmt = 5 then OF + NX + NV else OF + NX

/-- Does a converting load hold its context until its bytes have come, so that its flags trap precisely (R46)? Only when a flag that its format may raise
is enabled. -/
def Ctx.convWaits (c : Ctx) (v : VAddr) : Bool := c.traps (convMay v.fmt)

/-- Where a VLD delivers its bytes (R168). -/
def vldDest (c : Ctx) (o : Ops) (v : VAddr) (w : Nat) : Dest :=
  if converts v.fmt v.c then .conv o.dNum w v.fmt v.c (BitVec.ofNat 32 (pack 1 32 (fun k => b2n (unitOn c o k)))) (c.convWaits v) else .vregs o.dNum w

/-- VLD (R167, R168): the group is pending until the bytes have come (R162). One whose flags may trap (R46) holds its context meanwhile. -/
def execVld (o : Ops) (s : State) :=
  let w := groupSize o
  issueV (.vld o) o 1 (grp rv o.dNum w ++ addrRegs o) (fun s =>
    let c := s.cx
    let v := vaddr o c
    match c.wait with
    | .access _ => match s.waited with
      | none => .done s
      | some a =>
        if a.complete = false then .stall
        else
          let r := convLanes (unitOn c o) v.fmt v.c w (a.bytes 0) (c.getVs o.dNum w)
          let c := c.marks false (grp rv o.dNum w)
          let t := (s.dropAccess s.coreNo a.id).setCx c
          if c.traps r.2 then .gone (t.raise (fpx r.2)) else .done (t.setCx ((c.setVs o.dNum w r.1).addFlags r.2))
    | _ =>
      if noUnit c o then emptyLoad o w s
      else match v.trap w 1 with
        | some t => .trap t
        | none => match s.check (.vload (decide (v.fmt ≤ 1))) (v.parts c o w) with
          | .error t => .trap t
          | .ok es =>
            let a : Access := { id := 0, slot := s.cur % 8, kind := .load, ord := ordOf o 6, scope := scopeOf o 6, nc := bit0Of o 6, pieces := es.map pieceOf, dest := vldDest c o v w }
            let t := (s.setCx (c.marks true (grp rv o.dNum w))).startAccess s.coreNo a
            if converts v.fmt v.c && c.convWaits v then .hold (.access s.co.nextId) t else .done t) s

/-- The bytes of a converting store (R169), and its flags: those of its active lanes alone (R45). [DEDUCED, log 77] -/
def convBytes (c : Ctx) (o : Ops) (v : VAddr) (w src : Nat) : Nat × Nat :=
  let n := 32 * w / blkElems v.fmt v.c
  let db := blkBytes v.fmt v.c
  (List.range n).foldl (fun r b =>
    if blkOn c o v w b = false then r
    else
      let xs := (List.range (blkElems v.fmt v.c)).map (fun i => Fmt.f32.decode (lane src 32 (blkElems v.fmt v.c * b + i)))
      let e := convBlock v.fmt xs
      (r.1 + e.data v.fmt * 256 ^ (db * b) + e.scale * 256 ^ (v.total w + blkScale v.fmt * b), r.2 ||| e.raised (fun i => unitOn c o ((blkElems v.fmt v.c * b + i) / w)))) (0, 0)

/-- VST (R167, R169). -/
def execVst (o : Ops) (s : State) :=
  let w := groupSize o
  issueV (.vst o) o 1 (grp rv o.dNum w ++ addrRegs o) (fun s =>
    let c := s.cx
    let v := vaddr o c
    if noUnit c o then emptyAccess o s
    else match v.trap w 2 with
      | some t => .trap t
      | none => match s.check (.vstore (decide (v.fmt ≤ 1))) (v.parts c o w) with
        | .error t => .trap t
        | .ok es =>
          let src := c.getVs o.dNum w
          let r := if converts v.fmt v.c then convBytes c o v w src else (src, 0)
          if c.traps r.2 then .trap (fpx r.2)
          else .done ((s.setCx (c.addFlags r.2)).startAccess s.coreNo { id := 0, slot := s.cur % 8, kind := .store, ord := ordOf o 6, scope := scopeOf o 6, nc := bit0Of o 6, pieces := es.map (fun e => withData r.1 (pieceOf e)) })) s

/-- The parts of the active elements of a strided access or a gather (R171): element k of n bytes at base + off k. -/
def elemParts (c : Ctx) (o : Ops) (base n : Nat) (off : Nat → Int) : List Part :=
  (((List.range 32).filter (unitOn c o)).map (fun k => cutScalar (n * k) ((base : Int) + off k) n)).flatten

/-- Element offsets: a stride in G[B], or 32-bit lanes of V[B]. -/
def strideOff (o : Ops) (c : Ctx) (k : Nat) : Int := (k : Int) * (c.getG o.bNum).toInt
def laneOff (o : Ops) (c : Ctx) (k : Nat) : Int := sgn (lane (c.getV o.bNum).toNat 32 k) 32

/-- VLDS and VGTH (R171). [DEDUCED, log 26; DESIGN CHOICE, log 90] -/
def gatherOp (i : Instr) (o : Ops) (breg : Nat) (off : Ops → Ctx → Nat → Int) (s : State) : Host.Outcome State Fault Refusal :=
  let w := groupSize o
  issueV i o 1 (grp rv o.dNum w ++ [rg o.aNum, breg]) (fun s =>
    let c := s.cx
    let base := (c.getG o.aNum).toNat
    if fld base 56 8 ≠ 0 then .trap (protEntry 1 6 (fld base 0 56))
    else if noUnit c o then emptyLoad o w s
    else match s.check (.gather true (4 * w)) (elemParts c o base (4 * w) (off o c)) with
      | .error t => .trap t
      | .ok es =>
        let a : Access := { id := 0, slot := s.cur % 8, kind := .load, ord := ordOf o 6, scope := scopeOf o 6, nc := bit0Of o 6, pieces := es.map pieceOf, dest := .vregs o.dNum w }
        .done ((s.setCx (c.marks true a.regs)).startAccess s.coreNo a)) s

/-- The byte that a scatter leaves at a place: that of the last piece that covers it, pieces in order of lanes (R171). -/
def scatterByte (ps : List Piece) (q : Place) (a dflt : Nat) : Nat :=
  ps.foldl (fun b p => if p.place = q ∧ p.pa ≤ a ∧ a < p.pa + p.n then fld p.data (8 * (a - p.pa)) 8 else b) dflt

/-- Overlapping pieces carry the bytes of the higher-numbered lane. -/
def scatterData (ps : List Piece) : List Piece :=
  ps.map (fun p => { p with data := ofBytes ((List.range p.n).map (fun i => scatterByte ps p.place (p.pa + i) 0)) })

/-- VSTS and VSCT (R171). [DEDUCED, log 26; DESIGN CHOICE, log 90] -/
def scatterOp (i : Instr) (o : Ops) (breg : Nat) (off : Ops → Ctx → Nat → Int) (s : State) : Host.Outcome State Fault Refusal :=
  let w := groupSize o
  issueV i o 1 (grp rv o.dNum w ++ [rg o.aNum, breg]) (fun s =>
    let c := s.cx
    let base := (c.getG o.aNum).toNat
    if fld base 56 8 ≠ 0 then .trap (protEntry 2 6 (fld base 0 56))
    else if noUnit c o then emptyAccess o s
    else match s.check (.scatter true (4 * w)) (elemParts c o base (4 * w) (off o c)) with
      | .error t => .trap t
      | .ok es =>
        let src := c.getVs o.dNum w
        .done (s.startAccess s.coreNo { id := 0, slot := s.cur % 8, kind := .store, ord := ordOf o 6, scope := scopeOf o 6, nc := bit0Of o 6, pieces := scatterData (es.map (fun e => withData src (pieceOf e))) })) s

/-- VLDS (R171). -/
def execVlds (o : Ops) (s : State) := gatherOp (.vlds o) o (rg o.bNum) strideOff s
/-- VSTS (R171). -/
def execVsts (o : Ops) (s : State) := scatterOp (.vsts o) o (rg o.bNum) strideOff s
/-- VGTH (R171). -/
def execVgth (o : Ops) (s : State) := gatherOp (.vgth o) o (rv o.bNum) laneOff s
/-- VSCT (R171). -/
def execVsct (o : Ops) (s : State) := scatterOp (.vsct o) o (rv o.bNum) laneOff s

/-- The lowest byte of the active units outside L-memory, or for a write in a retained range (R172). [DEDUCED, log 26; DEDUCED, log 30] -/
def vlmemTrap (c : Ctx) (co : Core) (o : Ops) (ea : Int) (w : Nat) (write : Bool) : Option Trap :=
  (((List.range 32).filter (unitOn c o)).map (fun k => (List.range (4 * w)).map (fun i => ea + (4 * w * k + i : Nat)))).flatten.findSome? (fun a =>
    if a < 0 ∨ (0x18000 : Int) ≤ a then some (localTrap (wrap a 64) 4)
    else if write = true ∧ co.retained a.toNat (a.toNat + 1) = true then some (localTrap a.toNat 5)
    else none)

/-- Does a scoreboard entry cover an active unit of a local access? -/
def unitsBusy (c : Ctx) (co : Core) (o : Ops) (buf : Nat) (ea : Int) (w : Nat) : Bool :=
  (List.range 32).any (fun k => unitOn c o k && co.busy buf (ea + (4 * w * k : Nat)).toNat (ea + (4 * w * (k + 1) : Nat)).toNat)

/-- The bytes of a local buffer with the active units of a group over them. Only the active units need lie in the buffer (R172). [DEDUCED, log 30] -/
def unitsStore (c : Ctx) (o : Ops) (m : Mem) (ea : Int) (w v : Nat) : Mem :=
  (List.range 32).foldl (fun m k => if unitOn c o k then mwrite m (ea + (4 * w * k : Nat)).toNat (4 * w) (fld v (32 * w * k) (32 * w)) else m) m

/-- n bytes from `ea` on, those below address 0 as zeros. [DEDUCED, log 30] -/
def readFrom (m : Mem) (ea : Int) (n : Nat) : Nat := if 0 ≤ ea then mread m ea.toNat n else mread m 0 (n - (-ea).toNat) * 2 ^ (8 * (-ea).toNat)

/-- VLDL (R172). [DEDUCED, log 30] -/
def execVldl (o : Ops) (s : State) :=
  let w := groupSize o
  issueV (.vldl o) o 1 (grp rv o.dNum w ++ addrRegs o) (fun s =>
    let c := s.cx
    let ea := effLocal o c
    match vlmemTrap c s.co o ea w false with
    | some t => .trap t
    | none =>
      if unitsBusy c s.co o 2 ea w then .stall
      else .done (pendResult (vecResult o.dNum w (mergeUnits c o w (c.getVs o.dNum w) (readFrom s.co.lmem ea (128 * w))) 0) (grp rv o.dNum w) s)) s

/-- VSTL (R172). [DEDUCED, log 30] -/
def execVstl (o : Ops) (s : State) :=
  let w := groupSize o
  issueV (.vstl o) o 1 (grp rv o.dNum w ++ addrRegs o) (fun s =>
    let c := s.cx
    let ea := effLocal o c
    match vlmemTrap c s.co o ea w true with
    | some t => .trap t
    | none =>
      if unitsBusy c s.co o 2 ea w then .stall
      else .done (s.setCo { s.co with lmem := unitsStore c o s.co.lmem ea w (c.getVs o.dNum w) })) s

/-- The slot number, 0 to 31 A and 32 to 95 W, and the byte offset of a tile access (R173). -/
def tileAt (o : Ops) : Nat × Nat := (o.bNum + (if bitOf o.imm.toNat 12 then 32 else 0), fld o.imm.toNat 0 12)

/-- VLDT (R173). -/
def execVldt (o : Ops) (s : State) :=
  let w := groupSize o
  issueV (.vldt o) o 1 (grp rv o.dNum w) (fun s =>
    let c := s.cx
    let t := tileAt o
    let r := slotRange t.1
    if s.co.own t.1 ≠ .ctx (s.cur % 8) then .trap (localTrap (r.2 + t.2) 5)
    else if unitsBusy c s.co o r.1 (r.2 + t.2) w then .stall
    else .done (pendResult (vecResult o.dNum w (mergeUnits c o w (c.getVs o.dNum w) (mread (s.co.buf r.1) (r.2 + t.2) (128 * w))) 0) (grp rv o.dNum w) s)) s

/-- VSTT (R173): the slices of the active bytes become stale (R51). -/
def execVstt (o : Ops) (s : State) :=
  let w := groupSize o
  issueV (.vstt o) o 1 (grp rv o.dNum w) (fun s =>
    let c := s.cx
    let t := tileAt o
    let r := slotRange t.1
    if s.co.own t.1 ≠ .ctx (s.cur % 8) then .trap (localTrap (r.2 + t.2) 5)
    else if unitsBusy c s.co o r.1 (r.2 + t.2) w = true ∨ s.co.slotInUse t.1 = true then .stall
    else
      let co := s.co.setBuf r.1 (unitsStore c o (s.co.buf r.1) (r.2 + t.2) w (c.getVs o.dNum w))
      let js := (List.range 8).filter (fun j => (List.range 32).any (fun k => unitOn c o k && decide (t.2 + 4 * w * k < 512 * (j + 1)) && decide (512 * j < t.2 + 4 * w * (k + 1))))
      .done (s.setCo (co.stale t.1 js))) s

/-- VLDC (R174): a row of an accumulator, rounded to FP32 or exact in 64-bit lanes. -/
def execVldc (o : Ops) (s : State) :=
  let w := groupSize o
  issueV (.vldc o) o 1 (grp rv o.dNum w) (fun s =>
    let c := s.cx
    let acc := accRead s o.bNum
    let row := o.imm.toNat
    if accBusy s o.bNum then .stall
    else
      let r := (List.range 32).foldr (fun k (a : Nat × Nat) =>
        let e := acc.get row k
        let x : Nat × Nat := if unitOn c o k = false then (lane (c.getVs o.dNum w) (32 * w) k, 0) else if w = 1 then convert .f32 RNE 0 false (Fmt.a40.decode e) else (e, 0)
        (x.1 % 2 ^ (32 * w) + 2 ^ (32 * w) * a.1, x.2 ||| a.2)) (0, 0)
      if c.traps r.2 then .trap (fpx r.2) else .done (pendResult (vecResult o.dNum w r.1 r.2) (grp rv o.dNum w) s)) s

end Sys2Proof.Machine
end

