-- ==== Sys2Proof/Machine/VectorArith.lean ====
section
/-! DEFINITION. Lane movement and masks, floating-point and integer arithmetic of pages 4 to 6 (R41, R162 to R165, R175 to R186). -/

namespace Sys2Proof.Machine

open Sys2Proof

/-- n lanes of w bits: f where active, `old` elsewhere; and the union of the flags of the active lanes (R45, R162). -/
def runLanes (c : Ctx) (o : Ops) (w n old : Nat) (f : Nat → Nat × Nat) : Nat × Nat :=
  (List.range n).foldr (fun k a =>
    let r := if laneOn c o k then f k else (lane old w k, 0)
    (r.1 % 2 ^ w + 2 ^ w * a.1, r.2 ||| a.2)) (0, 0)

/-- VMOV (R175). -/
def execVmov (o : Ops) (s : State) :=
  let w := groupSize o
  lanewise (.vmov o) o 1 (grp rv o.dNum w ++ grp rv o.aNum w) (fun c => .done (c.setVs o.dNum w (mergeUnits c o w (c.getVs o.dNum w) (c.getVs o.aNum w)))) s

/-- VBCAST (R175): a lane is written when the unit of its low byte is active. -/
def execVbcast (o : Ops) (s : State) :=
  lanewise (.vbcast o) o 1 [rv o.dNum, rg o.bNum] (fun c =>
    let w := 8 * 2 ^ o.imm.toNat
    let old := (c.getV o.dNum).toNat
    let x := pack w (1024 / w) (fun k => if unitOn c o (w * k / 32) then (c.getG o.bNum).toNat else lane old w k)
    .done (c.setV o.dNum (BitVec.ofNat 1024 x))) s

/-- Lane size in bits, lane number and unit of a selector (R175): of a 64-bit lane, the unit of its low byte. [DESIGN CHOICE, log 69] -/
def selOf (o : Ops) : Nat × Nat × Nat :=
  let w := 8 * 2 ^ fld o.imm.toNat 7 2
  let k := fld o.imm.toNat 0 7
  (w, k, w * k / 32)

/-- VEXT (R175). -/
def execVext (o : Ops) (s : State) :=
  lanewise (.vext o) o 1 [rg o.dNum, rv o.bNum] (fun c =>
    let l := selOf o
    .done (if unitOn c o l.2.2 then c.setG o.dNum (BitVec.ofNat 64 (lane (c.getV o.bNum).toNat l.1 l.2.1)) else c)) s

/-- VINS (R175). -/
def execVins (o : Ops) (s : State) :=
  lanewise (.vins o) o 1 [rv o.dNum, rg o.bNum] (fun c =>
    let l := selOf o
    .done (if unitOn c o l.2.2 then c.setV o.dNum (BitVec.ofNat 1024 (setFld (c.getV o.dNum).toNat (l.1 * l.2.1) l.1 (c.getG o.bNum).toNat)) else c)) s

/-- VPERM (R175). -/
def execVperm (o : Ops) (s : State) :=
  lanewise (.vperm o) o 1 [rv o.dNum, rv o.aNum, rv o.bNum] (fun c =>
    let a := (c.getV o.aNum).toNat
    let b := (c.getV o.bNum).toNat
    let old := (c.getV o.dNum).toNat
    .done (c.setV o.dNum (BitVec.ofNat 1024 (pack 32 32 (fun k => if unitOn c o k then lane a 32 (lane b 32 k % 32) else lane old 32 k))))) s

/-- VCOMPR (R175). -/
def execVcompr (o : Ops) (s : State) :=
  lanewise (.vcompr o) o 1 [rv o.dNum, rv o.aNum] (fun c =>
    let a := (c.getV o.aNum).toNat
    let xs := ((List.range 32).filter (unitOn c o)).map (lane a 32)
    .done (c.setV o.dNum (BitVec.ofNat 1024 (pack 32 32 (fun k => (xs[k]?).getD 0))))) s

/-- VMLOG (R176). -/
def execVmlog (o : Ops) (s : State) :=
  lanewise (.vmlog o) o 1 [rm o.dNum, rm o.bNum] (fun c =>
    let d := c.getVm o.dNum
    let b := c.getVm o.bNum
    .done (c.setVm o.dNum (match o.imm with | 0 => d &&& b | 1 => d ||| b | 2 => d ^^^ b | 3 => d &&& ~~~b | 4 => ~~~b | _ => b))) s

/-- VMPOP (R176). -/
def execVmpop (o : Ops) (s : State) :=
  lanewise (.vmpop o) o 1 [rg o.dNum, rm o.aNum] (fun c => .done (c.setG o.dNum (BitVec.ofNat 64 (popcount (c.getVm o.aNum).toNat 32)))) s

/-- VMGET (R176). -/
def execVmget (o : Ops) (s : State) :=
  lanewise (.vmget o) o 1 (if o.imm = 0 then [rg o.dNum, rm o.bNum] else [rm o.dNum, rg o.bNum]) (fun c =>
    .done (if o.imm = 0 then c.setG o.dNum (BitVec.ofNat 64 (c.getVm o.bNum).toNat) else c.setVm o.dNum (BitVec.ofNat 32 (c.getG o.bNum).toNat))) s

/-- Type, format and mode of a page 5 or 7 instruction (R98). -/
def vfTy (o : Ops) : Nat := fld (o.clsOr 0) 0 3
def vfFmt (o : Ops) : Fmt := Fmt.ofTy (vfTy o)
def vfMode (o : Ops) : Nat := fld (o.clsOr 0) 3 3
/-- Lanes of a register, and mask registers. -/
def vfLanes (o : Ops) : Nat := 1024 / (vfFmt o).bits
def vfMaskRegs (o : Ops) : Nat := vfLanes o / 32

/-- Lane k of a register as a number of a format. -/
def fLane (f : Fmt) (c : Ctx) (n k : Nat) : Num := f.decode (lane (c.getV n).toNat f.bits k)

/-- A lanewise result in V[D], with its flags (R45, R46). -/
def vfResult (o : Ops) (c : Ctx) (g : Nat → Nat × Nat) : CtxEff :=
  let f := vfFmt o
  let r := runLanes c o f.bits (vfLanes o) (c.getV o.dNum).toNat g
  flagged c r.2 (c.setV o.dNum (BitVec.ofNat 1024 r.1))

/-- An instruction of page 5 issues when its row has a token for it, and takes it (R382). -/
def tokenwise (i : Instr) (o : Ops) (masks : Nat) (touch : List Nat) (body : State → Eff) (s : State) : Host.Outcome State Fault Refusal :=
  issueV i o masks touch (fun s => match s.charge s.coreNo 1 with
    | none => .stall
    | some t => body t) s

/-- A register-only instruction of page 5. -/
def floatwise (i : Instr) (o : Ops) (masks : Nat) (touch : List Nat) (f : Ctx → CtxEff) (s : State) : Host.Outcome State Fault Refusal :=
  tokenwise i o masks touch (onCtx f) s

/-- An arithmetic instruction of X and Y (R177, R179). -/
def vfBin (i : Instr) (o : Ops) (g : Fmt → Nat → Num → Num → Nat × Nat) (s : State) : Host.Outcome State Fault Refusal :=
  floatwise i o (vfMaskRegs o) (vxyRegs o 1) (fun c =>
    let xy := xyNum o
    vfResult o c (fun k => g (vfFmt o) (vfMode o) (fLane (vfFmt o) c xy.1 k) (fLane (vfFmt o) c xy.2 k))) s

/-- The same with a delayed result: the flags arrive with it; a trap is taken at issue (R46, R104). -/
def vfLate (i : Instr) (o : Ops) (regs : List Nat) (g : Ctx → Nat → Nat × Nat) (s : State) : Host.Outcome State Fault Refusal :=
  tokenwise i o (vfMaskRegs o) regs (fun s =>
    let c := s.cx
    let r := runLanes c o (vfFmt o).bits (vfLanes o) (c.getV o.dNum).toNat (g c)
    if c.traps r.2 then .trap (fpx r.2) else .done (pendResult (vecResult o.dNum 1 r.1 r.2) [rv o.dNum] s)) s

/-- VFADD (R177). -/
def execVfadd (o : Ops) (s : State) := vfBin (.vfadd o) o fAdd s
/-- VFSUB (R177). -/
def execVfsub (o : Ops) (s : State) := vfBin (.vfsub o) o fSub s
/-- VFMUL (R177). -/
def execVfmul (o : Ops) (s : State) := vfBin (.vfmul o) o fMul s

/-- VFMA and VFNMA: ±(A·B) + D (R177). -/
def vfMulAdd (i : Instr) (o : Ops) (negate : Bool) (s : State) : Host.Outcome State Fault Refusal :=
  floatwise i o (vfMaskRegs o) [rv o.dNum, rv o.aNum, rv o.bNum] (fun c =>
    let l := fLane (vfFmt o) c
    vfResult o c (fun k => fFma (vfFmt o) (vfMode o) negate (l o.aNum k) (l o.bNum k) (l o.dNum k))) s

/-- VFMA (R177). -/
def execVfma (o : Ops) (s : State) := vfMulAdd (.vfma o) o false s
/-- VFNMA (R177). -/
def execVfnma (o : Ops) (s : State) := vfMulAdd (.vfnma o) o true s

/-- D + a·b + a'·b' with one rounding to FP32 (R178). -/
def dotLane (mode : Nat) (a b a' b' d : Num) : Nat × Nat :=
  let p := exactMul a b
  let q := exactMul a' b'
  let e : Num × Nat := if p.2 ||| q.2 ≠ 0 then (.nan false (2 ^ 30) false, NV) else exactSum mode [p.1, q.1, d]
  deliver .f32 mode [a, b, a', b', d] e

/-- VFDOT (R178). [DEDUCED, log 20] -/
def execVfdot (o : Ops) (s : State) :=
  floatwise (.vfdot o) o 1 [rv o.dNum, rv o.aNum, rv o.bNum] (fun c =>
    let l := fLane (vfFmt o) c
    let old := (c.getV o.dNum).toNat
    let r := runLanes c o 32 32 old (fun k => dotLane (vfMode o) (l o.aNum (2 * k)) (l o.bNum (2 * k)) (l o.aNum (2 * k + 1)) (l o.bNum (2 * k + 1)) (Fmt.f32.decode (lane old 32 k)))
    flagged c r.2 (c.setV o.dNum (BitVec.ofNat 1024 r.1))) s

/-- VFMIN (R179). -/
def execVfmin (o : Ops) (s : State) := vfBin (.vfmin o) o (fun f _ a b => fMinMax f false a b) s
/-- VFMAX (R179). -/
def execVfmax (o : Ops) (s : State) := vfBin (.vfmax o) o (fun f _ a b => fMinMax f true a b) s

/-- VFABS and VFNEG: the sign bit of each lane (R179). -/
def vfSign (i : Instr) (o : Ops) (g : Nat → Nat → Nat) (s : State) : Host.Outcome State Fault Refusal :=
  floatwise i o (vfMaskRegs o) [rv o.dNum, rv o.aNum] (fun c =>
    let w := (vfFmt o).bits
    vfResult o c (fun k => (g (2 ^ (w - 1)) (lane (c.getV o.aNum).toNat w k), 0))) s

/-- VFABS (R179). -/
def execVfabs (o : Ops) (s : State) := vfSign (.vfabs o) o (fun top x => x % top) s
/-- VFNEG (R179). -/
def execVfneg (o : Ops) (s : State) := vfSign (.vfneg o) o (fun top x => x ^^^ top) s

/-- VFDIV (R177). -/
def execVfdiv (o : Ops) (s : State) :=
  vfLate (.vfdiv o) o (vxyRegs o 1) (fun c k => fDiv (vfFmt o) (vfMode o) (fLane (vfFmt o) c (xyNum o).1 k) (fLane (vfFmt o) c (xyNum o).2 k)) s
/-- VFSQRT (R180). -/
def execVfsqrt (o : Ops) (s : State) :=
  vfLate (.vfsqrt o) o [rv o.dNum, rv o.aNum] (fun c k => fSqrt (vfFmt o) (vfMode o) (fLane (vfFmt o) c o.aNum k)) s
/-- VFRSQ (R180). -/
def execVfrsq (o : Ops) (s : State) :=
  vfLate (.vfrsq o) o [rv o.dNum, rv o.aNum] (fun c k => fRsqrt (vfFmt o) (vfMode o) (fLane (vfFmt o) c o.aNum k)) s

/-- The mask registers that a compare writes; a group based at `vm0` takes nothing. -/
def maskGroup (o : Ops) (n : Nat) : List Nat := if o.dNum = 0 then [] else grp rm o.dNum (n / 32)

/-- VFCMP (R181). -/
def execVfcmp (o : Ops) (s : State) :=
  let f := Fmt.ofTy (fld (o.clsOr 0) 4 2)
  let n := 1024 / f.bits
  floatwise (.vfcmp o) o (n / 32) (maskGroup o n ++ [rv o.aNum, rv o.bNum]) (fun c =>
    let g (k : Nat) := fCond (16 + fld (o.clsOr 0) 0 4) (fLane f c o.aNum k) (fLane f c o.bNum k)
    flagged c (laneFlags c o n (fun k => (g k).2)) (maskWrite c o n (fun k => (g k).1))) s

/-- One level of the tree of R41: adjacent values are combined. -/
def treeLevel (f : Nat → Nat → Nat × Nat) : List Nat → List Nat × Nat
  | a :: b :: r => let x := f a b; let t := treeLevel f r; (x.1 :: t.1, x.2 ||| t.2)
  | l => (l, 0)

/-- The tree of R41 over 2^levels values. -/
def treeSum (f : Nat → Nat → Nat × Nat) : Nat → List Nat → Nat × Nat
  | 0, l => (l.headD 0, 0)
  | n + 1, l => let x := treeLevel f l; let t := treeSum f n x.1; (t.1, x.2 ||| t.2)

/-- VFRED (R182). -/
def execVfred (o : Ops) (s : State) :=
  floatwise (.vfred o) o (vfMaskRegs o) [rg o.dNum, rv o.aNum] (fun c =>
    let m := vfMode o
    let ls := (List.range (vfLanes o)).map (fun k => if laneOn c o k then convert .f32 RNE 0 false (fLane (vfFmt o) c o.aNum k) else (if m = RDN then 0 else 2 ^ 31, 0))
    let t := treeSum (fun a b => fAdd .f32 m (Fmt.f32.decode a) (Fmt.f32.decode b)) (Nat.log2 (vfLanes o)) (ls.map (fun x => x.1))
    flagged c (ls.foldl (fun a x => a ||| x.2) t.2) (c.setG o.dNum (BitVec.ofNat 64 t.1))) s

/-- VFRMAX over the active lanes, in order (R182): index and FP32 value. -/
def fRedMax (xs : List (Nat × Num)) : Nat × Nat :=
  match xs.find? (fun e => e.2.isNan) with
  | some e => (e.1, pat .f32 e.2)
  | none => match xs with
    | [] => (0x7F, 0xFF800000)
    | x :: r => let b := r.foldl (fun (b : Nat × Num) e => if b.2.lt e.2 then e else b) x
      (b.1, pat .f32 b.2)

/-- VFRMAX (R182). -/
def execVfrmax (o : Ops) (s : State) :=
  floatwise (.vfrmax o) o (vfMaskRegs o) [rg o.dNum, rv o.aNum] (fun c =>
    let xs := ((List.range (vfLanes o)).filter (laneOn c o)).map (fun k => (k, fLane (vfFmt o) c o.aNum k))
    let r := fRedMax xs
    flagged c ((firstNan (xs.map (fun e => e.2))).elim 0 (fun e => e.2)) (c.setG o.dNum (BitVec.ofNat 64 (r.1 * 2 ^ 32 + r.2)))) s

/-- VFSCL (R183). -/
def execVfscl (o : Ops) (s : State) :=
  floatwise (.vfscl o) o (vfMaskRegs o) (if o.hasOpnd then [rv o.dNum, rv o.aNum, rg o.bNum] else [rv o.dNum, rg o.aNum]) (fun c =>
    let n := (c.getG (if o.hasOpnd then o.bNum else o.aNum)).toInt
    let x := if o.hasOpnd then o.aNum else o.dNum
    vfResult o c (fun k => convert (vfFmt o) (vfMode o) 0 false ((fLane (vfFmt o) c x k).scale n))) s

/-- Type, lane size, signedness and `.sat` of a page 6 instruction (R98). [DEDUCED, log 17] -/
def viTy (o : Ops) : Nat := fld (o.clsOr 2) 0 3
def viBits (o : Ops) : Nat := intBits (viTy o)
def viSigned (o : Ops) : Bool := intSigned (viTy o)
def viSat (o : Ops) : Bool := bitOf (o.clsOr 2) 5
/-- Registers of an operand, lanes, and mask registers. [DEDUCED, log 17] -/
def viRegs (o : Ops) : Nat := if viBits o = 64 then 2 else 1
def viLanes (o : Ops) : Nat := 1024 * viRegs o / viBits o
def viMaskRegs (o : Ops) : Nat := viLanes o / 32

/-- Lane k of an operand as a pattern, and as an integer of the type. -/
def iLane (o : Ops) (c : Ctx) (n k : Nat) : Nat := lane (c.getVs n (viRegs o)) (viBits o) k
def iVal (o : Ops) (c : Ctx) (n k : Nat) : Int := intVal (viTy o) (iLane o c n k)

/-- A lanewise integer result in D, with its flags. -/
def viResult (o : Ops) (c : Ctx) (g : Nat → Nat × Nat) : CtxEff :=
  let r := runLanes c o (viBits o) (viLanes o) (c.getVs o.dNum (viRegs o)) g
  flagged c r.2 (c.setVs o.dNum (viRegs o) r.1)

/-- An elementwise integer instruction of X and Y as patterns (R184). -/
def viBin (i : Instr) (o : Ops) (g : Nat → Nat → Nat × Nat) (s : State) : Host.Outcome State Fault Refusal :=
  lanewise i o (viMaskRegs o) (vxyRegs o (viRegs o)) (fun c =>
    let xy := xyNum o
    viResult o c (fun k => g (iLane o c xy.1 k) (iLane o c xy.2 k))) s

/-- An exact result of two integers, wrapped or clamped (R43). -/
def viArith (o : Ops) (f : Int → Int → Int) (x y : Nat) : Nat × Nat := intResult (viSat o) (viBits o) (viSigned o) (f (intVal (viTy o) x) (intVal (viTy o) y))

/-- VADD (R184). -/
def execVadd (o : Ops) (s : State) := viBin (.vadd o) o (viArith o (fun x y => x + y)) s
/-- VSUB (R184). -/
def execVsub (o : Ops) (s : State) := viBin (.vsub o) o (viArith o (fun x y => x - y)) s
/-- VMUL (R184). -/
def execVmul (o : Ops) (s : State) := viBin (.vmul o) o (viArith o (fun x y => x * y)) s
/-- VMULH (R184). -/
def execVmulh (o : Ops) (s : State) := viBin (.vmulh o) o (viArith o (fun x y => x * y / (2 ^ viBits o : Nat))) s
/-- VMIN (R184). -/
def execVmin (o : Ops) (s : State) := viBin (.vmin o) o (viArith o (fun x y => min x y)) s
/-- VMAX (R184). -/
def execVmax (o : Ops) (s : State) := viBin (.vmax o) o (viArith o (fun x y => max x y)) s
/-- VAND (R184). -/
def execVand (o : Ops) (s : State) := viBin (.vand o) o (fun x y => (x &&& y, 0)) s
/-- VOR (R184). -/
def execVor (o : Ops) (s : State) := viBin (.vor o) o (fun x y => (x ||| y, 0)) s
/-- VXOR (R184). -/
def execVxor (o : Ops) (s : State) := viBin (.vxor o) o (fun x y => (x ^^^ y, 0)) s
/-- VSHL (R184): a count of w or more leaves 0, or clamps any value but 0. -/
def execVshl (o : Ops) (s : State) := viBin (.vshl o) o (fun x y => intResult (viSat o) (viBits o) (viSigned o) (intVal (viTy o) x * (2 ^ min y (viBits o) : Nat))) s
/-- VSHR (R184). -/
def execVshr (o : Ops) (s : State) := viBin (.vshr o) o (fun x y => (x / 2 ^ min y (viBits o), 0)) s
/-- VSAR (R184). -/
def execVsar (o : Ops) (s : State) := viBin (.vsar o) o (fun x y => (wrap (sgn x (viBits o) / (2 ^ min y (viBits o) : Nat)) (viBits o), 0)) s

/-- VCMP (R185). [DEDUCED, log 17] -/
def execVcmp (o : Ops) (s : State) :=
  let sz := fld (o.clsOr 0) 0 2
  let w := match sz with | 0 => 32 | 1 => 16 | 2 => 8 | _ => 64
  let r := if sz = 3 then 2 else 1
  let n := 1024 * r / w
  lanewise (.vcmp o) o (n / 32) (maskGroup o n ++ grp rv o.aNum r ++ grp rv o.bNum r) (fun c =>
    let x := c.getVs o.aNum r
    let y := c.getVs o.bNum r
    .done (maskWrite c o n (fun k => iCond (fld (o.clsOr 0) 2 4) (lane x w k) (lane y w k) w))) s

/-- VSEL (R185): every lane is written. -/
def execVsel (o : Ops) (s : State) :=
  lanewise (.vsel o) o (viMaskRegs o) (grp rv o.dNum (viRegs o) ++ grp rv o.aNum (viRegs o) ++ grp rv o.bNum (viRegs o)) (fun c =>
    .done (c.setVs o.dNum (viRegs o) (pack (viBits o) (viLanes o) (fun k => iLane o c (if laneOn c o k then o.aNum else o.bNum) k)))) s

/-- VABS (R184). -/
def execVabs (o : Ops) (s : State) :=
  lanewise (.vabs o) o (viMaskRegs o) (grp rv o.dNum (viRegs o) ++ grp rv o.aNum (viRegs o)) (fun c =>
    viResult o c (fun k => let x := iVal o c o.aNum k; intResult (viSat o) (viBits o) (viSigned o) (if x < 0 then -x else x))) s

/-- VRED (R186). -/
def execVred (o : Ops) (s : State) :=
  lanewise (.vred o) o (viMaskRegs o) (rg o.dNum :: grp rv o.aNum (viRegs o)) (fun c =>
    let ls := (List.range (viLanes o)).map (fun k => if laneOn c o k then iLane o c o.aNum k else 0)
    let t := treeSum (viArith o (fun x y => x + y)) (Nat.log2 (viLanes o)) ls
    flagged c t.2 (c.setG o.dNum (if viSigned o then sext t.1 (viBits o) else zext t.1 (viBits o)))) s

/-- VIDX (R186). -/
def execVidx (o : Ops) (s : State) :=
  lanewise (.vidx o) o (viMaskRegs o) (grp rv o.dNum (viRegs o) ++ (if o.hasOpnd then [rg o.aNum, rg o.bNum] else [rg o.aNum])) (fun c =>
    let a := (c.getG o.aNum).toNat
    let st := if o.hasOpnd then (c.getG o.bNum).toNat else 1
    viResult o c (fun k => (a + k * st, 0))) s

/-- VDOT4 (R186). [DEDUCED, log 17] -/
def execVdot4 (o : Ops) (s : State) :=
  lanewise (.vdot4 o) o 1 [rv o.dNum, rv o.aNum, rv o.bNum] (fun c =>
    let sg := viSigned o
    let v (n w k : Nat) : Int := let x := lane (c.getV n).toNat w k; if sg then sgn x w else x
    let r := runLanes c o 32 32 (c.getV o.dNum).toNat (fun k =>
      intResult (viSat o) 32 sg ((List.range 4).foldl (fun (t : Int) j => t + v o.aNum 8 (4 * k + j) * v o.bNum 8 (4 * k + j)) (v o.dNum 32 k)))
    flagged c r.2 (c.setV o.dNum (BitVec.ofNat 1024 r.1))) s

end Sys2Proof.Machine
end

