-- ==== Sys2Proof/Machine/Convert.lean ====
section
/-! DEFINITION. Conversion instructions of page 7: float formats, integers, packing, and dual-exponent blocks in registers (R34, R38, R44,
R166, R187 to R191). -/

namespace Sys2Proof.Machine

open Sys2Proof

/-- Registers of the FP32 side of a conversion to or from 16-bit or 8-bit lanes (R187). -/
def wideRegs (o : Ops) : Nat := 32 / (vfFmt o).bits

/-- VCVTF (R187). -/
def execVcvtf (o : Ops) (s : State) :=
  lanewise (.vcvtf o) o (vfMaskRegs o) (rv o.dNum :: grp rv o.aNum (wideRegs o)) (fun c =>
    let f := vfFmt o
    let m := vfMode o
    let src := c.getVs o.aNum (wideRegs o)
    let seed := (c.getSd o.bNum).toNat
    let r := runLanes c o f.bits (vfLanes o) (c.getV o.dNum).toNat (fun k => convert f m (mix seed k) false (Fmt.f32.decode (lane src 32 k)))
    let t := c.setV o.dNum (BitVec.ofNat 1024 r.1)
    flagged c r.2 (if m = RS then t.setSd o.bNum (BitVec.ofNat 32 (seedNext seed)) else t)) s

/-- VUNPK (R187). -/
def execVunpk (o : Ops) (s : State) :=
  lanewise (.vunpk o) o (vfMaskRegs o) (rv o.aNum :: grp rv o.dNum (wideRegs o)) (fun c =>
    let w := wideRegs o
    let r := runLanes c o 32 (vfLanes o) (c.getVs o.dNum w) (fun k => convert .f32 RNE 0 false (fLane (vfFmt o) c o.aNum k))
    flagged c r.2 (c.setVs o.dNum w r.1)) s

/-- Source register and signedness of VCVTI and VCVTFI (R188): an immediate of 1 selects `.n32` and moves the source to B. -/
def cvtSrc (o : Ops) : Nat × Bool := if o.hasImm then (o.bNum, false) else (o.aNum, true)

/-- A conversion of 32 lanes of 32 bits (R188). -/
def cvtOp (i : Instr) (o : Ops) (g : Nat → Nat × Nat) (s : State) : Host.Outcome State Fault Refusal :=
  lanewise i o 1 [rv o.dNum, rv (cvtSrc o).1] (fun c =>
    let src := (c.getV (cvtSrc o).1).toNat
    let r := runLanes c o 32 32 (c.getV o.dNum).toNat (fun k => g (lane src 32 k))
    flagged c r.2 (c.setV o.dNum (BitVec.ofNat 1024 r.1))) s

/-- VCVTI (R188). -/
def execVcvti (o : Ops) (s : State) :=
  cvtOp (.vcvti o) o (fun x => convert .f32 (vfMode o) 0 false (Num.ofInt (if (cvtSrc o).2 then sgn x 32 else x))) s

/-- VCVTFI (R188). -/
def execVcvtfi (o : Ops) (s : State) :=
  cvtOp (.vcvtfi o) o (fun x => let r := toInteger (vfMode o) 32 (cvtSrc o).2 (Fmt.f32.decode x); (wrap r.1 32, r.2)) s

/-- VPACK (R188). -/
def execVpack (o : Ops) (s : State) :=
  let w := if o.imm ≤ 1 then 8 else 16
  let regs := 32 / w
  let signed := o.imm % 2 == 0
  lanewise (.vpack o) o (4 * 8 / w) (rv o.dNum :: grp rv o.bNum regs) (fun c =>
    let src := c.getVs o.bNum regs
    let r := runLanes c o w (1024 / w) (c.getV o.dNum).toNat (fun k => intResult true w signed (sgn (lane src 32 k) 32))
    flagged c r.2 (c.setV o.dNum (BitVec.ofNat 1024 r.1))) s

/-- A dual-exponent block in a register (R189). -/
def dbRegister (db8 : Bool) (b : Block) : Vec :=
  BitVec.ofNat 1024 (b.data (if db8 then 6 else 7) + b.e0 * 256 ^ 32 + b.e1 * 256 ^ 33)

/-- Does the type field select DB8 (R166)? -/
def isDb8 (o : Ops) : Bool := vfTy o == 0

/-- VQDB (R189). -/
def execVqdb (o : Ops) (s : State) :=
  lanewise (.vqdb o) o 1 [rv o.dNum, rv o.aNum, rg o.bNum] (fun c =>
    let xs := (List.range 32).map (fun k => if laneOn c o k then fLane .f32 c o.aNum k else .fin false 0 0)
    let a := if o.bNum = 0 then absMax (xs.filter (fun x => !x.isNan)) else magOf (Fmt.f32.decode (fld (c.getG o.bNum).toNat 0 32))
    let b := dbBlock (isDb8 o) a xs
    flagged c (b.raised (laneOn c o)) (c.setV o.dNum (dbRegister (isDb8 o) b))) s

/-- VDQDB (R189). An element under E1 = 0xFF that is 2^128 or more does not fit FP32, and is rounded by R36. [DEDUCED, log 76] -/
def execVdqdb (o : Ops) (s : State) :=
  lanewise (.vdqdb o) o 1 [rv o.dNum, rv o.aNum] (fun c =>
    let src := (c.getV o.aNum).toNat
    let r := runLanes c o 32 32 (c.getV o.dNum).toNat (fun k => match convElem (if isDb8 o then 6 else 7) 2 32 src k with
      | none => (Fmt.canon .f32, 0)
      | some x => convert .f32 RNE 0 false x)
    flagged c r.2 (c.setV o.dNum (BitVec.ofNat 1024 r.1))) s

/-- VBMAX (R189). A signalling NaN in an active lane raises NV (R25). [DEDUCED, log 96] -/
def execVbmax (o : Ops) (s : State) :=
  lanewise (.vbmax o) o 1 [rg o.dNum, rv o.aNum] (fun c =>
    let xs := ((List.range 32).filter (laneOn c o)).map (fLane .f32 c o.aNum)
    let m := if xs.any (fun x => x.isNan) then Fmt.canon .f32 else pat .f32 (absMax xs)
    flagged c ((firstNan xs).elim 0 (fun e => e.2)) (c.setG o.dNum (BitVec.ofNat 64 m))) s

/-- VQF8 (R190). -/
def execVqf8 (o : Ops) (s : State) :=
  lanewise (.vqf8 o) o 4 (rv o.dNum :: rg o.bNum :: grp rv o.aNum 4) (fun c =>
    let e := fld (c.getG o.bNum).toNat 0 8
    let src := c.getVs o.aNum 4
    let r := runLanes c o 8 128 (c.getV o.dNum).toNat (fun k =>
      if e = 255 then (0, 0) else convert (vfFmt o) (vfMode o) 0 true ((Fmt.f32.decode (lane src 32 k)).scale (127 - (e : Int))))
    flagged c r.2 (c.setV o.dNum (BitVec.ofNat 1024 r.1))) s

/-- BADDRQ (R191): the flags are those of its active lanes (R45). [DEDUCED, log 77] -/
def execBaddrq (o : Ops) (s : State) :=
  lanewise (.baddrq o) o 1 [rv o.dNum, rv o.aNum, rv o.bNum] (fun c =>
    if (List.range 32).all (fun k => !laneOn c o k) then .done c
    else
      let el (n k : Nat) := convElem 6 2 32 (c.getV n).toNat k
      let sums := (List.range 32).map (fun k => match el o.aNum k, el o.bNum k with
        | some x, some y => (exactSum RNE [x, y]).1
        | _, _ => .inf false)
      let b := dbBlock true (absMax sums) sums
      flagged c (b.raised (laneOn c o)) (c.setV o.dNum (dbRegister true b))) s

end Sys2Proof.Machine
end

