-- ==== Sys2Proof/Machine/Control.lean ====
section
/-! DEFINITION. Control transfers, hardware loops, YIELD, HALT, TRAP and BRK (R124 to R129, R135, R136, R253). -/

namespace Sys2Proof.Machine

open Sys2Proof

/-- A taken BR, JMP or RET ends each active level, not suspended, whose body does not hold the target (R129). -/
def Ctx.leaveLoops (c : Ctx) (target : Word) : Ctx :=
  let one (c : Ctx) (k : Nat) : Ctx :=
    let l := c.loop k
    if l.lc = 0 ∨ c.suspended k = true ∨ (l.ls.toNat ≤ target.toNat ∧ target.toNat ≤ l.le.toNat) then c
    else c.setLoop k { l with lc := 0 }
  one (one c 0) 1

/-- A transfer to `target` (R124): an odd target traps ALIGN. -/
def transfer (target : Word) (c : Ctx) : CtxEff :=
  if target.getLsbD 0 then .trap (trapAt 3 target.toNat (info 15 15 0)) else .jump c target

/-- A target: bits 55:0 of a register, or of PC + IMM. [DEDUCED, log 14] -/
def regTarget (x : Word) : Word := BitVec.ofNat 64 (fld x.toNat 0 56)

/-- BR (R124). [DEDUCED, log 14] -/
def execBr (o : Ops) (s : State) :=
  scalar (.br o) o [] (fun c => let t := regTarget (c.pc + wordOf o.imm); transfer t (c.leaveLoops t)) s

/-- CALL (R124): the target register is read before the link register is written. [DEDUCED, log 14] -/
def execCall (o : Ops) (s : State) :=
  scalar (.call o) o (if o.hasImm then [rg o.dNum] else [rg o.dNum, rg o.aNum]) (fun c =>
    let t := regTarget (if o.hasImm then c.pc + wordOf o.imm else c.getG o.aNum)
    transfer t (c.setG o.dNum (c.npc (.call o)))) s

/-- RET (R124). [DEDUCED, log 14] -/
def execRet (o : Ops) (s : State) :=
  scalar (.ret o) o [rg o.aNum] (fun c => let t := regTarget (c.getG o.aNum); transfer t (c.leaveLoops t)) s

/-- JMP (R124). [DEDUCED, log 14] -/
def execJmp (o : Ops) (s : State) :=
  scalar (.jmp o) o [rg o.aNum] (fun c => let t := regTarget (c.getG o.aNum); transfer t (c.leaveLoops t)) s

/-- LOOP (R126): the count register is in B, so without OPND it is `g0`. It is no transfer (R127), so what a level at its own address holds is discarded (R128);
no level that is active can decide there. [DEDUCED, log 15] -/
def execLoop (o : Ops) (s : State) :=
  scalar (.loop o) o [rg o.bNum] (fun c =>
    let k := o.dNum
    let npc := c.npc (.loop o)
    let last := regTarget (npc + wordOf o.imm)
    let n := c.getG o.bNum
    if c.l0.lc ≠ 0 ∨ (k = 1 ∧ c.l1.lc ≠ 0) then .trap (ill 7)
    else if k = 0 ∧ c.l1.lc ≠ 0 ∧ c.l1.le.toNat < npc.toNat + o.imm.toNat then .trap (ill 7)
    else
      let c := (c.loopBack (c.pc + BitVec.ofNat 64 (2 * (Instr.loop o).words - 2))).setLoop k { lc := n, ls := regTarget npc, le := last }
      if n = 0 then .jump c (last + 2) else .jump c npc) s

/-- YIELD (R125): not ready for 8 issue slots, or until every other context that was ready has issued once. The step that issues
this instruction keeps of these contexts those that were ready. [DEDUCED, log 41] -/
def execYield (o : Ops) (s : State) :=
  issue (.yield o) o [] (fun s =>
    let others := (State.slotsOf s.coreNo).filter (fun k => k != s.cur && (s.ctx k).occ)
    .done (s.setCx { s.cx with yld := some (8, others) })) s

/-- control.prio of a record (R11), 0 when it cannot be read. [DESIGN CHOICE, log 40] -/
def State.recPrio (s : State) (core : Nat) (t : Trans) (rcd : Word) : Nat :=
  fld ((s.readVa core t (fld rcd.toNat 0 56 + 24) 8).getD 0) 0 2

/-- Have the results of the current context come (R107), and that of a BARMX to `g0`, which no pending bit shows and which its accesses wait for? [DEDUCED, log 25] -/
def State.resultsBack (s : State) : Bool := s.cx.drained && !s.co.awaitsMx (s.cur % 8)

/-- HALT (R135): CKMISS first, then the wait for pending results (R107). [DEDUCED, log 62] -/
def execHalt (o : Ops) (s : State) :=
  issue (.halt o) o [] (fun s =>
    if s.atCheckpoint = false then .trap s.ckTrap
    else if s.resultsBack = false then .stall
    else .gone (s.endContext s.cur)) s

/-- HALT.retain (R15, R135). The read of the successor's priority waits for a block that is BUSY (R81). [DEDUCED, log 25; DEDUCED, log 62] -/
def execHaltRetain (o : Ops) (s : State) :=
  issue (.haltRetain o) o [rg o.aNum, rg o.bNum] (fun s =>
    let c := s.cx
    let rcd := regTarget (c.getG o.aNum)
    let r := (c.getG o.bNum).toNat
    let lo := fld r 0 17
    let len := fld r 32 17
    if s.atCheckpoint = false then .trap s.ckTrap
    else if rcd.toNat % 64 ≠ 0 then .trap (trapAt 3 rcd.toNat (info 15 15 0))
    else if fld r 17 15 ≠ 0 ∨ fld r 49 15 ≠ 0 then .trap (protEntry 15 7 0)
    else if len ≠ 0 ∧ 0x18000 < lo + len then .trap (protEntry 15 4 (max lo 0x18000))
    else if s.resultsBack = false ∨ s.bytesFree s.coreNo c.trans (fld rcd.toNat 0 56 + 24) 8 = false then .stall
    else
      let slot := s.cur % 8
      let tcs := (List.range 32).filterMap (fun n => (vget c.tc n none).map (fun p => (n, p)))
      let co := s.co.entitle slot c.uid
      let co := (List.range 96).foldl (fun co n => if co.own n = .ctx slot then co.setOwn n (.kept rcd) else co) co
      let co := (List.range 32).foldl (fun co n => if (co.acc n).own = .ctx slot then co.setAcc n { co.acc n with own := .kept rcd } else co) co
      let s := s.setCo { co with kept := co.kept ++ [{ rcd, uid := c.uid, tc := tcs, lo, len }], ss := tdel co.ss c.uid, exch := co.exch.filter (· != c.uid) }
      let s := s.pushDeque s.coreNo { rcd, dc := c.dc, prio := s.recPrio s.coreNo c.trans rcd }
      .gone (s.freeCtx s.cur)) s

/-- TRAP (R136): the handler is entered with `xpc` at the next chain. -/
def execTrap (o : Ops) (s : State) :=
  scalar (.trap o) o [] (fun c => .trap { cause := 16, xinfo := BitVec.ofNat 64 (2 ^ 63 + o.imm.toNat), xpc := some (c.npc (.trap o)) }) s

/-- BRK (R253). -/
def execBrk (o : Ops) (s : State) :=
  scalar (.brk o) o [] (fun _ => .trap { cause := 16, xinfo := BitVec.ofNat 64 ((Instr.brk o).words * 2 ^ 48 + o.imm.toNat) }) s

end Sys2Proof.Machine
end

