-- ==== Sys2Proof/Machine/Scalar.lean ====
section
/-! DEFINITION. Scalar, predicate, loop-register and pointer instructions of pages 0 and 1 (R113 to R123, R128, R130). -/

namespace Sys2Proof.Machine

open Sys2Proof

/-- An ALU instruction: G[D] ← result(X, Y) (R114). -/
def aluOp (i : Instr) (o : Ops) (f : Word → Word → Word) (s : State) : Host.Outcome State Fault Refusal :=
  scalar i o (aluRegs o) (fun c => .done (c.setG o.dNum (f (aluXY o c).1 (aluXY o c).2))) s

/-- A one-operand instruction: G[D] ← f(G[A]) (R117). -/
def oneOp (i : Instr) (o : Ops) (f : Word → Word) (s : State) : Host.Outcome State Fault Refusal :=
  scalar i o [rg o.dNum, rg o.aNum] (fun c => .done (c.setG o.dNum (f (c.getG o.aNum)))) s

/-- NOP (R125). -/
def execNop (o : Ops) (s : State) := scalar (.nop o) o [] (fun c => .done c) s

/-- MOV (R117). -/
def execMov (o : Ops) (s : State) := oneOp (.mov o) o (fun x => x) s

/-- MOVI (R120). -/
def execMovi (o : Ops) (s : State) := scalar (.movi o) o [rg o.dNum] (fun c => .done (c.setG o.dNum (wordOf o.imm))) s

/-- The results of R115. -/
def resAdd (x y : Word) : Word := x + y
def resSub (x y : Word) : Word := x - y
def resAnd (x y : Word) : Word := x &&& y
def resOr (x y : Word) : Word := x ||| y
def resXor (x y : Word) : Word := x ^^^ y
def resAndn (x y : Word) : Word := x &&& ~~~y
def resShl (x y : Word) : Word := x <<< (y.toNat % 64)
def resShr (x y : Word) : Word := x >>> (y.toNat % 64)
def resSar (x y : Word) : Word := x.sshiftRight (y.toNat % 64)
def resMul (x y : Word) : Word := x * y
def resMulh (x y : Word) : Word := BitVec.ofInt 64 (x.toInt * y.toInt / 2 ^ 64)
def resMulhn (x y : Word) : Word := BitVec.ofNat 64 (x.toNat * y.toNat / 2 ^ 64)
def resRol (x y : Word) : Word := x.rotateLeft (y.toNat % 64)
def resRor (x y : Word) : Word := x.rotateRight (y.toNat % 64)
def resMin (x y : Word) : Word := if x.toInt ≤ y.toInt then x else y
def resMax (x y : Word) : Word := if x.toInt ≤ y.toInt then y else x
def resMinn (x y : Word) : Word := if x.toNat ≤ y.toNat then x else y
def resMaxn (x y : Word) : Word := if x.toNat ≤ y.toNat then y else x

/-- ADD (R115). -/
def execAdd (o : Ops) (s : State) := aluOp (.add o) o resAdd s
/-- SUB (R115). -/
def execSub (o : Ops) (s : State) := aluOp (.sub o) o resSub s
/-- AND (R115). -/
def execAnd (o : Ops) (s : State) := aluOp (.and o) o resAnd s
/-- OR (R115). -/
def execOr (o : Ops) (s : State) := aluOp (.or o) o resOr s
/-- XOR (R115). -/
def execXor (o : Ops) (s : State) := aluOp (.xor o) o resXor s
/-- ANDN (R115). -/
def execAndn (o : Ops) (s : State) := aluOp (.andn o) o resAndn s
/-- SHL (R115). -/
def execShl (o : Ops) (s : State) := aluOp (.shl o) o resShl s
/-- SHR (R115). -/
def execShr (o : Ops) (s : State) := aluOp (.shr o) o resShr s
/-- SAR (R115). -/
def execSar (o : Ops) (s : State) := aluOp (.sar o) o resSar s
/-- MUL (R115). -/
def execMul (o : Ops) (s : State) := aluOp (.mul o) o resMul s
/-- MULH (R115). -/
def execMulh (o : Ops) (s : State) := aluOp (.mulh o) o resMulh s
/-- MULHN (R115). -/
def execMulhn (o : Ops) (s : State) := aluOp (.mulhn o) o resMulhn s
/-- ROL (R115). -/
def execRol (o : Ops) (s : State) := aluOp (.rol o) o resRol s
/-- ROR (R115). -/
def execRor (o : Ops) (s : State) := aluOp (.ror o) o resRor s
/-- MIN (R115). -/
def execMin (o : Ops) (s : State) := aluOp (.min o) o resMin s
/-- MAX (R115). -/
def execMax (o : Ops) (s : State) := aluOp (.max o) o resMax s
/-- MINN (R115). -/
def execMinn (o : Ops) (s : State) := aluOp (.minn o) o resMinn s
/-- MAXN (R115). -/
def execMaxn (o : Ops) (s : State) := aluOp (.maxn o) o resMaxn s

/-- SEL (R115): Y when G[D] is 0, else X; G[D] is the selector. -/
def execSel (o : Ops) (s : State) :=
  scalar (.sel o) o (aluRegs o) (fun c => .done (c.setG o.dNum (if c.getG o.dNum = 0 then (aluXY o c).2 else (aluXY o c).1))) s

/-- CMP (R121): without IMM, Y is G[B], which is `g0` without OPND. -/
def execCmp (o : Ops) (s : State) :=
  let regs := if o.hasImm then [rp o.dNum, rg o.moved] else [rp o.dNum, rg o.aNum, rg o.bNum]
  scalar (.cmp o) o regs (fun c =>
    let x := if o.hasImm then c.getG o.moved else c.getG o.aNum
    let y := if o.hasImm then wordOf o.imm else c.getG o.bNum
    .done (c.setP o.dNum (iCond (o.clsOr 0) x.toNat y.toNat 64))) s

/-- A divide (R115, R116): DIVZ for a zero divisor, else the result follows later. -/
def divOp (i : Instr) (o : Ops) (f : Word → Word → Word) (s : State) : Host.Outcome State Fault Refusal :=
  issue i o (aluRegs o) (fun s =>
    let xy := aluXY o s.cx
    if xy.2 = 0 then .trap { cause := 11 }
    else .done (pendResult { slot := 0, g := [(o.dNum, f xy.1 xy.2)] } [rg o.dNum] s)) s

/-- Quotient and remainder truncate toward zero (R115); −2^63 by −1 gives −2^63 and 0 (R43). -/
def resDiv (x y : Word) : Word := BitVec.ofInt 64 (x.toInt.tdiv y.toInt)
def resDivn (x y : Word) : Word := BitVec.ofNat 64 (x.toNat / y.toNat)
def resRem (x y : Word) : Word := BitVec.ofInt 64 (x.toInt.tmod y.toInt)
def resRemn (x y : Word) : Word := BitVec.ofNat 64 (x.toNat % y.toNat)

/-- DIV (R116). -/
def execDiv (o : Ops) (s : State) := divOp (.div o) o resDiv s
/-- DIVN (R116). -/
def execDivn (o : Ops) (s : State) := divOp (.divn o) o resDivn s
/-- REM (R116). -/
def execRem (o : Ops) (s : State) := divOp (.rem o) o resRem s
/-- REMN (R116). -/
def execRemn (o : Ops) (s : State) := divOp (.remn o) o resRemn s

/-- Leading zero bits of a w-bit pattern. -/
def clzOf (x w : Nat) : Nat := if x = 0 then w else w - 1 - Nat.log2 x

/-- Trailing zero bits of a w-bit pattern. -/
def ctzOf (x w : Nat) : Nat := ((List.range w).find? (bitOf x)).getD w

/-- CLZ (R117). -/
def execClz (o : Ops) (s : State) := oneOp (.clz o) o (fun x => BitVec.ofNat 64 (clzOf x.toNat 64)) s
/-- CTZ (R117). -/
def execCtz (o : Ops) (s : State) := oneOp (.ctz o) o (fun x => BitVec.ofNat 64 (ctzOf x.toNat 64)) s
/-- POPC (R117). -/
def execPopc (o : Ops) (s : State) := oneOp (.popc o) o (fun x => BitVec.ofNat 64 (popcount x.toNat 64)) s
/-- ABS (R117): −2^63 stays itself. -/
def execAbs (o : Ops) (s : State) := oneOp (.abs o) o (fun x => if x.toInt < 0 then 0 - x else x) s
/-- FATX (R117). -/
def execFatx (o : Ops) (s : State) := oneOp (.fatx o) o (fun x => zext (fld x.toNat 56 8) 8) s

/-- pos and len of a bit-field form (R118). -/
def bfPos (o : Ops) : Nat := fld o.imm.toNat 0 6
def bfLen (o : Ops) : Nat := fld o.imm.toNat 6 7

/-- A bit-field instruction: the source is G[B] with OPND, G[D] without (R118). -/
def bfOp (i : Instr) (o : Ops) (f : Word → Word → Word) (s : State) : Host.Outcome State Fault Refusal :=
  scalar i o [rg o.dNum, rg o.moved] (fun c => .done (c.setG o.dNum (f (c.getG o.dNum) (c.getG o.moved)))) s

/-- EXT (R118). -/
def execExt (o : Ops) (s : State) := bfOp (.ext o) o (fun _ x => sext (fld x.toNat (bfPos o) (bfLen o)) (bfLen o)) s
/-- EXTN (R118). -/
def execExtn (o : Ops) (s : State) := bfOp (.extn o) o (fun _ x => zext (fld x.toNat (bfPos o) (bfLen o)) (bfLen o)) s
/-- INS (R118). -/
def execIns (o : Ops) (s : State) := bfOp (.ins o) o (fun d x => BitVec.ofNat 64 (setFld d.toNat (bfPos o) (bfLen o) x.toNat)) s

/-- The result of pointer arithmetic (R119): the address field plus an exact offset, or PROT. -/
def pointerAdd (x : Word) (off : Int) : Except Trap Word :=
  let a : Int := (fld x.toNat 0 56 : Int) + off
  if a < 0 ∨ (2 ^ 56 : Int) ≤ a then .error (protEntry 15 4 (wrap a 64))
  else .ok (BitVec.ofNat 64 (fld x.toNat 56 8 * 2 ^ 56 + a.toNat))

/-- A pointer instruction under the ALU operand rule. -/
def ptrOp (i : Instr) (o : Ops) (f : Word → Word → Except Trap Word) (s : State) : Host.Outcome State Fault Refusal :=
  scalar i o (aluRegs o) (fun c => match f (aluXY o c).1 (aluXY o c).2 with
    | .ok v => .done (c.setG o.dNum v)
    | .error t => .trap t) s

/-- Twice the element size of a format code (R119); 0 for a reserved code. -/
def elemSize2 (code : Nat) : Nat := match code with
  | 0 | 4 | 5 | 6 | 8 | 9 => 2
  | 2 | 3 | 10 | 11 => 4
  | 1 | 12 | 13 => 8
  | 14 | 15 => 16
  | 7 => 1
  | _ => 0

/-- ADDP (R119). -/
def execAddp (o : Ops) (s : State) := ptrOp (.addp o) o (fun x y => pointerAdd x y.toInt) s

/-- LEA (R119): a reserved format code traps PROT; an odd DB4 index traps ALIGN. [DESIGN CHOICE, log 74] -/
def execLea (o : Ops) (s : State) := ptrOp (.lea o) o (fun x y =>
  let es2 := elemSize2 (fld x.toNat 59 5)
  if es2 = 0 then .error (protEntry 15 6 0)
  else if es2 = 1 ∧ y.toNat % 2 = 1 then .error (trapAt 3 (fld x.toNat 0 56) (info 15 15 0))
  else pointerAdd x (y.toInt * es2 / 2)) s

/-- FATS (R119). -/
def execFats (o : Ops) (s : State) := aluOp (.fats o) o (fun x y => BitVec.ofNat 64 (fld y.toNat 0 8 * 2 ^ 56 + fld x.toNat 0 56)) s

/-- A predicate instruction: P[D] ← P[X] op P[Y] (R122). -/
def predOp (i : Instr) (o : Ops) (f : Bool → Bool → Bool) (s : State) : Host.Outcome State Fault Refusal :=
  let xy := xyNum o
  scalar i o [rp o.dNum, rp xy.1, rp xy.2] (fun c => .done (c.setP o.dNum (f (c.getP xy.1) (c.getP xy.2)))) s

/-- PAND (R122). -/
def execPand (o : Ops) (s : State) := predOp (.pand o) o (fun x y => x && y) s
/-- POR (R122). -/
def execPor (o : Ops) (s : State) := predOp (.por o) o (fun x y => x || y) s
/-- PXOR (R122). -/
def execPxor (o : Ops) (s : State) := predOp (.pxor o) o (fun x y => x != y) s
/-- PNOT (R122). -/
def execPnot (o : Ops) (s : State) := scalar (.pnot o) o [rp o.dNum, rp o.aNum] (fun c => .done (c.setP o.dNum (!c.getP o.aNum))) s

/-- MOVP (R123). -/
def execMovp (o : Ops) (s : State) :=
  let all := (List.range 8).map rp
  let regs := match o.imm with
    | 0 => [rp o.dNum, rp o.moved]
    | 1 => [rg o.dNum, rp o.moved]
    | 2 => [rp o.dNum, rg o.moved]
    | 3 => rg o.dNum :: all
    | _ => rg o.moved :: all
  scalar (.movp o) o regs (fun c => match o.imm with
    | 0 => .done (c.setP o.dNum (c.getP o.moved))
    | 1 => .done (c.setG o.dNum (BitVec.ofNat 64 (b2n (c.getP o.moved))))
    | 2 => .done (c.setP o.dNum (c.getG o.moved != 0))
    | 3 => .done (c.setG o.dNum (BitVec.ofNat 64 (pack 1 8 (fun k => b2n (c.getP k)))))
    | _ => .done ((List.range 8).foldl (fun c' k => c'.setP k ((c.getG o.moved).getLsbD k)) c)) s

/-- A loop register as LCR reads it: the value last written (R128, R130). -/
def Ctx.loopReg (c : Ctx) (code : Nat) : Word :=
  let l := c.loop (code % 2)
  match code / 2 with
  | 0 => l.lc
  | 1 => l.heldLs.getD l.ls
  | _ => l.heldLe.getD l.le

/-- A write to a loop register (R128, R130): the count at once; start and end at once while the level is inactive, else held until a loop-back or a
fall-through. A held write outlives a count of 0: it is the value last written. -/
def Ctx.setLoopReg (c : Ctx) (code : Nat) (x : Word) : Ctx :=
  let k := code % 2
  let l := c.loop k
  let y := BitVec.ofNat 64 (fld x.toNat 0 56)
  match code / 2 with
  | 0 => c.setLoop k { l with lc := x }
  | 1 => c.setLoop k (if l.lc = 0 then { l with ls := y, heldLs := none } else { l with heldLs := some y })
  | _ => c.setLoop k (if l.lc = 0 then { l with le := y, heldLe := none } else { l with heldLe := some y })

/-- LCR (R130). -/
def execLcr (o : Ops) (s : State) := scalar (.lcr o) o [rg o.dNum] (fun c => .done (c.setG o.dNum (c.loopReg o.aNum))) s

/-- LCW (R130): an odd start or end traps ALIGN. [DEDUCED, log 58] -/
def execLcw (o : Ops) (s : State) :=
  scalar (.lcw o) o (if o.hasImm then [] else [rg o.aNum]) (fun c =>
    let x := if o.hasImm then wordOf o.imm else c.getG o.aNum
    if 2 ≤ o.dNum ∧ x.getLsbD 0 = true then .trap (trapAt 3 (fld x.toNat 0 56) (info 15 15 0))
    else .done (c.setLoopReg o.dNum x)) s

end Sys2Proof.Machine
end

