-- ==== Sys2Proof/Machine/Spill.lean ====
section
/-! DEFINITION. Leaving and resuming at a checkpoint: the entry's items, the spill area, the record, and the load of a record at a pickup
(R10 to R12, R313 to R319, R361). -/

namespace Sys2Proof.Machine

open Sys2Proof

/-- The items of a spill area (R315). `slot` numbers operand slots: A 0 to 31, W 32 to 95. -/
inductive Item where
  | g (n : Nat)
  | loop (code : Nat)
  | mctl
  | preds
  | vm (n : Nat)
  | sd (n : Nat)
  | status (reg : Nat)
  | v (n : Nat)
  | tc (n : Nat)
  | slot (n : Nat)
  | lmem (lo len : Nat)
  deriving DecidableEq, Repr

/-- Bytes that an item takes. -/
def Item.size : Item → Nat
  | .g _ => 8
  | .loop _ => 8
  | .mctl => 16
  | .preds => 8
  | .vm _ => 4
  | .sd _ => 4
  | .status _ => 8
  | .v _ => 128
  | .tc _ => 5184
  | .slot _ => 4160
  | .lmem _ len => roundUp len 64

/-- The items that an entry names before the padding, from its words w1 and w3 (R313, R315). -/
def smallItems (w : Nat → Nat) : List Item :=
  ((bitsOf (w 1) 64).filter (· != 0)).map Item.g
  ++ (bitsOf (fld (w 3) 16 6) 6).map Item.loop
  ++ (if bitOf (w 3) 22 then [.mctl] else [])
  ++ (if fld (w 3) 1 7 ≠ 0 then [.preds] else [])
  ++ ((bitsOf (fld (w 3) 8 8) 8).filter (· != 0)).map Item.vm
  ++ (bitsOf (fld (w 3) 32 16) 16).map Item.sd
  ++ (if bitOf (w 3) 23 then [.status 0, .status 1, .status 2] else [])

/-- An L-memory range word: none when its length is 0. -/
def rangeItem (w : Nat) : List Item := if fld w 32 17 = 0 then [] else [.lmem (fld w 0 17) (fld w 32 17)]

/-- The items after the padding. -/
def largeItems (w : Nat → Nat) : List Item :=
  (bitsOf (w 2) 64).map Item.v
  ++ (bitsOf (fld (w 4) 32 32) 32).map Item.tc
  ++ (bitsOf (fld (w 4) 0 32) 32).map Item.slot
  ++ (bitsOf (w 5) 64).map (fun n => Item.slot (32 + n))
  ++ rangeItem (w 6) ++ rangeItem (w 7)

/-- Items with their offsets, from an offset on. -/
def placeItems (off : Nat) : List Item → List (Item × Nat)
  | [] => []
  | i :: r => (i, off) :: placeItems (off + i.size) r

/-- The layout of an entry's spill area (R315). -/
def spillLayout (w : Nat → Nat) : List (Item × Nat) :=
  let small := placeItems 0 (smallItems w)
  let n := (smallItems w).foldl (fun t i => t + i.size) 0
  small ++ placeItems (roundUp n 128) (largeItems w)

/-- The value of an item as a context and its core hold it; of a loop register with a held write, the value written last (R129). [DESIGN CHOICE, log 71; DESIGN CHOICE, log 94; DESIGN CHOICE, log 95] -/
def itemValue (s : State) (k : Nat) : Item → Nat
  | .g n => ((s.ctx k).getG n).toNat
  | .loop code => ((s.ctx k).loopReg code).toNat
  | .mctl => (s.ctx k).sr.mctl.toNat
  | .preds => pack 1 8 (fun j => b2n ((s.ctx k).getP j))
  | .vm n => ((s.ctx k).getVm n).toNat
  | .sd n => ((s.ctx k).getSd n).toNat
  | .status r => (match r with | 0 => (s.ctx k).sr.xflags | 1 => (s.ctx k).sr.xenable | _ => (s.ctx k).sr.qbase).toNat
  | .v n => ((s.ctx k).getV n).toNat
  | .tc n => accImage (accRead { s with cur := k } n)
  | .slot n => let m := (s.core (k / 8)).slotMem n; mread m.1 m.2 4096 + 2 ^ 32768 * ((s.core (k / 8)).norm n).toNat
  | .lmem lo len => mread (s.core (k / 8)).lmem lo len

/-- Writes bytes at virtual addresses for a save: every byte is checked first, and nothing is written when a check fails (R361). -/
def State.saveAll (s : State) (core : Nat) (t : Trans) (ws : List (Nat × Nat × Nat)) : Except Trap State :=
  let parts := (ws.map (fun e => (cutVector 0 (e.1 : Nat) e.2.1).map (fun p => (p, fld e.2.2 (8 * p.off) (8 * p.n))))).flatten
  match s.checkAccess core t true .save (parts.map (fun e => e.1)) with
  | .error tr => .error tr
  | .ok es => .ok (((es.zip parts).foldl (fun s e =>
      (s.storeHome e.1.2.place e.1.2.pa e.1.1.n e.2.2).afterStore core false e.1.2.place e.1.2.pa e.1.1.n) s).heal (es.map (fun e => (e.2.place, e.2.pa, e.1.n))))

/-- The parts of a context's frame that an entry's items take. -/
def frameParts (c : Ctx) (w : Nat → Nat) : List Part :=
  ((spillLayout w).map (fun e => cutVector 0 ((fld (c.getG 63).toNat 0 56 + e.2 : Nat) : Int) e.1.size)).flatten

/-- The parts of a context's record. -/
def recordParts (rcd : Word) : List Part := cutVector 0 ((fld rcd.toNat 0 56 : Nat) : Int) 64

/-- Reads the words of a checkpoint table entry. -/
def State.entryWords (s : State) (core : Nat) (c : Ctx) (ckid : Nat) : Nat → Nat :=
  let base := fld c.sr.ckbase.toNat 0 56 + 64 * ckid
  fun i => (s.readVa core c.trans (base + 8 * i) 8).getD 0

/-- May a context leave now (R316 steps 1 and 2): pending results drained, its products ended, its accesses performed, and no copy
into what it saves, which no commit holds (R81)? [DEDUCED, log 25] -/
def State.leaveReady (s : State) (k : Nat) (w : Nat → Nat) : Bool :=
  let c := s.ctx k
  let co := s.core (k / 8)
  c.drained && co.mat.all (fun m => m.uid != c.uid) && s.releaseReady (k / 8) (k % 8)
  && (largeItems w).all (fun i => match i with
    | .slot n => !co.slotBusy n
    | .lmem lo len => !co.busy 2 lo (lo + len)
    | _ => true)
  && s.partsFree (k / 8) c.trans (frameParts c w ++ recordParts c.rcd)

/-- Saves the items of a context's checkpoint and writes its record (R316 steps 2 and 3). [DESIGN CHOICE, log 94] -/
def State.saveContext (s : State) (k ckid : Nat) : Except Trap State :=
  let c := s.ctx k
  let core := k / 8
  let w := s.entryWords core c ckid
  let frame := fld (c.getG 63).toNat 0 56
  let items := (spillLayout w).map (fun e => (frame + e.2, e.1.size, itemValue s k e.1))
  let r := fld c.rcd.toNat 0 56
  let ctl := (s.readVa core c.trans (r + 24) 8).getD 0
  let ctl := setFld (setFld (setFld ctl 48 16 ckid) 36 4 c.sstep.toNat) 18 17 0
  s.saveAll core c.trans (items ++ [(r, 8, fld c.pc.toNat 0 56), (r + 24, 8, ctl)])

/-- The queue entry of a context that leaves: pinned while a command of it has not completed, or by the way it leaves (R316). [DEDUCED, log 45] -/
def State.leaveEntry (s : State) (k : Nat) (pinned : Bool) : QEnt :=
  let c := s.ctx k
  { rcd := c.rcd, dc := c.dc, prio := c.prio.toNat, uid := c.uid, pin := if pinned || (s.core (k / 8)).commandsOf c.uid then some (k / 8) else none }

/-- The context has left: its slots and bindings are released and its slot is free (R316 step 4). -/
def State.vacate (s : State) (k : Nat) : State := (s.setCore (k / 8) ((s.core (k / 8)).releaseCtx (k % 8))).freeCtx k

/-- A trap of a save or restore at the checkpoint instruction (R361). -/
def State.saveFault (s : State) (k : Nat) (t : Trap) : State :=
  let c := s.ctx k
  (s.setCtx k { c with wait := .none, held := none }).trapCtx k { t with xpc := some c.pc }

/-- May the slots and accumulators that an entry names be restored on a core (R317)? -/
def Core.roomFor (c : Core) (w : Nat → Nat) : Bool :=
  let ls := largeItems w
  ls.all (fun i => match i with | .slot n => c.own n == .free && !c.slotInUse n && !c.slotBusy n | _ => true)
  && decide ((ls.filter (fun i => match i with | .tc _ => true | _ => false)).length ≤ c.freeAccs.length)

/-- Writes a restored item into the context and its core (R317). [DESIGN CHOICE, log 95] -/
def restoreItem (k : Nat) (w3 : Nat) (s : State) (i : Item) (x : Nat) : State :=
  let c := s.ctx k
  let co := s.core (k / 8)
  let W := BitVec.ofNat 64 x
  match i with
  | .g n => s.setCtx k (c.setG n W)
  | .loop code =>
    let l := c.loop (code % 2)
    s.setCtx k (c.setLoop (code % 2) (match code / 2 with | 0 => { l with lc := W } | 1 => { l with ls := keep W 55 0 } | _ => { l with le := keep W 55 0 }))
  | .mctl => s.setCtx k { c with sr := { c.sr with mctl := mctlOf x } }
  | .preds => s.setCtx k ((bitsOf (fld w3 0 8) 8).foldl (fun c n => c.setP n (bitOf x n)) c)
  | .vm n => s.setCtx k (c.setVm n (BitVec.ofNat 32 x))
  | .sd n => s.setCtx k (c.setSd n (BitVec.ofNat 32 x))
  | .status r => s.setCtx k { c with sr := match r with | 0 => { c.sr with xflags := keep W 5 0 } | 1 => { c.sr with xenable := keep W 5 0 } | _ => { c.sr with qbase := keep W 55 0 } }
  | .v n => s.setCtx k (c.setV n (BitVec.ofNat 1024 x))
  | .tc n => match bind s k n with
    | none => s
    | some (p, s) => s.setCore (k / 8) ((s.core (k / 8)).setAcc p (accOfImage x (.ctx (k % 8))))
  | .slot n =>
    let b := if n < 32 then 0 else 1
    let co := (co.claim n (.ctx (k % 8))).setBuf b (mwrite (co.buf b) (slotRange n).2 4096 x)
    s.setCore (k / 8) { co with norms := tset co.norms n (BitVec.ofNat 320 (fld x 32768 272)) }
  | .lmem lo len => s.setCore (k / 8) { co with lmem := mwrite co.lmem lo len x }

/-- Restores the items of an entry from the frame (R317), or the trap of the first byte that cannot be read. [DESIGN CHOICE, log 40] -/
def State.restoreContext (s : State) (k ckid : Nat) : Except Trap State :=
  let c := s.ctx k
  let core := k / 8
  let w := s.entryWords core c ckid
  let frame := fld (c.getG 63).toNat 0 56
  let items := spillLayout w
  match s.checkAccess core c.trans true .restore (frameParts c w) with
  | .error t => .error t
  | .ok _ =>
    let vals := items.map (fun e => (e.1, (cutVector 0 ((frame + e.2 : Nat) : Int) e.1.size).foldl (fun v p =>
      match s.xlate core c.trans p.va.toNat with
      | .ok q => v + s.readHome q.place q.pa p.n * 256 ^ p.off
      | _ => v) 0))
    let t := vals.foldl (fun s e => restoreItem k (w 3) s e.1 e.2) s
    .ok (t.setCtx k { t.ctx k with unrestored := none })

/-- The context that a record loads on a core (R12, R245, R334): every register outside the record starts at 0. A word of the record that does not
translate, or cannot be read, loads as 0. [DEDUCED, log 23; DESIGN CHOICE, log 70] -/
def State.loadedCtx (s : State) (core : Nat) (e : QEnt) (uid : Nat) : Ctx :=
  let d := s.dctx e.dc
  let t (i : Nat) : Word := vget d.template i 0
  let rd8 (off : Nat) : Word := w64 ((s.readVa core (s.recTrans e.dc) (fld e.rcd.toNat 0 56 + off) 8).getD 0)
  let ctl := (rd8 24).toNat
  let frame := rd8 8
  let c : Ctx := { occ := true, rcd := e.rcd, uid, dc := e.dc, pc := keep (rd8 0) 55 0, group := BitVec.ofNat 16 (fld ctl 2 16), prio := BitVec.ofNat 2 ctl, sstep := BitVec.ofNat 2 (fld ctl 36 2) }
  let c := ((((c.setG 63 frame).setG 62 (rd8 16)).setG 1 (rd8 32)).setG 2 (rd8 40)).setG 3 (rd8 48)
  { c with sr := { c.sr with
      tvec := keep (t 0) 55 0, ckbase := keep (t 1) 55 0, qbase := keep (t 2) 55 0, hbase := keep (t 3) 55 0, hlimit := keep (t 4) 55 0, hoffset := t 5,
      prvbase := keep (frame + keep (t 6) 31 0) 55 0, ctxid := keep (t 7) 15 0, capmode := w64 (b2n (d.launch.any (fun l => l.super))),
      rbudget := w64 (fld ctl 40 8), parkctl := w64 (fld ctl 35 1) } }

/-- ckid of a record (R11). -/
def State.recCkid (s : State) (core : Nat) (e : QEnt) : Nat := fld ((s.readVa core (s.recTrans e.dc) (fld e.rcd.toNat 0 56 + 24) 8).getD 0) 48 16

/-- Can a slot of a core take a record: not pinned elsewhere, room for what its checkpoint names (R316, R317), and no commit that holds the record or its
frame (R81)? -/
def State.takeable (s : State) (core : Nat) (e : QEnt) : Bool :=
  (e.pin == none || e.pin == some core) && s.partsFree core (s.recTrans e.dc) (recordParts e.rcd)
  && (let id := s.recCkid core e
      let c := s.loadedCtx core e 0
      let w := s.entryWords core c id
      id == 0 || ((s.core core).roomFor w && s.partsFree core c.trans (frameParts c w)))

/-- The ECC trap of a pickup whose record lies in a poisoned line (R390): the context takes it at its first instruction. [DESIGN CHOICE, log 70] -/
def State.recordPoison (s : State) (core : Nat) (e : QEnt) : Option Trap :=
  if s.poison = [] then none
  else (recordParts e.rcd).findSome? (fun p => match s.xlate core (s.recTrans e.dc) p.va.toNat with
    | .ok q => if q.place = .here then (s.badLine [] q.pa p.n).map (fun l => trapAt 18 (lineVa p.va.toNat q.pa l) (info q.lev 7 0)) else none
    | _ => none)

/-- The retention for a picked-up successor ends (R15): on its core the context owns what was kept; elsewhere it is released. -/
def State.takeKept (s : State) (k : Nat) (rcd : Word) : State :=
  let core := k / 8
  let s := s.cores.foldl (fun s e => if e.1 = core then s else if e.2.kept.any (fun x => x.rcd == rcd) then s.setCore e.1 ((s.core e.1).releaseKept rcd) else s) s
  let c := s.core core
  match c.kept.find? (fun e => e.rcd == rcd) with
  | none => s
  | some e =>
    let slot := k % 8
    let c := (List.range 96).foldl (fun c n => if c.own n = .kept rcd then c.setOwn n (.ctx slot) else c) c
    let c := (List.range 32).foldl (fun c n => if (c.acc n).own = .kept rcd then c.setAcc n { c.acc n with own := .ctx slot } else c) c
    let s := s.setCore core { c with kept := c.kept.filter (fun x => x.rcd != rcd) }
    let x := s.ctx k
    s.setCtx k { x with tc := e.tc.foldl (fun v b => v.setIfInBounds b.1 (some b.2)) x.tc }

/-- Loads a record into a free slot (R12, R317): the restore of its checkpoint, then the acquire at `dev`. A lookup that fails traps
CKMISS at the record's PC (R314); a restore that faults traps at the checkpoint instruction and is made again after the handler (R361). [DEDUCED, log 93] -/
def State.load (s : State) (k : Nat) (e : QEnt) : State :=
  let core := k / 8
  let uid := if e.uid = 0 then s.nextUid else e.uid
  let s := { s with nextUid := if e.uid = 0 then s.nextUid + 1 else s.nextUid }
  let s := s.setCtx k (s.loadedCtx core e uid)
  let s := s.takeKept k e.rcd
  let id := s.recCkid core e
  let s := s.acquire core 3
  match s.recordPoison core e with
  | some t => s.setCtx k { s.ctx k with ecc := some t }
  | none =>
  if id = 0 then s
  else
    let c := s.ctx k
    if s.checkpoint core c c.pc ≠ some id then s.trapCtx k ((s.ckPoison core c).getD { cause := 10, xinfo := 1 })
    else match s.restoreContext k id with
      | .ok t => t
      | .error t => (s.setCtx k { c with unrestored := some id }).trapCtx k { t with xpc := some c.pc }

end Sys2Proof.Machine
end

