-- ==== Sys2Proof/Machine/FullEmpty.lean ====
section
/-! DEFINITION. Full/empty words at the pier: evaluation, back-off, parking and waking (R62 to R71, R347, R356, R357). -/

namespace Sys2Proof.Machine

open Sys2Proof

/-- Does the condition of a form hold for a word (R64)? -/
def State.feHolds (s : State) (form : FeForm) (pa : Nat) : Bool := match form with
  | .ldw => s.fe pa
  | .ldc => s.fe pa
  | .stf => !s.fe pa
  | _ => true

/-- Is a form held at its word, rather than evaluated, while a commit or PST2 holds the word (R148)? [DEDUCED, log 25] -/
def State.feHeld (s : State) (form : FeForm) (pa : Nat) : Bool := match form with
  | .ldw => false
  | .ldc => false
  | .feget => false
  | _ => s.wordHeld pa

/-- A form on its word, in one indivisible step (R64): the value that returns, and the state after. -/
def State.fePiece (s : State) (core : Nat) (form : FeForm) (p : Piece) : Nat × State :=
  let put (s : State) : State := (s.storeHome p.place p.pa 8 p.data).afterStore core false p.place p.pa 8
  match form with
  | .ldw => (s.readHome p.place p.pa 8, s.forget core p.place p.pa 8)
  | .ldc => (s.readHome p.place p.pa 8, (s.forget core p.place p.pa 8).setFe p.pa false)
  | .stf => (0, (put s).setFe p.pa true)
  | .ste => (0, (put s).setFe p.pa false)
  | .feget => (b2n (s.fe p.pa) + 2 * b2n (s.waitBit p.pa), s.forget core p.place p.pa 8)
  | .feset => (0, (s.forget core p.place p.pa 8).setFe p.pa true)

/-- The pier performs a form; the context of a waiting form goes on after it. -/
def State.performFe (s : State) (core : Nat) (a : Access) (form : FeForm) (p : Piece) : State :=
  let s := if a.ord = 1 ∨ a.ord = 3 then s.acquire core a.scope else s
  let r := s.fePiece core form p
  let a := { a with pieces := [{ p with done := true, data := r.1 }] }
  let s := r.2.settle core a
  if a.kind.waits then s.completeHeld (8 * core + a.slot) (fun c => c.marks true a.regs) else s

/-- The FEBUDGET trap (R65, R351). -/
def febudget (va : Word) (reason : Nat) : Trap := { cause := 7, xaddr := va, xinfo := BitVec.ofNat 64 reason }

/-- A waiting form ends with a trap: its access is gone, nothing else changed (R65). -/
def State.feTrap (s : State) (core id : Nat) (k : Nat) (t : Trap) : State := (s.dropAccess core id).trapCtx k t

/-- The answer to a waiting form whose condition fails (R67): back-off, park, or the trap; a pre-emption request or an abort that has waited for the
answer ends the wait with no effect, and the context leaves at the checkpoint of the form (R71, R398). [DEDUCED, log 45] -/
def State.feFailed (s : State) (core : Nat) (a : Access) (p : Piece) : State :=
  let k := 8 * core + a.slot
  let c := s.ctx k
  match c.wait with
  | .fe id j .evaluating =>
    if id ≠ a.id then s
    else if c.preempt || (s.dctx c.dc).aborting then (s.dropAccess core id).setCtx k { c with wait := .none, held := none, pmTrap := false }
    else if j < c.budget then s.setCtx k { c with wait := .fe id j (.backoff (s.tick + backoff j)) }
    else if c.parkEnable then s.setCtx k { c with wait := .fe id j .parking }
    else s.feTrap core id k (febudget p.va 1)
  | _ => s

/-- Is an evaluation of this access due? A waiting form in back-off or at its park request is not evaluated. -/
def State.evaluating (s : State) (core : Nat) (a : Access) : Bool :=
  !a.kind.waits || (match (s.ctx (8 * core + a.slot)).wait with | .fe id _ .evaluating => id == a.id | _ => false)

/-- FE_EVALUATION (R64, R67): on a word that a commit or PST2 holds a form that writes or fills waits for the fill (R148). An evaluation has read the word at its
home, so the core's copy of its line goes (R144, R275). -/
def execFeEvaluation (core id : Nat) (s : State) :=
  event true (fun s => match s.findPiece core id 0 with
    | none => s
    | some (a, p) => match a.kind with
      | .fe form =>
        if s.evaluating core a = false ∨ s.pieceReady core a p = false ∨ s.feHeld form p.pa = true then s
        else match s.poisoned a p with
          | some va => s.failAccess core a va
          | none => if s.feHolds form p.pa then s.performFe core a form p else (s.forget core p.place p.pa 8).feFailed core a p
      | _ => s) s

/-- The kind of a full/empty form (R140). -/
def FeForm.kind (f : FeForm) : Kind := match f with
  | .ldw => .feRead
  | .feget => .feRead
  | .ste => .feWrite
  | .feset => .feWrite
  | _ => .feRmw

/-- FE_BACKOFF_EXPIRY (R67): the evaluation is sent again. Its address is translated anew, so that a page taken away in the meantime faults
before any evaluation (R73). [DEDUCED, log 36] -/
def execFeBackoffExpiry (core slot : Nat) (s : State) :=
  event true (fun s =>
    let k := 8 * core + slot
    let c := s.ctx k
    match c.wait with
    | .fe id j (.backoff till) =>
      if s.tick < till then s
      else match s.findPiece core id 0 with
        | none => s
        | some (a, p) => match a.kind with
          | .fe form => match s.checkAccess core c.trans (s.core core).capSuspended form.kind [{ off := 0, va := p.va.toNat, n := 8 }] with
            | .error t => s.feTrap core id k t
            | .ok es =>
              let leaf := match es with | e :: _ => e.2.leaf | [] => 0
              let a := { a with leaf, pieces := es.map (fun e => { pieceOf e with data := p.data }) }
              (s.setAccess core a).setCtx k { c with wait := .fe id (j + 1) .evaluating }
          | _ => s
    | _ => s) s

/-- Links a saved record into the park table (R68, R356), under the aligned word that holds the first byte of its word; none when no slot is free. [DESIGN CHOICE, log 40; DESIGN CHOICE, log 88; DESIGN CHOICE, log 97] -/
def State.park (s : State) (k : Nat) (at_ leaf : Nat) : Option State :=
  let pa := at_ / 8 * 8
  let c := s.ctx k
  let b := s.parkBase
  let slot := s.rd (b + 8) 8
  if slot = 0 then none
  else
    let head := s.bucketAt pa
    let all := s.chain 56 (s.parked.length + 1) head
    let r := (s.readVa (k / 8) c.trans (fld c.rcd.toNat 0 56) 64).getD 0
    let s := s.pierWrite (b + 8) 8 (s.rd (slot + 88) 8)
    let s := s.pierWrite (b + 16) 8 (s.rd (b + 16) 8 + 1)
    let s := s.pierWrite slot 64 r
    let s := s.pierWrite (slot + 64) 8 pa
    let s := s.pierWrite (slot + 72) 8 (k / 256 + fld c.sr.ctxid.toNat 0 6 * 2 ^ 16)
    let s := s.pierWrite (slot + 80) 8 leaf
    let s := s.pierWrite (slot + 96) 32 0
    let s := s.writeChain head 56 (all ++ [slot])
    let s := s.setWaitBit pa true
    let p : Parked := { slot, ent := s.leaveEntry k false, word := pa, cluster := k / 256, ctxid := fld c.sr.ctxid.toNat 0 6, leaf }
    some ({ s with parked := s.parked ++ [p] }.vacate k)

/-- The ECC trap of a park request that meets a poisoned line of the park table or of the page's group (R390), none without one. These lines have physical
addresses. [DESIGN CHOICE, log 27] -/
def State.parkPoison (s : State) (pa leaf : Nat) : Option Trap :=
  if s.poison = [] then none
  else
    let b := s.parkBase
    let head := s.bucketAt pa
    let slot := s.rd (b + 8) 8
    let links := head :: (s.chain 56 (s.parked.length + 1) head).map (fun a => a + 56)
    (([b] ++ links ++ (if slot = 0 then [] else [slot + 64]) ++ (if leaf = 0 then [] else [leaf])).findSome? (fun a => s.badLine [] a 8)).map (fun l => trapAt 18 l (info 15 4 0))

/-- PARK_REQUEST (R68; an abort ends the wait instead, R398, and so does an ECC error in the context, which traps then, R390): the context spills and writes its record, the page's count goes up (R347), the pier tests the word again, and links the
record when the condition still fails. [DESIGN CHOICE, log 27; DESIGN CHOICE, log 40] -/
def execParkRequest (core slot : Nat) (s : State) :=
  event true (fun s =>
    let k := 8 * core + slot
    let c := s.ctx k
    match c.wait with
    | .fe id _ .parking => match s.findPiece core id 0 with
      | none => s
      | some (a, p) => match a.kind with
        | .fe form => match s.checkpoint core c c.pc with
          | none => s.feTrap core id k ((s.ckPoison core c).getD ckmiss)
          | some ckid =>
            if (s.dctx c.dc).aborting = true ∨ c.ecc.isSome = true then (s.dropAccess core id).setCtx k { c with wait := .none, held := none }
            else if (s.dropAccess core id).leaveReady k (s.entryWords core c ckid) = false ∨ s.pieceReady core a p = false ∨ s.feHeld form p.pa = true then s
            else match s.saveContext k ckid with
              | .error t => (s.dropAccess core id).saveFault k t
              | .ok s => match s.parkPoison p.pa a.leaf with
              | some t => s.feTrap core id k t
              | none => match s.wcntUp a.leaf with
                | .error 0 => s.feTrap core id k (trapAt 4 p.va.toNat (info 15 8 3))
                | .error _ => s.feTrap core id k (febudget p.va 3)
                | .ok t =>
                  if t.feHolds form p.pa then (t.wcntDown a.leaf).performFe core a form p
                  else match (t.dropAccess core id).park k p.pa a.leaf with
                    | none => (t.wcntDown a.leaf).feTrap core id k (febudget p.va 2)
                    | some u => u
        | _ => s
    | _ => s) s

/-- WAKE_ENQUEUE (R69, R335): a record unlinked by a wake reaches the tail of its level in its cluster's queue; the records of one word
in the order unlinked. -/
def execWakeEnqueue (n : Nat) (s : State) :=
  event true (fun s => match s.wakes[n]? with
    | none => s
    | some p =>
      if (s.wakes.take n).any (fun q => q.word == p.word) then s
      else { s with wakes := s.wakes.eraseIdx n }.enqueue p.cluster p.ent.prio p.ent) s

end Sys2Proof.Machine
end

