-- ==== Sys2Proof/Machine/Engines.lean ====
section
/-! DEFINITION. The copy engine and the index engine: descriptors, commands, programs, pieces, faults and event counters (R21, R22, R52, R72,
R217 to R229). -/

namespace Sys2Proof.Machine

open Sys2Proof

/-- Word i of a descriptor. -/
def Cmd.word (c : Cmd) (i : Nat) : Nat := ((c.w[i]?).getD 0).toNat
/-- A field of w0 (R217). -/
def Cmd.f0 (c : Cmd) (lo n : Nat) : Nat := fld (c.word 0) lo n
/-- The command code. -/
def Cmd.code (c : Cmd) : Nat := c.f0 60 4
/-- Fields of w0 (R217). -/
def Cmd.dir (c : Cmd) : Bool := bitOf (c.word 0) 59
def Cmd.space (c : Cmd) : Nat := c.f0 56 3
def Cmd.fem (c : Cmd) : Nat := c.f0 54 2
def Cmd.tile (c : Cmd) : Bool := bitOf (c.word 0) 53
def Cmd.nfmt (c : Cmd) : Nat := c.f0 50 3
/-- Rows or count, bytes of a row, and the signed stride of w3 (R218). -/
def Cmd.rows (c : Cmd) : Nat := fld (c.word 3) 16 16
def Cmd.rowBytes (c : Cmd) : Nat := fld (c.word 3) 0 16
def Cmd.stride (c : Cmd) : Int := sgn (c.word 3 / 2 ^ 32) 32
/-- Does the command write a local buffer? -/
def Cmd.toLocal (c : Cmd) : Bool := match c.code with | 1 => !c.dir | 2 => false | _ => true
/-- Bytes moved (R218). -/
def Cmd.bytes (c : Cmd) : Nat := (if c.code = 3 then 2 else 1) * c.rows * c.rowBytes
/-- The counter whose flag a fault raises: its own, or that of its program's `EGO.ec` (R225). -/
def Cmd.flag (c : Cmd) : Option Nat := if bitOf (c.word 0) 49 then some (c.f0 45 4) else c.ego

/-- Twice the element size of a format (R219). -/
def esTwice (f : Nat) : Nat := match f with | 2 => 4 | 3 => 4 | 7 => 1 | _ => 2

/-- Does a tile command break R219? -/
def Cmd.tileBad (c : Cmd) : Bool :=
  let a := c.space == 0
  let n := if a then 64 else 32
  !((c.code == 1 && !c.dir) || c.code == 4) || decide (1 < c.space) || decide (c.nfmt < 2)
  || c.rows != (if a then 32 else 64) || 2 * c.rowBytes != n * esTwice c.nfmt || c.word 2 % 4096 != 0

/-- Is a descriptor malformed (R221)? `index` names the engine that runs it. [DEDUCED, log 18] -/
def Cmd.malformed (c : Cmd) (index : Bool) : Bool :=
  let k := c.code
  k == 0 || decide (4 < k) || (decide (3 ≤ k) != index) || decide (2 < c.space) || c.nfmt == 1 || (c.tile && c.tileBad)
  || (c.dir && k != 1) || c.f0 35 4 != 0
  || (k != 2 && decide (2 ^ 18 ≤ c.word 2))
  || (match k with
    | 1 => c.word 4 != 0 || c.word 5 != 0 || c.word 6 != 0
    | 2 => fld (c.word 4) 0 32 != 0 || c.word 5 != 0 || c.word 6 != 0
    | 3 => fld (c.word 5) 0 32 != 0
    | _ => c.word 5 != 0 || c.word 6 != 0)
  || c.word 7 != 0 || (c.index == 1535)

/-- A row of bytes: local or device, address, its place in the command's bytes, length. -/
structure ERow where
  loc : Bool
  addr : Int
  off : Nat
  n : Nat

/-- n rows. -/
def rowsOf (n : Nat) (f : Nat → ERow) : List ERow := (List.range n).map f

/-- The source rows (R218); `l` holds the entries of an index list or coordinate list. -/
def Cmd.sources (c : Cmd) (l : List Nat) : List ERow :=
  let n := c.rowBytes
  let dev (w : Nat) : Int := fld (c.word w) 0 56
  match c.code with
  | 1 => if c.dir then rowsOf c.rows (fun r => ⟨true, (c.word 2 + r * n : Nat), r * n, n⟩) else rowsOf c.rows (fun r => ⟨false, dev 1 + r * c.stride, r * n, n⟩)
  | 2 => rowsOf c.rows (fun r => ⟨false, dev 1 + r * c.stride, r * n, n⟩)
  | 3 => (rowsOf c.rows (fun e => ⟨false, dev 4 + (fld ((l[e]?).getD 0) 0 32 : Nat) * c.stride, 2 * e * n, n⟩)).zip
      (rowsOf c.rows (fun e => ⟨false, dev 6 + (fld ((l[e]?).getD 0) 32 32 : Nat) * sgn (c.word 5 / 2 ^ 32) 32, (2 * e + 1) * n, n⟩)) |>.flatMap (fun p => [p.1, p.2])
  | _ => rowsOf c.rows (fun e => ⟨false, dev 4 + (((l[e]?).getD 0 : Nat) : Int) * c.stride, e * n, n⟩)

/-- The destination runs of a tile: the layout of R48 and R199 over the rows of the source. -/
def Cmd.tileRuns (c : Cmd) : List ERow :=
  let n := c.rowBytes
  if c.space = 0 then
    let m := n / 8
    (rowsOf 32 (fun r => ⟨true, 0, r, 0⟩)).flatMap (fun e => rowsOf 8 (fun j => ⟨true, (c.word 2 + 512 * j + m * e.off : Nat), e.off * n + j * m, m⟩))
  else rowsOf 64 (fun r => ⟨true, (c.word 2 + 512 * (r / 8) + n * (r % 8) : Nat), r * n, n⟩)

/-- The destination rows (R218, R219). -/
def Cmd.targets (c : Cmd) : List ERow :=
  let n := c.rowBytes
  if c.tile then c.tileRuns
  else match c.code with
    | 1 => if c.dir then rowsOf c.rows (fun r => ⟨false, (fld (c.word 1) 0 56 : Nat) + r * c.stride, r * n, n⟩) else rowsOf c.rows (fun r => ⟨true, (c.word 2 + r * n : Nat), r * n, n⟩)
    | 2 => rowsOf c.rows (fun r => ⟨false, (fld (c.word 2) 0 56 : Nat) + r * sgn (c.word 4 / 2 ^ 32) 32, r * n, n⟩)
    | 3 => rowsOf (2 * c.rows) (fun r => ⟨true, (c.word 2 + r * n : Nat), r * n, n⟩)
    | _ => rowsOf c.rows (fun r => ⟨true, (c.word 2 + r * n : Nat), r * n, n⟩)

/-- The pieces of a row (R224): aligned 8-byte words of device memory, and single bytes elsewhere. -/
def ERow.cut (r : ERow) : List Part :=
  (splitAt 8 (r.n + 1) r.off r.addr r.n).flatMap (fun p => if p.n = 8 ∧ r.loc = false then [p] else (List.range p.n).map (fun i => { off := p.off + i, va := p.va + i, n := 1 }))

/-- A fault before it is recorded: cause of R225, space of R226, address. -/
abbrev EBad := Nat × Nat × Word

/-- The cause of an engine fault that a device-memory check gives (R225, R322). [DESIGN CHOICE, log 33] -/
def engineCause (t : Trap) : Nat := match t.cause with | 4 => 1 | 3 => 3 | 8 => 4 | 9 => 5 | 18 => 7 | _ => 2

/-- May a command write an operand slot (R221): its continuation owns it, or owned it when it halted or was hard-saved, so that its commands run on (R135,
R360). [DEDUCED, log 62] -/
def State.ownsSlot (s : State) (core uid n : Nat) : Bool :=
  (match (s.core core).own n with | .ctx slot => (s.ctx (8 * core + slot)).uid == uid | _ => false) || (tget (s.core core).rights uid []).contains n

/-- Does a byte of L-memory lie in a range retained for another context (R221)? What the command's own context has retained is none (R135). [DEDUCED, log 62] -/
def Core.retainedFrom (c : Core) (uid a : Nat) : Bool := c.kept.any (fun e => e.uid != uid && decide (e.lo ≤ a) && decide (a < e.lo + e.len))

/-- The fault of a row of a local buffer (R221): the lowest byte outside its space, in an unowned slot or in a retained range. -/
def State.localRow (s : State) (core : Nat) (c : Cmd) (r : ERow) : Option EBad :=
  let b := c.space
  let a := r.addr.toNat
  let bad (x : Nat) : Option EBad := some (2, b + 1, BitVec.ofNat 64 x)
  if r.n = 0 then none
  else if b < 2 then
    match ((List.range (r.n / 4096 + 2)).map (a / 4096 + ·)).find? (fun n => decide (4096 * n < a + r.n) && (decide (spaceSize b ≤ 4096 * n) || !s.ownsSlot core c.uid (n + 32 * b))) with
    | some n => bad (max a (4096 * n))
    | none => none
  else if spaceSize 2 < a + r.n then bad (max a (spaceSize 2))
  else if (s.core core).kept = [] then none
  else ((List.range r.n).find? (fun i => (s.core core).retainedFrom c.uid (a + i))).bind (fun i => bad (a + i))

/-- A device-memory part with its checks (R221): as a load for a source, as a store for a destination, and as a full/empty form where the command
reads or writes the word's bit; to the capability checks a source is a load (R322). A poisoned line of a destination waits for `State.build`, which knows what the command covers. -/
def State.devicePiece (s : State) (core : Nat) (c : Cmd) (write : Bool) (p : Part) : Except EBad (List EPiece) :=
  let sus := (s.core core).capSuspended
  let dest := c.fem != 0 && !c.toLocal
  let bad (t : Trap) : Except EBad (List EPiece) := .error (engineCause t, 0, t.xaddr)
  let mk (a : Part) (q : Phys) : EPiece := { space := 3, va := BitVec.ofNat 64 a.va.toNat, place := q.place, pa := q.pa, n := a.n, off := a.off, page := q.page }
  let again (k : Kind) (es : List (Part × Phys)) : Except EBad (List EPiece) := match s.checkAccess core c.trans sus k [p] with
    | .error t => bad t
    | .ok _ => .ok (es.map (fun e => mk e.1 e.2))
  match s.checkAccess core c.trans sus (if write then .store else .load) [p] with
  | .error t =>
    if t.cause = 18 ∧ write = true then (match s.xlateAll core c.trans .store (cutLeaf c.trans .store p) with
      | .ok es => if es.all (fun e => e.2.place == .here) then .ok (es.map (fun e => mk e.1 e.2)) else bad t
      | .error _ => bad t)
    else bad t
  | .ok es =>
    if dest = false then .ok (es.map (fun e => mk e.1 e.2))
    else if write then again .feWrite es
    else if c.fem = 1 then (match firstTrap (fun a q => spaceTrap .feRead q a.va.toNat) es with
      | some t => bad t
      | none => .ok (es.map (fun e => mk e.1 e.2)))
    else if es.any (fun e => e.2.pr) then .error (5, 0, BitVec.ofNat 64 p.va.toNat) else .ok (es.map (fun e => mk e.1 e.2))

/-- The pieces of rows, or the first fault. -/
def State.piecesOf (s : State) (core : Nat) (c : Cmd) (write : Bool) : List ERow → Except EBad (List EPiece)
  | [] => .ok []
  | r :: rs =>
    let here : Except EBad (List EPiece) :=
      if r.loc then (match s.localRow core c r with
        | some b => .error b
        | none => .ok (r.cut.map (fun p => { space := c.space, va := BitVec.ofNat 64 p.va.toNat, pa := p.va.toNat, n := p.n, off := p.off })))
      else (r.cut.foldr (fun p acc => match s.devicePiece core c write p, acc with
        | .error b, _ => .error b
        | .ok x, .ok xs => .ok (x ++ xs)
        | .ok _, .error b => .error b) (.ok []))
    match here, s.piecesOf core c write rs with
    | .error b, _ => .error b
    | .ok xs, .ok ys => .ok (xs ++ ys)
    | .ok _, .error b => .error b

/-- The entries of a list in device memory, read at the start of the command. [DEDUCED, log 25] -/
def State.listOf (s : State) (core : Nat) (c : Cmd) : Except EBad (List Nat) :=
  let w := if c.code = 3 then 8 else 4
  if c.code < 3 then .ok []
  else (List.range c.rows).foldr (fun e acc =>
    let va : Int := (fld (c.word 1) 0 56 + w * e : Nat)
    let one : Except EBad Nat := match s.checkAccess core c.trans (s.core core).capSuspended .load (cutScalar 0 va w) with
      | .error t => .error (engineCause t, 0, t.xaddr)
      | .ok es => .ok (es.foldl (fun v x => v + s.readHome x.2.place x.2.pa x.1.n * 256 ^ x.1.off) 0)
    match one, acc with
    | .error b, _ => .error b
    | .ok x, .ok xs => .ok (x :: xs)
    | .ok _, .error b => .error b) (.ok [])

/-- The pages that the entries of a list are translated by (R251). [DEDUCED, log 36] -/
def State.listPages (s : State) (core : Nat) (c : Cmd) : List (Nat × Nat) :=
  if c.code < 3 then []
  else ((cutScalar 0 (fld (c.word 1) 0 56 : Nat) ((if c.code = 3 then 8 else 4) * c.rows)).filterMap (fun p => match s.xlate core c.trans p.va.toNat with
    | .ok q => some q.page
    | _ => none)).eraseDups

/-- Does a list of a command lie in part in a block that is BUSY (R81)? The command is read once the commit has ended. [DEDUCED, log 25] -/
def State.listHeld (s : State) (core : Nat) (c : Cmd) : Bool :=
  decide (3 ≤ c.code) && !s.bytesFree core c.trans (fld (c.word 1) 0 56) ((if c.code = 3 then 8 else 4) * c.rows)

/-- The ALIGN rule of R72: the misaligned address, when the command changes bits of device memory. -/
def Cmd.alignBad (c : Cmd) (src : List ERow) : Option EBad :=
  if c.fem = 0 ∨ c.toLocal = true ∨ c.rows = 0 then none
  else ((src ++ c.targets).find? (fun r => decide (r.addr % 8 ≠ 0) || decide (r.n % 8 ≠ 0))).map (fun r => (3, if r.loc then c.space + 1 else 0, BitVec.ofNat 64 (wrap r.addr 64)))

/-- What pieces in device memory cover. -/
def coverage (ps : List EPiece) : List (Place × Nat × Nat) := (ps.filter (fun p => p.space == 3)).map (fun p => (p.place, p.pa, p.n))

/-- The first destination piece on a poisoned line that the destination pieces do not cover (R390). -/
def State.badTarget (s : State) (wr : List EPiece) : Option EPiece :=
  if s.poison = [] then none else wr.find? (fun p => p.space == 3 && p.place == .here && (s.badLine (coverage wr) p.pa p.n).isSome)

/-- Everything a command needs to start: its pieces, or its fault (R221). A command that moves 0 bytes is valid and has neither (R218). [DEDUCED, log 18; DESIGN CHOICE, log 33] -/
def State.build (s : State) (core : Nat) (index : Bool) (c : Cmd) : Except EBad (List EPiece × List EPiece) :=
  if c.w = [] then .error (2, 3, BitVec.ofNat 64 (max c.addr 0x18000))
  else if c.malformed index then .error (6, 4, BitVec.ofNat 64 c.addr)
  else if c.bytes = 0 then .ok ([], [])
  else match s.listOf core c with
    | .error b => .error b
    | .ok l =>
      let src := c.sources l
      match c.alignBad src with
      | some b => .error b
      | none => match s.piecesOf core c false src, s.piecesOf core c true c.targets with
        | .error b, _ => .error b
        | .ok _, .error b => .error b
        | .ok rd, .ok wr => match s.badTarget wr with
          | some p => .error (7, 0, p.va)
          | none => .ok (rd, wr)

/-- The buffer range that a well-formed command takes on the scoreboard (R21). [DESIGN CHOICE, log 33] -/
def Cmd.range (c : Cmd) (index : Bool) : Option (Nat × Nat × Nat) :=
  if c.w = [] ∨ c.malformed index = true ∨ c.toLocal = false ∨ c.bytes = 0 then none
  else some (c.space, c.word 2, if c.tile then c.word 2 + 4096 else c.word 2 + c.bytes)

/-- Has the command its scoreboard entry? -/
def Core.scored (c : Core) (index : Bool) (id : Nat) : Bool := c.scores.any (fun e => e.eng == index && e.cmd == id)

/-- Enqueues a command that a thread issued; it takes its scoreboard entry at once (R21, R222). -/
def Core.queueCmd (co : Core) (index : Bool) (c : Cmd) : Core :=
  let c := { c with id := co.nextId }
  let e := co.engine index
  let co := { co.setEngine index { e with queue := e.queue ++ [.cmd c] } with nextId := co.nextId + 1 }
  match c.range index with
  | none => co
  | some r => { co with scores := co.scores ++ [{ eng := index, cmd := c.id, buf := r.1, lo := r.2.1, hi := r.2.2 }] }

/-- Entries of a queue that threads put there (R222). [DESIGN CHOICE, log 33] -/
def Engine.waiting (e : Engine) : Nat := (e.queue.filter (fun q => match q with | .cmd c => c.index == 0xFFFF | .prog _ _ _ _ => true)).length

/-- The words of a descriptor in L-memory. -/
def Core.descriptor (c : Core) (a : Nat) : List Word := (List.range 8).map (fun i => BitVec.ofNat 64 (mread c.lmem (a + 8 * i) 8))

/-- XCOPY, XCOPYM, IWALK and IGATH (R222): the descriptor is a thread access to L-memory, and waits for copies into it (R22). [DESIGN CHOICE, log 33] -/
def engineOp (i : Instr) (o : Ops) (index : Bool) (code : Nat) (s : State) : Host.Outcome State Fault Refusal :=
  issue i o [rg o.aNum] (fun s =>
    let a := (s.cx.getG o.aNum).toNat
    if a % 64 ≠ 0 then .trap (trapAt 3 a (info 15 9 0))
    else if 0x18000 < a + 64 then .trap (localTrap (max a 0x18000) 4)
    else
      let co := s.co
      let w := co.descriptor a
      let c : Cmd := { id := 0, w, addr := a, trans := s.cx.trans, uid := s.cx.uid }
      let c := if c.code = code then c else { c with w := [BitVec.ofNat 64 (setFld (c.word 0) 60 4 15)] ++ w.drop 1 }
      if co.busy 2 a (a + 64) = true ∨ 16 ≤ (co.engine index).waiting ∨ ((c.range index).isSome = true ∧ 16 ≤ co.scores.length) then .stall
      else .done (s.setCo (co.queueCmd index c))) s

/-- XCOPY (R222). -/
def execXcopy (o : Ops) (s : State) := engineOp (.xcopy o) o false 1 s
/-- XCOPYM (R222). -/
def execXcopym (o : Ops) (s : State) := engineOp (.xcopym o) o false 2 s
/-- IWALK (R222). -/
def execIwalk (o : Ops) (s : State) := engineOp (.iwalk o) o true 3 s
/-- IGATH (R222). -/
def execIgath (o : Ops) (s : State) := engineOp (.igath o) o true 4 s

/-- Queues an engine program. -/
def Core.queueProg (co : Core) (index : Bool) (a : Nat) (ec : Option Nat) (t : Trans) (uid : Nat) : Core :=
  let e := co.engine index
  co.setEngine index { e with queue := e.queue ++ [.prog a ec t uid] }

/-- EGO (R227). -/
def execEgo (o : Ops) (s : State) :=
  let index := bit0Of o 0
  issue (.ego o) o [rg o.aNum] (fun s =>
    let a := (s.cx.getG o.aNum).toNat
    if a % 64 ≠ 0 then .trap (trapAt 3 a (info 15 9 0))
    else if 16 ≤ (s.co.engine index).waiting then .stall
    else .done (s.setCo (s.co.queueProg index a (if bitOf (o.clsOr 0) 2 then some o.dNum else none) s.cx.trans s.cx.uid))) s

/-- A faulted command as it stands before its start, to go back to the head of its queue. -/
def Cmd.again (c : Cmd) : Cmd := { c with rd := [], wr := [], buf := [], fe := [], bad := none, lists := [], back := true }

/-- EGO.resume (R227): a stopped engine restarts the faulting command from its start; any other engine is left as it is. [DESIGN CHOICE, log 33; DEDUCED, log 37] -/
def execEgoResume (o : Ops) (s : State) :=
  let index := bit0Of o 0
  issue (.egoResume o) o [] (fun s =>
    let e := s.co.engine index
    match e.fault with
    | none => .done s
    | some f =>
      let co := s.co.setEngine index { e with fault := none, queue := .cmd f.cmd.again :: e.queue }
      .done (s.setCo (match f.ec with | some n => { co with ecf := co.ecf.setIfInBounds n .clear } | none => co))) s

/-- Has an engine nothing queued, in a program or in flight, and every END its effect? -/
def Engine.quiet (e : Engine) : Bool := e.queue.isEmpty && e.flight.isEmpty && e.prog.isNone && e.ends.isEmpty

/-- Has a program whose END has been read a command that has not completed: in flight, put back, or faulted? [DESIGN CHOICE, log 33] -/
def Engine.runs (e : Engine) (id : Nat) : Bool :=
  e.flight.any (fun c => c.prog == some id) || e.queue.any (fun q => match q with | .cmd c => c.prog == some id | _ => false) || e.fault.any (fun f => f.cmd.prog == some id)

/-- The first END that may have its effect now (R227). [DESIGN CHOICE, log 33] -/
def Engine.endReady (e : Engine) : Option Prog := e.ends.find? (fun p => !e.runs p.id)

/-- ERDV (R226, R228). -/
def execErdv (o : Ops) (s : State) :=
  let index := bit0Of o 0
  issue (.erdv o) o [] (fun s =>
    let e := s.co.engine index
    if s.cx.wait = .none ∧ s.atCheckpoint = false then .trap s.ckTrap
    else match e.fault with
      | some f => .trap (f.trap index)
      | none => if e.quiet then .done s else if s.cx.wait = .none then .hold .erdv s else .stall) s

/-- The value of ECSET, ECADD and BARX: the immediate, or G[A]. -/
def immOrG (o : Ops) (c : Ctx) : Word := if o.hasImm then wordOf o.imm else c.getG o.aNum
def immOrGRegs (o : Ops) : List Nat := if o.hasImm then [] else [rg o.aNum]

/-- ECSET (R229). -/
def execEcset (o : Ops) (s : State) :=
  issue (.ecset o) o (immOrGRegs o) (fun s =>
    let s := if bit0Of o 0 then s.setCo { s.co with ecf := s.co.ecf.setIfInBounds o.dNum .clear } else s
    .done (s.setCounter s.coreNo o.dNum (BitVec.ofNat 32 (immOrG o s.cx).toNat))) s

/-- ECADD (R229). -/
def execEcadd (o : Ops) (s : State) :=
  issue (.ecadd o) o (immOrGRegs o) (fun s => .done (s.addCounter s.coreNo o.dNum (BitVec.ofNat 32 (immOrG o s.cx).toNat))) s

/-- Does the start condition of a command hold (R217, R223)? -/
def Core.startOk (co : Core) (c : Cmd) : Bool := !bitOf (c.word 0) 44 || counterGe (vget co.ec (c.f0 40 4) 0) (BitVec.ofNat 32 (c.f0 0 32))

/-- The operand slots that a command writes. -/
def Cmd.slots (c : Cmd) (index : Bool) : List Nat := match c.range index with
  | some (b, lo, hi) => if b < 2 then (List.range ((hi - 1) / 4096 + 1 - lo / 4096)).map (fun i => lo / 4096 + i + 32 * b) else []
  | none => []

/-- The command at the head of an engine's queue, when it may start now (R52, R223). A malformed one waits for nothing: only the other faults are
checked when the command runs (R221). A product that was issued after the copy waits for it (R22) and does not hold it back. [DEDUCED, log 18; DESIGN CHOICE, log 33; DEDUCED, log 72] -/
def Core.starting (co : Core) (index : Bool) : Option Cmd :=
  let e := co.engine index
  match e.queue with
  | .cmd c :: _ =>
    if e.fault.isSome = true ∨ (c.index = 0xFFFF ∧ e.prog.isSome = true ∧ c.back = false) then none
    else if c.w = [] ∨ c.malformed index = true then some c
    else if 4 ≤ e.flight.length ∨ co.startOk c = false ∨ (c.slots index).any (fun n => co.mat.any (fun m => m.uses n && !m.waits.contains (index, c.id))) = true then none
    else if (c.range index).isSome = true ∧ co.scored index c.id = false ∧ 16 ≤ co.scores.length then none
    else some c
  | _ => none

/-- The norm tables after a command (R51, R220): the slices that its targets touch. -/
def Core.norms' (co : Core) (c : Cmd) (index : Bool) : Core :=
  (c.slots index).foldl (fun co n =>
    let base := 4096 * (n - 32 * c.space)
    let js := (List.range 8).filter (fun j => c.targets.any (fun r => decide (r.addr < ((base + 512 * j + 512 : Nat) : Int)) && decide (((base + 512 * j : Nat) : Int) < r.addr + r.n)))
    if js = [] then co else if 2 ≤ c.nfmt ∧ c.nfmt ≤ 5 then co.renorm n c.nfmt js else co.stale n js) co

/-- Subtracts bytes from the pending-byte counter of a group, or keeps the change aside while a phase is latched (R230, R233). -/
def Bar.addPc (b : Bar) (latched : Bool) (x : Int) : Bar :=
  if latched then { b with kept := b.kept ++ [.pc x] } else { b with pc := BitVec.ofInt 64 (b.pc.toInt + x) }

/-- Adds to the pending-byte counter of a core. -/
def State.addPc (s : State) (core g : Nat) (x : Int) : State :=
  (s.setBar core g ((s.bar core g).addPc (s.isLatched core g) x)).latchOf core g

/-- The steps of a completion (R223). -/
def State.engineDone (s : State) (core : Nat) (index : Bool) (c : Cmd) : State :=
  let co := s.core core
  let e := co.engine index
  let co := co.setEngine index { e with flight := e.flight.filter (fun d => d.id != c.id) }
  let co := if c.bytes = 0 then co else co.norms' c index
  let s := s.setCore core { co with scores := co.scores.filter (fun x => !(x.eng == index && x.cmd == c.id)) }
  let s := if bitOf (c.word 0) 39 then s.addPc core (c.f0 32 3) (-(c.bytes : Int)) else s
  if bitOf (c.word 0) 49 then s.addCounter core (c.f0 45 4) 1 else s

/-- The scoreboard with the entry of a command that starts (R21, R223). -/
def Core.score (co : Core) (index : Bool) (c : Cmd) : Core := match c.range index with
  | some r => if co.scored index c.id then co else { co with scores := co.scores ++ [{ eng := index, cmd := c.id, buf := r.1, lo := r.2.1, hi := r.2.2 }] }
  | none => co

/-- ENGINE_COMMAND_START (R223, R227): the head command starts, be it with a fault that the engine takes later (R225, R369); or the running program's
next descriptor is read, whole, and at its END what is queued behind it may start; or the next program begins. [DEDUCED, log 18; DESIGN CHOICE, log 33] -/
def execEngineCommandStart (core : Nat) (index : Bool) (s : State) :=
  event true (fun s =>
    let co := s.core core
    let e := co.engine index
    match co.starting index with
    | some c =>
      if c.w ≠ [] ∧ c.malformed index = false ∧ s.listHeld core c = true then s
      else
      let co := co.setEngine index { e with queue := e.queue.drop 1 }
      let fly (d : Cmd) : State := s.setCore core ((co.score index d).setEngine index { e with queue := e.queue.drop 1, flight := e.flight ++ [d] })
      let lists := if c.malformed index ∨ c.bytes = 0 then [] else s.listPages core c
      match s.build core index c with
      | .error b => fly { c with bad := some b, lists }
      | .ok (rd, wr) => if c.bytes = 0 then (s.setCore core co).engineDone core index c else fly { c with rd, wr, lists }
    | none =>
      if e.fault.isSome then s
      else match e.prog, e.queue with
        | some p, q =>
          let staged := q.any (fun x => match x with | .cmd c => c.index != 0xFFFF || c.back | _ => false)
          if staged then s
          else
            let a := p.addr + 64 * p.next
            let w := if 0x18000 < a + 64 then [] else co.descriptor a
            let c : Cmd := { id := co.nextId, w, addr := a, index := p.next, ego := p.ec, prog := some p.id, trans := p.trans, uid := p.uid }
            if w ≠ [] ∧ c.code = 0 then s.setCore core (co.setEngine index { e with prog := none, ends := if p.ec.isSome then e.ends ++ [p] else e.ends })
            else
              let e : Engine := { e with prog := some { p with next := p.next + 1 }, queue := .cmd c :: q }
              s.setCore core { co.setEngine index e with nextId := co.nextId + 1 }
        | none, .prog a ec t u :: q =>
          let p : Prog := { id := co.nextId, addr := a, ec, trans := t, uid := u }
          s.setCore core { co.setEngine index { e with prog := some p, queue := q } with nextId := co.nextId + 1 }
        | none, _ => s) s

/-- Is a line poisoned for this piece (R390)? -/
def State.engPoisoned (s : State) (c : Cmd) (write : Bool) (p : EPiece) : Bool :=
  p.space == 3 && p.place == .here && !s.poison.isEmpty && (s.badLine (if write then coverage c.wr else []) p.pa p.n).isSome

/-- Does a piece of a command write its word's bit, or read it for `.fec` (R72)? -/
def Cmd.onBit (c : Cmd) (write : Bool) : Bool := if write then c.fem != 0 else c.fem == 1 && !c.toLocal

/-- May a device piece be performed now: no commit in progress on its block (R81), its word not held when its bit is written or copied (R148), its link up,
and its peer not lost (R378)? [DEDUCED, log 83] -/
def State.engReady (s : State) (c : Cmd) (write : Bool) (p : EPiece) : Bool :=
  p.space != 3 || (!(p.place == .here && s.blockBusy p.pa p.n) && !(c.onBit write && s.wordHeld p.pa) && p.lost.isNone
    && s.linkReady { va := p.va, place := p.place, pa := p.pa, n := p.n } && !s.engPoisoned c write p)

/-- A source piece is read: its bytes, and its fe bit; a local source counts as full (R72). [DESIGN CHOICE, log 24] -/
def State.engRead (s : State) (core : Nat) (c : Cmd) (i : Nat) (p : EPiece) : Cmd :=
  let v := if p.space < 3 then mread ((s.core core).buf p.space) p.pa p.n else if p.place = .window then s.winRead (p.pa - 2 ^ 40) p.n else s.readHome p.place p.pa p.n
  let full := if p.space = 3 ∧ p.place = .here then s.fe p.pa else true
  { c with rd := c.rd.set i { p with done := true }, buf := mwrite c.buf p.off p.n v, fe := tset c.fe (p.off / 8) full }

/-- The bit that a destination word takes (R72). -/
def Cmd.newFe (c : Cmd) (off : Nat) : Bool := match c.fem with | 1 => tget c.fe (off / 8) true | 2 => true | _ => false

/-- A destination piece is written, together with its bit (R72, R224). The cluster's copy of a line of another device goes, so that FENCEX.eo orders
the write before later loads (R279). [DESIGN CHOICE, log 10; DESIGN CHOICE, log 24] -/
def State.engWrite (s : State) (core : Nat) (c : Cmd) (p : EPiece) : State :=
  let v := mread c.buf p.off p.n
  if p.space < 3 then s.setCore core ((s.core core).setBuf p.space (mwrite ((s.core core).buf p.space) p.pa p.n v))
  else if p.place = .window then s.winWrite (p.pa - 2 ^ 40) p.n v
  else
    let t := (s.storeHome p.place p.pa p.n v).heal (coverage (p :: c.wr.filter (fun q => q.done)))
    let cl := t.cluster (core / 32)
    let t := t.setCluster (core / 32) { cl with cache := cl.cache.filter (fun e => !(keysAt p.place p.pa p.n).contains e.1) }
    if c.fem = 0 then t else t.setFe p.pa (c.newFe p.off)

/-- Replaces a command in flight. -/
def State.setCmd (s : State) (core : Nat) (index : Bool) (c : Cmd) : State :=
  let co := s.core core
  let e := co.engine index
  s.setCore core (co.setEngine index { e with flight := e.flight.map (fun d => if d.id = c.id then c else d) })

/-- The command in flight with a number. -/
def State.findCmd (s : State) (core : Nat) (index : Bool) (id : Nat) : Option Cmd := ((s.core core).engine index).flight.find? (fun c => c.id == id)

/-- Have the source bytes of a destination piece been read? -/
def Cmd.sourced (c : Cmd) (p : EPiece) : Bool := c.rd.all (fun q => q.done || decide (p.off + p.n ≤ q.off) || decide (q.off + q.n ≤ p.off))

/-- ENGINE_PIECE (R224): a destination piece is written when its source bytes have been read. -/
def execEnginePiece (core : Nat) (index : Bool) (id : Nat) (write : Bool) (piece : Nat) (s : State) :=
  event true (fun s => match s.findCmd core index id with
    | none => s
    | some c =>
      if write then match c.wr[piece]? with
        | none => s
        | some p =>
          if p.done = true ∨ s.engReady c true p = false ∨ c.sourced p = false then s
          else (s.engWrite core c p).setCmd core index { c with wr := c.wr.set piece { p with done := true } }
      else match c.rd[piece]? with
        | none => s
        | some p => if p.done = true ∨ s.engReady c false p = false then s else s.setCmd core index (s.engRead core c piece p)) s

/-- ENGINE_COMMAND_COMPLETE (R223). -/
def execEngineCommandComplete (core : Nat) (index : Bool) (id : Nat) (s : State) :=
  event true (fun s => match s.findCmd core index id with
    | none => s
    | some c => if c.bad.isNone && c.wr.all (fun p => p.done) && c.rd.all (fun p => p.done) then s.engineDone core index c else s) s

/-- The piece as one of a thread's: for the link rules. -/
def EPiece.piece (p : EPiece) : Piece := { va := p.va, place := p.place, pa := p.pa, n := p.n, off := p.off, done := p.done, lost := p.lost }

/-- The fault of a command in flight: that of its start, or of a piece that meets a poisoned line or a lost link (R225, R378, R390). [DESIGN CHOICE, log 33] -/
def State.faultOf (s : State) (core : Nat) (index : Bool) (id : Nat) : Option (Cmd × EBad) := (s.findCmd core index id).bind (fun c =>
  let bad (w : Bool) (ps : List EPiece) : Option EPiece := ps.find? (fun p => !p.done && (s.engPoisoned c w p || (p.space == 3 && s.linkLost p.piece)))
  match c.bad with
  | some b => some (c, b)
  | none => ((bad false c.rd).or (bad true c.wr)).map (fun p => (c, (7, 0, p.va))))

/-- A failed write may or may not have been performed at the remote home (R378): a free value decides. [DESIGN CHOICE, log 33] -/
def State.perhapsWrite (s : State) (core : Nat) (c : Cmd) (p : EPiece) : State :=
  if p.space ≠ 3 ∨ s.linkLost p.piece = false ∨ c.sourced p = false then s
  else
    let t := s.fresh
    if (Config.openWord s.freeNo).getLsbD 0 then t.engWrite core c p else t

/-- ENGINE_FAULT (R225): the engine stops; the record and the descriptor are kept, and the counter's flag is raised. A command that faults while its
engine is stopped already goes back to the head of the queue: there is one record. [DEDUCED, log 18; DESIGN CHOICE, log 33] -/
def execEngineFault (core : Nat) (index : Bool) (id : Nat) (s : State) :=
  event true (fun s => match s.faultOf core index id with
    | none => s
    | some (c, b) =>
      let s := c.wr.foldl (fun s p => s.perhapsWrite core c p) s
      let co := s.core core
      let e := co.engine index
      let e := { e with flight := e.flight.filter (fun d => d.id != c.id) }
      if e.fault.isSome then s.setCore core (co.setEngine index { e with queue := .cmd c.again :: e.queue })
      else
        let co := co.setEngine index { e with fault := some { cause := b.1, xsp := b.2.1, addr := b.2.2, index := c.index, ec := c.flag, cmd := c } }
        match c.flag with
        | none => s.setCore core co
        | some n => (s.setCore core { co with ecf := co.ecf.setIfInBounds n .raised }).counterChanged core n) s

/-- ENGINE_PROGRAM_END (R227): every command of a program whose END has been read has completed; the END adds 1 to the named counter. [DESIGN CHOICE, log 33] -/
def execEngineProgramEnd (core : Nat) (index : Bool) (s : State) :=
  event true (fun s =>
    let co := s.core core
    let e := co.engine index
    match e.endReady with
    | none => s
    | some x => (s.setCore core (co.setEngine index { e with ends := e.ends.filter (· != x) })).addCounter core (x.ec.getD 0) 1) s

end Sys2Proof.Machine
end

