-- ==== Sys2Proof/Machine/Sync.lean ====
section
/-! DEFINITION. Barriers, forks, joins and deques, capabilities, supersteps and messages (R16, R17, R229 to R242, R331, R380). -/

namespace Sys2Proof.Machine

open Sys2Proof

/-- The scope of a group's ordering (R230): `die` for a group within one die, else `dev`. -/
def Group.scope (g : Group) : Nat := if g.level < 4 ∨ (g.spread ≠ 0 ∧ g.count ≤ 384) then 2 else 3

/-- The core's arrival (R231), kept aside while a phase is latched (R230). -/
def Bar.arrive (b : Bar) (latched : Bool) : Bar :=
  if latched = false then { b with arrived := true } else if b.kept.contains .arrive then b else { b with kept := b.kept ++ [.arrive] }

/-- A contribution to mx (R232); its context waits for the result, unless it has been discarded (`Bar.forgo`). -/
def Bar.contribute (b : Bar) (latched : Bool) (x : Word) (slot reg : Nat) : Bar :=
  if latched then { b with kept := b.kept ++ [.mx x slot reg] }
  else { b with mx := if b.mx.toNat < x.toNat then x else b.mx, waiters := if slot < 8 then b.waiters ++ [(slot, reg)] else b.waiters }

/-- The trap of a barrier instruction of a core that is no member (R231). -/
def nonMember : Trap := protEntry 15 7 0

/-- May the release of a barrier instruction end now (R145)? It waits for the BARMX results of the other groups; of its own group several BARMXs may fold
into one phase (R232). [DEDUCED, log 25; DEDUCED, log 34] -/
def State.barReady (s : State) (g : Nat) : Bool :=
  s.performedAll s.coreNo (s.cur % 8) && (List.range 8).all (fun n => n == g || !(s.bar s.coreNo n).awaited (s.cur % 8))

/-- BARR (R231). -/
def execBarr (o : Ops) (s : State) :=
  issue (.barr o) o [] (fun s =>
    let g := o.dNum
    if (s.group g).member s.coreNo = false then .trap nonMember
    else if s.barReady g = false then .stall
    else .done (((s.setBar s.coreNo g ((s.bar s.coreNo g).arrive (s.isLatched s.coreNo g))).poke s.coreNo).latchOf s.coreNo g)) s

/-- BARW (R231). -/
def execBarw (o : Ops) (s : State) :=
  issue (.barw o) o [] (fun s =>
    let g := o.dNum
    let b := s.bar s.coreNo g
    if s.cx.wait ≠ .none then .stall
    else if s.atCheckpoint = false then .trap s.ckTrap
    else if (s.group g).member s.coreNo = false then .trap nonMember
    else if b.arrived then .hold (.barw g b.phase) s
    else .done (s.acquire s.coreNo (s.group g).scope)) s

/-- BARMX (R232): G[D] is pending until the phase completes. Its result is an acquire (R278): the accesses and releases that its context issues
after it wait for it (R145, `Core.freeToGo`, `State.releaseReady`). -/
def execBarmx (o : Ops) (s : State) :=
  issue (.barmx o) o [rg o.dNum, rg o.aNum] (fun s =>
    let g := o.bNum
    if (s.group g).member s.coreNo = false then .trap nonMember
    else if s.barReady g = false then .stall
    else
      let l := s.isLatched s.coreNo g
      let b := ((s.bar s.coreNo g).arrive l).contribute l (s.cx.getG o.aNum) (s.cur % 8) o.dNum
      .done (((s.setCx (s.cx.marks true [rg o.dNum])).setBar s.coreNo g b |>.poke s.coreNo).latchOf s.coreNo g)) s

/-- BARX (R233). -/
def execBarx (o : Ops) (s : State) :=
  issue (.barx o) o (immOrGRegs o) (fun s =>
    if (s.group o.dNum).member s.coreNo = false then .trap nonMember
    else .done (s.addPc s.coreNo o.dNum (immOrG o s.cx).toInt)) s

/-- BARRIER_PHASE_LATCH (R230): a phase whose conditions hold is latched. Every change that can make them hold latches it in its own step. [DEDUCED, log 34] -/
def execBarrierPhaseLatch (group dom : Nat) (s : State) := event true (fun s => s.latch group dom) s

/-- One member of a completed phase (R230): its count goes up, arrived and mx are cleared, its `BARMX` results are on their way with an acquire, its
`BARW` waiters are released with theirs (R231, R278). -/
def State.completeMember (s : State) (group : Nat) (g : Group) (mx : Word) (core : Nat) : State :=
  let b := s.bar core group
  let s := s.setBar core group { b with arrived := false, phase := b.phase + 1, mx := 0, waiters := [] }
  let c := s.core core
  let s := s.setCore core { c with results := c.results ++ b.waiters.map (fun w => { slot := w.1, g := [(w.2, mx)] }) }
  let s := if b.waiters = [] then s else s.acquire core g.scope
  (State.slotsOf core).foldl (fun s k =>
    let x := s.ctx k
    match x.wait, x.held with
    | .barw n _, some (.barw _) => if n = group then (s.completeHeld k (fun c => c)).acquire core g.scope else s
    | _, _ => s) s

/-- Applies the changes that a core kept aside (R230). [DEDUCED, log 34] -/
def State.applyKept (s : State) (core group : Nat) : State :=
  let b := s.bar core group
  let b' := b.kept.foldl (fun (b : Bar) k => match k with
    | .arrive => b.arrive false
    | .mx x slot reg => b.contribute false x slot reg
    | .pc x => b.addPc false x) { b with kept := [] }
  if b.kept = [] then s else (s.setBar core group b').poke core

/-- The continuations of a core whose SSEND counts for the running phase of `b7` at step n of R239. [DEDUCED, log 64] -/
def Core.ssends (c : Core) (n : Nat) : List Nat := (c.ss.filter (fun e => e.2 == .arrived n)).map (fun e => e.1)

/-- A phase of `b7` has completed: the arrivals that counted for it have had it, those kept aside count for the next (R230, R239). -/
def Core.turnSs (c : Core) : Core := { c with ss := c.ss.map (fun (e : Nat × SsMark) => (e.1, match e.2 with | .kept n => .arrived n | _ => .ended)) }

/-- The exchange of a core's SSENDs is not checked any more, or not yet (R239, R322). [DEDUCED, log 64] -/
def Core.suspend (c : Core) (ids : List Nat) : Core := { c with exch := c.exch ++ ids.filter (fun u => !c.exch.contains u) }

/-- Writes the owner word of a region into the region table in memory (R238, R358). -/
def State.putRegion (s : State) (dc n : Nat) (r : Region) : State :=
  let d := s.dctx dc
  let a := fld d.rtbase.toNat 16 40 * 2 ^ 16 + 16 * n + 8
  (s.setDctx dc { d with regions := tset d.regions n r }).lateWrite a 4 (r.shown % 2 ^ 16 + r.sharer % 2 ^ 16 * 2 ^ 16)

/-- A shared-read-only region returns to the core that shared it (R238). -/
def Region.returned (r : Region) : Region := { r with owner := r.sharer, sharer := 0 }

/-- The superstep boundary: the shared-read-only regions of a device context return (R238). -/
def State.returnShared (s : State) (dc : Nat) : State :=
  (s.dctx dc).regions.foldl (fun s e => if e.2.transit = none ∧ e.2.owner = 0xFFFF then s.putRegion dc e.1 e.2.returned else s) s

/-- What a `b7` completion means to the SSENDs that have arrived for it, those that a pre-emption has taken from their core since among them (R239): after
the first of a superstep the exchange is not checked; the second ends that, and is the superstep boundary. [DEDUCED, log 64] -/
def State.superstep (s : State) (ms : List Nat) : State :=
  let t := ms.foldl (fun t c => let k := t.core c; if k.ss = [] then t else t.setCore c (k.suspend (k.ssends 1)).turnSs) s
  if ms.any (fun c => (s.core c).ssends 3 != []) then
    let t := ms.foldl (fun t c => if (t.core c).exch = [] then t else t.setCore c { t.core c with exch := [] }) t
    match s.resident with
    | some dc => t.returnShared dc
    | none => t
  else t

/-- BARRIER_COMPLETION (R230): every member in the same step; every core of the span sets its pending-byte counter to 0; then what was kept aside
counts toward the next phase, which may be latched at once. [DESIGN CHOICE, log 32; DEDUCED, log 34] -/
def execBarrierCompletion (group dom : Nat) (s : State) :=
  event true (fun s =>
    if s.latched.contains (group, dom) = false then s
    else
      let g := s.group group
      let ms := g.members dom
      let span := spanCores g.level dom
      let mx := ms.foldl (fun (m : Word) c => if m.toNat < (s.bar c group).mx.toNat then (s.bar c group).mx else m) 0
      let s := { s with latched := s.latched.filter (· != (group, dom)) }
      let s := if group = 7 then s.superstep ms else s
      let s := span.foldl (fun s c => if (s.bar c group).pc = 0 then s else s.setBar c group { s.bar c group with pc := 0 }) s
      let s := ms.foldl (fun s c => s.completeMember group g mx c) s
      let s := ms.foldl (fun s c => s.poke c) s
      let kept := span.any (fun c => (s.bar c group).kept != [])
      let s := span.foldl (fun s c => s.applyKept c group) s
      if kept then s.latch group dom else s) s

/-- The control word of a child record (R11, R234): its superstep flags are 0, as R234 writes them and R318 gives them at reset. [DEDUCED, log 29] -/
def childControl (c : Ctx) : Nat := c.prio.toNat + c.group.toNat * 4 + b2n c.parkEnable * 2 ^ 35 + c.budget * 2 ^ 40

/-- The parts of a record that FORK reads and writes. [DEDUCED, log 29] -/
def forkParts (a : Nat) : List Part := [{ off := 0, va := a, n := 8 }, { off := 16, va := (a + 16 : Nat), n := 8 }, { off := 24, va := (a + 24 : Nat), n := 8 }]

/-- The 8 bytes at offset `lo` of an access, from its translated parts. -/
def State.readParts (s : State) (lo : Nat) (es : List (Part × Phys)) : Nat :=
  es.foldl (fun v e => if lo ≤ e.1.off ∧ e.1.off < lo + 8 then v + s.readHome e.2.place e.2.pa e.1.n * 256 ^ (e.1.off - lo) else v) 0

/-- Writes the 8 bytes at offset `lo` of an access through its translated parts, with what a store does to the core's caches (R144). -/
def State.putParts (s : State) (lo v : Nat) (es : List (Part × Phys)) : State :=
  es.foldl (fun s e => if lo ≤ e.1.off ∧ e.1.off < lo + 8 then
    (s.storeHome e.2.place e.2.pa e.1.n (fld v (8 * (e.1.off - lo)) (8 * e.1.n))).afterStore s.coreNo true e.2.place e.2.pa e.1.n else s) s

/-- Adds to a word at its home in one step, and drops the core's copy of the line (R16, R234). -/
def State.addWord (s : State) (p : Phys) (x : Word) : State :=
  let v := (BitVec.ofNat 64 (s.readHome p.place p.pa 8) + x).toNat
  (s.storeHome p.place p.pa 8 v).afterStore s.coreNo false p.place p.pa 8

/-- Are the homes of translated parts free of a commit in progress (R81)? -/
def State.homesFree (s : State) (es : List (Part × Phys)) : Bool := es.all (fun e => !(e.2.place == .here && s.blockBusy e.2.pa e.1.n))

/-- FORK (R234). [DEDUCED, log 38; DEDUCED, log 58] -/
def execFork (o : Ops) (s : State) :=
  issue (.fork o) o [rg o.aNum, rg o.bNum] (fun s =>
    let c := s.cx
    let a := fld (c.getG o.aNum).toNat 0 56
    let pc := c.getG o.bNum
    if a % 64 ≠ 0 then .trap (trapAt 3 a (info 15 2 0))
    else if pc.getLsbD 0 then .trap (trapAt 3 (fld pc.toNat 0 56) (info 15 15 0))
    else match s.check .store (forkParts a) with
      | .error t => .trap t
      | .ok es =>
        if s.releaseReady s.coreNo (s.cur % 8) = false ∨ s.homesFree es = false then .stall
        else
          let j := s.readParts 16 es
          let push (s : State) : Eff :=
            let s := s.setDctx c.dc ((s.dctx c.dc).born 1)
            .done (s.pushDeque s.coreNo { rcd := BitVec.ofNat 64 a, dc := c.dc, prio := c.prio.toNat })
          let body (s : State) : State := (s.putParts 0 (fld pc.toNat 0 56) es).putParts 24 (childControl c) es
          if j = 0 then push (body s)
          else if j % 8 ≠ 0 then .trap (trapAt 3 (fld j 0 56) (info 15 3 0))
          else match s.check (.atomic 0) [{ off := 0, va := (fld j 0 56 : Nat), n := 8 }] with
            | .error t => .trap t
            | .ok js => if s.homesFree js = false then .stall else push (js.foldl (fun s e => s.addWord e.2 1) (body s))) s

/-- JOIN (R16, R235). The subtraction is one pier step; a context that is to halt waits for its pending results first. [DEDUCED, log 38] -/
def execJoin (o : Ops) (s : State) :=
  issue (.join o) o [rg o.aNum] (fun s =>
    let c := s.cx
    let x := c.getG o.aNum
    let a := fld x.toNat 0 56
    if c.wait ≠ .none then (if c.drained then .gone (s.endContext s.cur) else .stall)
    else if s.atCheckpoint = false then .trap s.ckTrap
    else if x = 0 then .done s
    else if a % 8 ≠ 0 then .trap (trapAt 3 a (info 15 3 0))
    else match s.check (.atomic 0) [{ off := 0, va := a, n := 8 }] with
      | .error t => .trap t
      | .ok es =>
        if s.releaseReady s.coreNo (s.cur % 8) = false ∨ s.homesFree es = false then .stall
        else
          let old := match es with | e :: _ => s.readHome e.2.place e.2.pa 8 | [] => 0
          let r := sgn (old + (2 ^ 64 - 1)) 64
          let s := es.foldl (fun s e => s.addWord e.2 (-1)) s
          if 0 < r then (if c.drained then .gone (s.endContext s.cur) else .hold (.access (2 ^ 64)) s)
          else if r = 0 then .done (s.acquire s.coreNo 3)
          else .done { s with regs := { s.regs with rasjoin := bump s.regs.rasjoin } }) s

/-- DQPUSH (R236). [DEDUCED, log 58] -/
def execDqpush (o : Ops) (s : State) :=
  issue (.dqpush o) o [rg o.aNum] (fun s =>
    let a := fld (s.cx.getG o.aNum).toNat 0 56
    if a % 64 ≠ 0 then .trap (trapAt 3 a (info 15 1 0))
    else match s.check .load [{ off := 0, va := (a + 24 : Nat), n := 8 }] with
      | .error t => .trap t
      | .ok es =>
        if s.releaseReady s.coreNo (s.cur % 8) = false ∨ s.homesFree es = false then .stall
        else
          let ctl := s.readParts 0 es
          .done (s.pushDeque s.coreNo { rcd := BitVec.ofNat 64 a, dc := s.cx.dc, prio := fld ctl 0 2 })) s

/-- A taken record is the thread's: what was retained for it is released (R15). -/
def State.released (s : State) (rcd : Word) : State :=
  s.cores.foldl (fun s e => if (s.core e.1).kept.any (fun x => x.rcd == rcd) then s.setCore e.1 ((s.core e.1).releaseKept rcd) else s) s

/-- Delivers a taken record, or 0 (R236). -/
def takeResult (o : Ops) (r : Option Word) (s : State) : Eff :=
  let s := match r with | some x => (s.released x).acquire s.coreNo 2 | none => s
  .done (pendResult { slot := 0, g := [(o.dNum, r.getD 0)] } [rg o.dNum] s)

/-- DQPOP (R236). -/
def execDqpop (o : Ops) (s : State) :=
  issue (.dqpop o) o [rg o.dNum] (fun s =>
    let c := s.co
    match c.deque.getLast? with
    | none => takeResult o none s
    | some e => takeResult o (some e.rcd) (s.setCo { c with deque := c.deque.dropLast })) s

/-- DQPOP.lq (R237, R380): the gateway cluster of port L is cluster 2L. -/
def execDqpopLq (o : Ops) (s : State) :=
  issue (.dqpopLq o) o ([rg o.dNum, rg (o.dNum + 1)] ++ [rg o.aNum]) (fun s =>
    let l := (s.cx.getG o.aNum).toNat
    if 23 < l ∨ s.coreNo / 32 ≠ 2 * l then .trap (protEntry 15 7 0)
    else
      let p := s.port l
      let give (x y : Word) (s : State) : Eff := .done (pendResult { slot := 0, g := [(o.dNum, x), (o.dNum + 1, y)] } [rg o.dNum, rg (o.dNum + 1)] s)
      match p.queue with
      | [] => give 0 0 s
      | e :: r => give (BitVec.ofNat 64 (2 ^ 63 + e.1)) (BitVec.ofNat 64 e.2) ((s.setPort l { p with queue := r }).acquire s.coreNo 4)) s

/-- DQSTEAL (R236): from the FIFO end, skipping pinned records. A fenced core steals nothing, and nothing is stolen from it (R391). -/
def execDqsteal (o : Ops) (s : State) :=
  issue (.dqsteal o) o [rg o.dNum, rg o.aNum] (fun s =>
    let n := (s.cx.getG o.aNum).toNat
    if 31 < n then .trap (protEntry 15 7 0)
    else
      let k := s.coreNo / 32 * 32 + n
      let c := s.core k
      match (if c.fenced || s.co.fenced then none else c.deque.findIdx? (fun e => e.pin == none)) with
      | none => takeResult o none s
      | some i => takeResult o ((c.deque[i]?).map (fun e => e.rcd)) (s.setCore k { c with deque := c.deque.eraseIdx i })) s

/-- What a region's arrival waits for (R238, R278): the accesses in flight of the issuing context, as its release at `dev` does, and every store of
the issuing core to the region. [DESIGN CHOICE, log 42] -/
def State.storesTo (s : State) (core slot : Nat) (r : Region) : List Nat :=
  ((s.core core).flight.filter (fun a => a.slot == slot || (a.kind.stores && a.pieces.any (fun p => !p.done
    && decide (r.base < globalVa a.trans p.va.toNat + p.n) && decide (globalVa a.trans p.va.toNat < r.base + 2 ^ r.log2))))).map (fun a => a.id)

/-- The CAP trap of HANDOFF and SSEND (R351). -/
def capTrapOf (region owner : Nat) : Trap := { cause := 6, xinfo := BitVec.ofNat 64 (region + owner * 2 ^ 32) }

/-- HANDOFF (R238): the region is in transit at once; its release waits for the BARMX results of its context (R278). [DEDUCED, log 25; DESIGN CHOICE, log 42] -/
def execHandoff (o : Ops) (s : State) :=
  issue (.handoff o) o [rg o.aNum, rg o.bNum] (fun s =>
    let c := s.cx
    let n := (c.getG o.aNum).toNat
    let to_ := (c.getG o.bNum).toNat
    if 4095 < n ∨ (1535 < to_ ∧ to_ ≠ 0xFFFF) then .trap (protEntry 15 7 0)
    else if c.sr.capmode.getLsbD 0 = false then .trap (capTrapOf n 0xFFFD)
    else
      let r := ((s.dctx c.dc).regions.find? (fun e => e.1 == n)).map (fun e => e.2)
      match r with
      | none => .trap (capTrapOf n (Config.noRegion n).toNat)
      | some r =>
        if r.shown ≠ s.coreNo then .trap (capTrapOf n r.shown)
        else if s.co.awaitsMx (s.cur % 8) then .stall
        else .done (s.putRegion c.dc n { r with transit := some (to_, s.coreNo, s.storesTo s.coreNo (s.cur % 8) r) })) s

/-- REGION_ARRIVAL (R238): every earlier store of the issuer to the region has been performed, and every earlier access of its context. -/
def execRegionArrival (region : Nat) (s : State) :=
  event true (fun s => match s.resident with
    | none => s
    | some dc => match (s.dctx dc).regions.find? (fun e => e.1 == region) with
      | none => s
      | some (_, r) => match r.transit with
        | none => s
        | some (to_, from_, ids) =>
          if (s.core from_).flight.any (fun a => ids.contains a.id) then s
          else s.putRegion dc region { r with owner := to_, sharer := if to_ = 0xFFFF then from_ else 0, transit := none }) s

/-- CAPQ (R238). [DESIGN CHOICE, log 42] -/
def execCapq (o : Ops) (s : State) :=
  issue (.capq o) o [rg o.dNum, rg o.aNum] (fun s =>
    let c := s.cx
    let give (x : Nat) (s : State) : Eff := .done (pendResult { slot := 0, g := [(o.dNum, BitVec.ofNat 64 x)] } [rg o.dNum] s)
    if c.sr.capmode.getLsbD 0 = false then give 0xFFFD s
    else match (s.dctx c.dc).regions.find? (fun e => e.1 == (c.getG o.aNum).toNat) with
      | none => give (Config.noRegion (c.getG o.aNum).toNat).toNat s
      | some (_, r) => give r.shown (if r.shown = s.coreNo then s.acquire s.coreNo 3 else s)) s

/-- SSEND (R239): the step s is context state; the context is tried again until its step's wait is over. Its core keeps the arrival at `b7`, so that an
SSEND that a pre-emption has ended, and that goes on at its step, arrives once for each phase. A core that is no member of `b7` traps as its BARR and BARW do
(R231). [DEDUCED, log 64] -/
def execSsend (o : Ops) (s : State) :=
  issue (.ssend o) o [rg o.aNum] (fun s =>
    let c := s.cx
    let k := s.coreNo
    let b := s.bar k 7
    let mark : Option SsMark := (s.co.ss.find? (fun e => e.1 == c.uid)).map (fun e => e.2)
    let step (n : Nat) (s : State) : State := s.setCx { s.cx with sstep := BitVec.ofNat 2 n }
    let arrive (n : Nat) : Eff :=
      if s.barReady 7 = false then .stall
      else
        let l := s.isLatched k 7
        let t := s.setCo { s.co with ss := tset s.co.ss c.uid (if l then .kept n else .arrived n) }
        .hold (.barw 7 b.phase) (((step (if n = 1 then 1 else 3) (t.setBar k 7 (b.arrive l))).poke k).latchOf k 7)
    let wait : Eff := if c.wait = .none then .hold (.barw 7 b.phase) s else .stall
    let past (s : State) : State := s.setCo { s.co with ss := tdel s.co.ss c.uid }
    if c.wait = .none ∧ s.atCheckpoint = false then .trap s.ckTrap
    else if c.sr.capmode.getLsbD 0 = false then .trap (capTrapOf 0x1FFF 0xFFFD)
    else if (s.group 7).member k = false ∧ c.sstep ≠ 2 then .trap nonMember
    else match c.sstep.toNat with
      | 0 => arrive 1
      | 1 =>
        let ended : Bool := match mark, c.wait with
          | some m, _ => m == .ended
          | none, .barw _ ph => b.phase != ph
          | none, _ => !b.arrived
        if ended = false then wait
        else
          let a := (c.getG o.aNum).toNat
          let s := s.acquire k 3
          if a = 0 then .hold .erdv (step 2 (past s))
          else if a % 64 ≠ 0 then .trap (trapAt 3 a (info 15 9 0))
          else if 16 ≤ s.co.copy.waiting then .stall
          else .hold .erdv (step 2 (past (s.setCo (s.co.queueProg false a none c.trans c.uid))))
      | 2 => match s.co.copy.fault with
        | some f => .trap (f.trap false)
        | none => if s.co.copy.quiet then .hold .erdv (step 3 s) else if c.wait = .none then .hold .erdv s else .stall
      | _ => match mark with
        | none => arrive 3
        | some m => if m = .ended then .done (step 0 (past (s.acquire k 3))) else wait) s

/-- The control words of an inbox ring (R240): base, size, head, tail. [DESIGN CHOICE, log 35] -/
structure Ring where
  base : Nat
  size : Nat
  head : Nat
  tail : Nat

/-- Address of a ring's control words. [DESIGN CHOICE, log 35] -/
def ringAt (i : Nat) : Nat := 0x17FC0 + 16 * i

/-- The ring i of a core. -/
def Core.ring (c : Core) (i : Nat) : Ring :=
  let w (j : Nat) := mread c.lmem (ringAt i + 4 * j) 4
  { base := w 0, size := w 1, head := w 2, tail := w 3 }

/-- Does a ring keep the limits of R240? [DESIGN CHOICE, log 35] -/
def Ring.ok (r : Ring) : Bool :=
  r.base % 16 == 0 && r.size % 16 == 0 && decide (r.base + r.size ≤ 0x17FC0) && decide (r.head < r.size) && decide (r.tail < r.size)

/-- Where a message of m bytes goes, and whether a pad marker goes at the tail first; none when it is refused (R241). [DESIGN CHOICE, log 35] -/
def Ring.place (r : Ring) (m : Nat) : Option (Nat × Bool) :=
  let used := (r.tail + r.size - r.head) % r.size
  let free := (r.size : Int) - 16 - used
  if r.ok = false then none
  else if r.tail + m ≤ r.size ∧ (m : Int) ≤ free then some (r.tail, false)
  else if r.size < r.tail + m ∧ ((r.size - r.tail + m : Nat) : Int) ≤ free then some (0, true)
  else none

/-- A message and its header (R240); the padding is not specified, the same for equal messages (R326). [DESIGN CHOICE, log 35] -/
def messageBytes (len sender tag : Nat) (payload : List Nat) : List Nat :=
  let msg := [len % 256, len / 256, sender % 256, sender / 256, 0, 0, tag % 256, tag / 256, 0, 0, 0, 0, 0, 0, 0, 0] ++ payload
  msg ++ (List.range (roundUp len 16 - len)).map (fun i => Config.messagePad msg i % 256)

/-- MSGSEND (R241). A refused send backs off by R67 and traps FEBUDGET when the budget is spent. [DESIGN CHOICE, log 35] -/
def execMsgsend (o : Ops) (s : State) :=
  issue (.msgsend o) o [rg o.aNum, rg o.bNum] (fun s =>
    let c := s.cx
    let a := (c.getG o.aNum).toNat
    let b := (c.getG o.bNum).toNat
    let len := fld b 0 13
    let dest := fld b 32 11
    let i := fld b 16 2
    let r := (s.core dest).ring i
    if 4096 < len ∨ fld b 13 3 ≠ 0 ∨ fld b 18 14 ≠ 0 ∨ fld b 43 5 ≠ 0 ∨ 1535 < dest then .trap (protEntry 15 7 0)
    else if r.size = 0 then .trap (protEntry 15 7 0)
    else if len ≠ 0 ∧ 0x18000 < a + len then .trap (localTrap (max a 0x18000) 4)
    else if s.co.busy 2 a (a + len) = true ∨ s.releaseReady s.coreNo (s.cur % 8) = false then .stall
    else
      let m := 16 + roundUp len 16
      match r.place m with
      | none => retryOr c s.tick { cause := 7, xinfo := 4 } s
      | some (at_, pad) =>
        let msg := messageBytes len s.coreNo (fld b 48 16) (mbytes s.co.lmem a len)
        let d := s.core dest
        let l := if pad then mblit d.lmem (r.base + r.tail) [255, 255, 0, 0, 0, 0, 0, 0, 0, 0, 0, 0, 0, 0, 0, 0] else d.lmem
        let l := mblit l (r.base + at_) msg
        .done (s.setCore dest { d with lmem := mwrite l (ringAt i + 12) 4 ((at_ + m) % r.size) })) s

/-- MSGSEND_RETRY (R241). -/
def execMsgsendRetry (core slot : Nat) (s : State) :=
  retryEvent core slot (fun i s => match i with | .msgsend o => some (execMsgsend o s) | _ => none) s

/-- MSGRECV (R242). A header stands at head only while head and tail differ. [DESIGN CHOICE, log 35] -/
def execMsgrecv (o : Ops) (s : State) :=
  issue (.msgrecv o) o [rg o.dNum] (fun s =>
    let i := o.a.toNat
    let co := s.co
    let r := co.ring i
    let give (x : Word) (s : State) : Eff := .done (pendResult { slot := 0, g := [(o.dNum, x)] } [rg o.dNum] s)
    let len (h : Nat) := mread co.lmem (r.base + h) 2
    if co.busy 2 (ringAt i) (ringAt i + 16) then .stall
    else if r.size = 0 ∨ r.head = r.tail then give 0 s
    else if co.busy 2 (r.base + r.head) (r.base + r.head + 16) = true ∨ (len r.head = 0xFFFF ∧ co.busy 2 r.base (r.base + 16) = true) then .stall
    else
      let h := if len r.head = 0xFFFF then 0 else r.head
      let set (h : Nat) (s : State) : State := s.setCo { s.co with lmem := mwrite s.co.lmem (ringAt i + 8) 4 h }
      let s := if h = r.head then s else set h s
      if h = r.tail then give 0 s
      else
        let s := if bit0Of o 0 then set ((h + 16 + roundUp (len h) 16) % r.size) s else s
        give (BitVec.ofNat 64 (2 ^ 63 + r.base + h)) (s.acquire s.coreNo 3)) s

end Sys2Proof.Machine
end

