-- ==== Sys2Proof/Machine/System.lean ====
section
/-! DEFINITION. System instructions of page 10 (R244 to R255), trap entry, the trap report, and the hardware walker (R47, R345, R348, R352). -/

namespace Sys2Proof.Machine

open Sys2Proof

/-- Does a mode permit reading a status register (R245)? -/
def sregReadable (super : Bool) (n : Nat) : Bool := super || (decide (6 ≤ n) && n != 16)

/-- Does a mode permit writing a status register (R245)? -/
def sregWritable (super : Bool) (n : Nat) : Bool := if super then n != 18 && n != 19 && n != 20 else decide (6 ≤ n) && decide (n ≤ 11)

/-- The value of a status register other than `mctl` (R245). -/
def State.sreg (s : State) (n : Nat) : Word :=
  let r := s.cx.sr
  match n with
  | 0 => r.xstat | 1 => r.xcause | 2 => r.xpc | 3 => r.xaddr | 4 => r.xinfo | 5 => r.tvec | 6 => r.rbudget | 7 => r.parkctl
  | 8 => r.xflags | 9 => r.xenable | 11 => r.qbase | 12 => r.ckbase | 13 => r.prvbase | 14 => r.hbase | 15 => r.hlimit
  | 16 => r.hoffset | 17 => r.ctxid | 18 => w64 s.coreNo | 19 => s.now | 20 => w64 s.co.fduty.toNat | _ => r.capmode

/-- A write of a status register: reserved and read-only fields keep their values (R6, R245, R246). -/
def SRegs.write (r : SRegs) (n : Nat) (x : Word) : SRegs :=
  match n with
  | 0 => { r with xstat := w64 (setFld (setFld r.xstat.toNat 1 1 (fld x.toNat 1 1)) 4 2 (fld x.toNat 4 2)) }
  | 1 => { r with xcause := keep x 7 0 }
  | 2 => { r with xpc := keep x 55 0 }
  | 3 => { r with xaddr := x }
  | 4 => { r with xinfo := x }
  | 5 => { r with tvec := keep x 55 0 }
  | 6 => { r with rbudget := keep x 7 0 }
  | 7 => { r with parkctl := keep x 0 0 }
  | 8 => { r with xflags := keep x 5 0 }
  | 9 => { r with xenable := keep x 5 0 }
  | 11 => { r with qbase := keep x 55 0 }
  | 12 => { r with ckbase := keep x 55 0 }
  | 13 => { r with prvbase := keep x 55 0 }
  | 14 => { r with hbase := keep x 55 0 }
  | 15 => { r with hlimit := keep x 55 0 }
  | 16 => { r with hoffset := x }
  | 17 => { r with ctxid := keep x 15 0 }
  | 21 => { r with capmode := keep x 0 0 }
  | _ => r

/-- MFS (R248). -/
def execMfs (o : Ops) (s : State) :=
  let n := o.aNum
  issue (.mfs o) o (if n = 10 then [rg o.dNum, rg (o.dNum + 1)] else [rg o.dNum]) (fun s =>
    let c := s.cx
    if sregReadable c.super n = false then .trap (privileged n)
    else if n = 10 then
      let m := c.sr.mctl.toNat
      .done (pendResult { slot := 0, g := [(o.dNum, w64 m), (o.dNum + 1, w64 (m / 2 ^ 64))] } [rg o.dNum, rg (o.dNum + 1)] s)
    else .done (pendResult { slot := 0, g := [(o.dNum, s.sreg n)] } [rg o.dNum] s)) s

/-- The value that MTS writes: plain, `.set` or `.clr` (R248). [DEDUCED, log 58] -/
def mtsValue (o : Ops) (old x : Nat) (w : Nat) : Nat := match fld (o.clsOr 0) 0 2 with
  | 1 => old ||| x
  | 2 => old - (old &&& x)
  | _ => x % 2 ^ w

/-- MTS (R245, R248). [DEDUCED, log 58] -/
def execMts (o : Ops) (s : State) :=
  let n := o.dNum
  issue (.mts o) o (if n = 10 then [rg o.aNum, rg (o.aNum + 1)] else [rg o.aNum]) (fun s =>
    let c := s.cx
    if sregWritable c.super n = false then .trap (privileged n)
    else if n = 10 then
      let x := mtsValue o c.sr.mctl.toNat (c.getGs o.aNum 2) 128
      if mctlBad s.coreNo x then .trap (ill 9) else .done (s.setCx { c with sr := { c.sr with mctl := mctlOf x } })
    else
      let x := mtsValue o (s.sreg n).toNat (c.getG o.aNum).toNat 64
      if (n = 5 ∧ x % 2 = 1) ∨ (n = 12 ∧ x % 64 ≠ 0) then .trap (trapAt 3 (fld x 0 56) (info 15 15 0))
      else .done (s.setCx { c with sr := c.sr.write n (w64 x) })) s

/-- TRET (R249): pending results drain first. [DEDUCED, log 58] -/
def execTret (o : Ops) (s : State) :=
  issue (.tret o) o [] (fun s =>
    let c := s.cx
    if c.super = false then .trap (privileged 0)
    else if c.drained = false then .stall
    else if c.sr.xpc.getLsbD 0 then .trap (trapAt 3 (fld c.sr.xpc.toNat 0 56) (info 15 15 0))
    else .jump (s.setCx c.leaveTrap) c.leaveTrap.pc) s

/-- The services that Cethen provides (R373). [DEDUCED, log 37] -/
def fwProvided (svc : Nat) : Bool := [0, 1, 2, 3, 512, 516, 517, 520, 530].contains svc

/-- FWCALL (R250). A service that Cethen does not provide is answered at once. [DEDUCED, log 37] -/
def execFwcall (o : Ops) (s : State) :=
  issue (.fwcall o) o [rg o.dNum, rg o.bNum] (fun s =>
    let c := s.cx
    let svc := o.imm.toNat
    if 512 ≤ svc ∧ c.super = false then .trap (privileged 0)
    else if c.wait ≠ .none ∨ s.releaseReady s.coreNo (s.cur % 8) = false then .stall
    else if fwProvided svc = false then .done ((s.setCx (c.setG o.dNum (-1))).acquire s.coreNo 4)
    else
      let q : FwReq := { id := s.nextFw, core := s.coreNo, slot := s.cur % 8, svc, arg := c.getG o.bNum, dc := c.dc, trans := c.trans }
      .hold (.fw s.nextFw) { s with fwq := s.fwq ++ [q], nextFw := s.nextFw + 1 }) s

/-- What a TLBINV or a page-out removes: every entry, those of a device context, or those of the pages of one that meet the named ranges, at every page
size (R251). [DEDUCED, log 36] -/
inductive Flush where
  | all
  | ctx (id : Nat)
  | pages (id : Nat) (ps : List (Nat × Nat))

/-- Does a removal take a TLB entry? -/
def Flush.takes (f : Flush) (e : TlbEnt) : Bool := match f with
  | .all => true
  | .ctx i => e.ctxid == i
  | .pages i ps => e.ctxid == i && ps.any (fun p => decide (p.1 < e.va + e.size) && decide (e.va < p.1 + p.2))

/-- Has what used a page for a device context used what a removal names? What went through the heap triple has a page of size 0: the triple is no TLB
entry. [DEDUCED, log 36] -/
def Flush.hits (f : Flush) (ctxid : Nat) (page : Nat × Nat) : Bool := page.2 != 0 && f.takes { ctxid, va := page.1, size := page.2, w0 := 0, w1 := 0, entry := 0 }

/-- Is it the access of a waiting form in its back-off? The form translates its address again before the next evaluation. [DEDUCED, log 36] -/
def State.between (s : State) (core : Nat) (a : Access) : Bool := match (s.ctx (8 * core + a.slot)).wait with
  | .fe id _ (.backoff _) => id == a.id
  | _ => false

/-- Has a core performed every access, and completed every engine command and PST2, that used what a removal names (R251, R348)? [DEDUCED, log 36] -/
def State.flushed (s : State) (f : Flush) (core : Nat) : Bool :=
  let c := s.core core
  let eng (e : Engine) : Bool := e.flight.all (fun d => d.lists.all (fun p => !f.hits d.trans.ctxid p) && (d.rd ++ d.wr).all (fun p => p.space != 3 || !f.hits d.trans.ctxid p.page))
  c.flight.all (fun a => s.between core a || a.pieces.all (fun p => p.done || !f.hits a.trans.ctxid p.page))
  && eng c.copy && eng c.index && s.jobs.all (fun j => match j.2.kind with | .pst2 k _ _ => k != core | _ => true)

/-- Drops the named entries of a cluster and its cores. -/
def State.flushCluster (s : State) (f : Flush) (n : Nat) : State :=
  let cl := s.cluster n
  let s := if cl.tlb.any f.takes then s.setCluster n { cl with tlb := cl.tlb.filter (fun e => !f.takes e) } else s
  (List.range 32).foldl (fun s i =>
    let k := 32 * n + i
    let c := s.core k
    if c.utlb.any f.takes then s.setCore k { c with utlb := c.utlb.filter (fun e => !f.takes e) } else s) s

/-- TLBINV (R251). A private-window address is resolved by R23 step 1 first, and traps as there when the sum leaves the address space (R256). [DEDUCED, log 36] -/
def execTlbinv (o : Ops) (s : State) :=
  issue (.tlbinv o) o [rg o.aNum] (fun s =>
    let c := s.cx
    let x := (c.getG o.aNum).toNat
    let cls := o.clsOr 0
    if c.super = false then .trap (privileged 0)
    else
      let g := globalVa c.trans (fld x 0 56)
      let cls' := if bitOf cls 2 then List.range 48 else [s.coreNo / 32]
      let f : Flush := match fld cls 0 2 with
        | 0 => .pages c.trans.ctxid [(g, 1)]
        | 1 => .all
        | _ => .ctx (fld x 0 16)
      if fld cls 0 2 = 0 ∧ 2 ^ 56 ≤ g then .trap (protEntry 15 4 g)
      else if s.releaseReady s.coreNo (s.cur % 8) = false then .stall
      else if cls'.all (fun n => (List.range 32).all (fun i => s.flushed f (32 * n + i))) = false then .stall
      else .done (cls'.foldl (fun s n => s.flushCluster f n) s)) s

/-- Have the cores of a cluster performed their stores to the lines that a predicate names and that are homed elsewhere? Such a store, from its issue until
its home has acknowledged it, is what makes its line dirty in the cluster (R252). [DESIGN CHOICE, log 10] -/
def State.writtenBack (s : State) (n : Nat) (hit : Nat → Bool) : Bool :=
  (List.range 32).all (fun i => (s.core (32 * n + i)).flight.all (fun a => !a.kind.stores || a.pieces.all (fun p =>
    p.done || (keysAt p.place p.pa p.n).all (fun key => homeKey key || !hit key))))

/-- The lines that hold bytes of [a, a + len), as cache keys: what does not translate is skipped (R252). [DESIGN CHOICE, log 103] -/
def State.linesOf (s : State) (core : Nat) (t : Trans) (a len : Nat) : List Nat :=
  (((splitAt 64 (len + 1) 0 a (min len (2 ^ 56 - a))).map (cutLeaf t .load)).flatten.map (fun p => match s.xlate core t p.va.toNat with
    | .ok q => keysAt q.place q.pa p.n
    | _ => [])).flatten

/-- The lines that CINV or CWB names. -/
def State.cacheHit (s : State) (o : Ops) (dflt : Nat) : Nat → Bool :=
  if bitOf (o.clsOr dflt) 1 then fun _ => true
  else
    let ls := s.linesOf s.coreNo s.cx.trans (fld (s.cx.getG o.aNum).toNat 0 56) (s.cx.getG o.bNum).toNat
    fun k => ls.contains k

/-- CINV (R252): with `.cl` it waits for the write-back of the dirty lines, and removes the cluster's lines too. [DESIGN CHOICE, log 10] -/
def execCinv (o : Ops) (s : State) :=
  issue (.cinv o) o [rg o.aNum, rg o.bNum] (fun s =>
    let hit := s.cacheHit o 0
    let n := s.coreNo / 32
    if bit0Of o 0 = true ∧ s.writtenBack n hit = false then .stall
    else
      let s := s.setCo { s.co with dcache := s.co.dcache.filter (fun e => !hit e.1) }
      .done (if bit0Of o 0 then s.setCluster n { s.cluster n with cache := (s.cluster n).cache.filter (fun e => !hit e.1) } else s)) s

/-- CWB (R252): it waits for the write-back of the dirty lines, which stay. [DESIGN CHOICE, log 10] -/
def execCwb (o : Ops) (s : State) :=
  issue (.cwb o) o [rg o.aNum, rg o.bNum] (fun s => if s.writtenBack (s.coreNo / 32) (s.cacheHit o 1) then .done s else .stall) s

/-- PGLOB (R255). -/
def execPglob (o : Ops) (s : State) :=
  issue (.pglob o) o [rg o.dNum, rg o.aNum] (fun s =>
    let c := s.cx
    let x := (c.getG o.aNum).toNat
    let a := fld x 0 56
    if a < privStart then .done (s.setCx (c.setG o.dNum (c.getG o.aNum)))
    else
      let g := c.sr.prvbase.toNat + (a - privStart)
      if 2 ^ 56 ≤ g then .trap (protEntry 15 4 g)
      else .done (s.setCx (c.setG o.dNum (w64 (fld x 56 8 * 2 ^ 56 + g))))) s

/-- TRAP_ENTRY (R107, R352): the last pending result has arrived, and the trap is entered. -/
def execTrapEntry (core slot : Nat) (s : State) :=
  event true (fun s =>
    let k := 8 * core + slot
    let c := s.ctx k
    match c.trap with
    | some t => if c.drained then s.enterTrap k t else s
    | none => s) s

/-- The trap of a window with the lowest index; the first taken of one context (R47). -/
def firstTaken (w : List (Nat × Nat × Word)) : Option (Nat × Nat × Word) :=
  w.foldl (fun b t => match b with
    | none => some t
    | some x => if t.1 < x.1 then some t else some x) none

/-- CREP_WINDOW_CLOSE (R47). [DESIGN CHOICE, log 32] -/
def execCrepWindowClose (cluster : Nat) (s : State) :=
  event true (fun s =>
    let c := s.cluster cluster
    match firstTaken c.window with
    | none => s
    | some (k, cause, pc) =>
      let id := 2 ^ 63 + b2n (decide (1 < c.window.length)) * 2 ^ 62 + cause * 2 ^ 48 + (cluster / 12) * 2 ^ 12 + (cluster % 12) * 2 ^ 8 + (k / 8 % 32) * 8 + k % 8
      s.setCluster cluster { c with crepId := w64 id, crepPc := pc, window := [] }) s

/-- HARDWARE_WALK (R345): a core walks the tables of the resident device context for an address, and the leaf enters
its TLBs, in place of the oldest entry of a full one (R9, R23). [DESIGN CHOICE, log 11; DEDUCED, log 39] -/
def execHardwareWalk (core : Nat) (va : Word) (s : State) :=
  event (decide (va.toNat < 2 ^ 56)) (fun s => match s.resident with
    | none => s
    | some dc => match s.walk dc va.toNat with
      | .fault _ _ _ _ => s
      | .poisoned _ _ => s
      | .leaf w0 w1 entry base size _ =>
        let id := (s.recTrans dc).ctxid
        let e : TlbEnt := { ctxid := id, va := base, size, w0, w1, entry }
        let put (n : Nat) (l : List TlbEnt) : List TlbEnt := if (tlbFind l id va.toNat).isSome then l else l.drop (l.length + 1 - n) ++ [e]
        let c := s.core core
        let cl := s.cluster (core / 32)
        (s.setCore core { c with utlb := put 32 c.utlb }).setCluster (core / 32) { cl with tlb := put 2048 cl.tlb }) s

end Sys2Proof.Machine
end

