-- ==== Sys2Proof/Machine/Sched.lean ====
section
/-! DEFINITION. Command queues, launches, pickups, aging, pre-emption and abort (R17, R316, R327 to R335, R339, R359 to R361, R391, R398). -/

namespace Sys2Proof.Machine

open Sys2Proof

/-- Does device memory or host memory answer at these physical bytes, with no poisoned line among them? -/
def State.physOk (s : State) (pa n : Nat) : Bool :=
  let one (a : Nat) : Bool := placeOf a == .here || placeOf a == .host
  one pa && one (pa + n - 1) && placeOf pa == placeOf (pa + n - 1) && (placeOf pa == .host || s.poison.all (fun l => decide (64 * l + 64 ≤ pa) || decide (pa + n ≤ 64 * l)))

/-- The template of a device context is read (R334); none when it cannot be read. [DEDUCED, log 43] -/
def State.readTemplate (s : State) (n : Nat) : Option State :=
  let d := s.dctx n
  let a := fld d.tmplp.toNat 0 56
  if s.physOk a 128 = false then none
  else some (s.setDctx n { d with template := Vector.ofFn (fun i : Fin 16 => w64 (s.rd (a + 8 * i.val) 8)) })

/-- Address of the entry that a queue takes next (R327, R329). -/
def DevCtx.entryAt (d : DevCtx) : Nat := fld d.qbasep.toNat 0 56 + 256 * d.qhead.toNat

/-- Does a queue take an entry now: the device is ready, the device context owns it and is not switching out, no launch runs, no error is set,
and an entry is valid (R328, R362)? -/
def State.takes (s : State) (n : Nat) : Bool :=
  let d := s.dctx n
  s.ready && s.resident == some n && s.incoming.isNone && d.launch.isNone && fld d.qstat.toNat 4 4 == 0 && d.qsize != 0 && d.qhead != d.qtail

/-- The head of a queue goes on to the next entry. -/
def State.advance (s : State) (n : Nat) : State :=
  let d := s.dctx n
  s.setDctx n { d with qhead := w64 ((d.qhead.toNat + 1) % d.qsize.toNat) }

/-- A refused entry (R329): REF and ridx; the queue goes on. [DEDUCED, log 43] -/
def State.refuse (s : State) (n : Nat) : State :=
  let d := s.dctx n
  (s.setDctx n ((d.setStat 11 1 1).setStat 16 16 d.qhead.toNat)).advance n

/-- Takes the entry at the head of a queue when its kind is one of those named and no commit holds it (R81); a ring that cannot be read sets err 2. `f` is given the entry's
words. [DEDUCED, log 43] -/
def takeEntry (n : Nat) (kinds : Nat → Bool) (f : (Nat → Nat) → State → State) (s : State) : Host.Outcome State Fault Refusal :=
  event (s.takes n) (fun s =>
    let a := (s.dctx n).entryAt
    if s.physOk a 256 = false then s.setDctx n ((s.dctx n).setStat 4 4 2)
    else if s.placeHeld (placeOf a) a 256 then s
    else
      let w (i : Nat) : Nat := s.rd (a + 8 * i) 8
      if kinds (fld (w 31) 0 8) then f w s else s) s

/-- Are words lo to hi of an entry 0? -/
def zeros (w : Nat → Nat) (lo hi : Nat) : Bool := (List.range (hi + 1 - lo)).all (fun i => w (lo + i) == 0)

/-- QTAIL_DOORBELL (R328). [DESIGN CHOICE, log 13] -/
def execQtailDoorbell (ctx : Nat) (t : Word) (s : State) := event (decide (ctx < 64)) (fun s => s.qtailWrite ctx t) s

/-- QSIZE_WRITE (R327). -/
def execQsizeWrite (ctx : Nat) (v : Word) (s : State) := event (decide (ctx < 64)) (fun s => s.qsizeWrite ctx v) s

/-- REGISTER_WRITE (R327): the host writes an aligned register without a behaviour of its own. -/
def execRegisterWrite (off : Nat) (v : Word) (s : State) := event (off % 8 == 0 && !hasBehaviour off) (fun s => s.plainWrite off v) s

/-- QUEUE_NOP (R329): an entry of kind 0 completes at once; one of a kind that does not exist is refused. [DEDUCED, log 43] -/
def execQueueNop (ctx : Nat) (s : State) :=
  takeEntry ctx (fun k => k == 0 || decide (3 < k)) (fun w s => if w 31 = 0 ∧ zeros w 0 30 = true then s.advance ctx else s.refuse ctx) s

/-- RULES (R339): the table is loaded once no commit is in progress. One that cannot be read, or lies in part in a poisoned line, is refused (R390). -/
def execRules (ctx : Nat) (s : State) :=
  takeEntry ctx (fun k => k == 2) (fun w s =>
    let a := w 0
    if w 31 ≠ 2 ∨ zeros w 1 30 = false ∨ a % 128 ≠ 0 ∨ 0x8000000000 < a + 2048 ∨ (s.badLine [] a 2048).isSome = true then s.refuse ctx
    else if s.jobs.any (fun j => match j.2.kind with | .commit _ _ => true | _ => false) then s
    else (s.setDctx ctx { s.dctx ctx with rules := mcopy [] 0 s.mem a 2048 }).advance ctx) s

/-- SIGNAL (R329): a write to a physical address, once no commit holds it (R81); one where nothing answers, or to a poisoned line (R390), is lost. [DEDUCED, log 43] -/
def execSignal (ctx : Nat) (s : State) :=
  takeEntry ctx (fun k => k == 3) (fun w s =>
    let a := w 0
    if w 31 ≠ 3 ∨ zeros w 2 30 = false ∨ a % 8 ≠ 0 then s.refuse ctx
    else if s.placeHeld (placeOf a) a 8 then s
    else
      let s := s.advance ctx
      if placeOf a = .window then s.winWrite (a - 2 ^ 40) 8 (w 1)
      else if placeOf a = .here ∧ (s.badLine [] a 8).isSome = true then s
      else s.storeHome (placeOf a) a 8 (w 1)) s

/-- The kinds of spread of a launch, and the largest count of each (R330). -/
def spreadMax (sp : Nat) : Nat := match sp with | 0 => 1048576 | 1 => 8 | 2 => 32 | _ => 1536

/-- The barrier group that a launch word names (R330): level and member mask. -/
def groupOk (x : Nat) : Bool :=
  let lvl := fld x 0 3
  let m := fld x 32 32
  fld x 3 29 == 0 && (match lvl with | 0 => m == 0 | 1 => decide (m < 256) | 2 => true | 3 => m == 0xFFFFFFFF | 4 => m == 0xFFFFFFFF | _ => false)

/-- The limits of R330; the reserved bits of the control template are ignored (R6, R11). [DEDUCED, log 43] -/
def launchOk (w : Nat → Nat) : Bool :=
  let count := fld (w 5) 0 21
  let sp := fld (w 5) 22 2
  let ss := bitOf (w 5) 24
  decide (w 0 < 2 ^ 56) && w 0 % 2 == 0
  && fld (w 4) 48 16 == 0 && fld (w 4) 36 4 == 0
  && fld (w 5) 25 39 == 0 && fld (w 5) 21 1 == 0 && decide (1 ≤ count) && decide (count ≤ spreadMax sp)
  && decide (w 6 < 2 ^ 32) && w 6 % 64 == 0
  && decide (w 7 < 2 ^ 56) && w 7 % 64 == 0 && decide (w 8 < 2 ^ 56) && w 8 % 64 == 0
  && (List.range 8).all (fun i => groupOk (w (9 + i)))
  && decide (w 17 < 2 ^ 56) && w 17 % 64 == 0 && decide (w 18 < 2 ^ 56) && w 18 % 64 == 0
  && decide (w 19 < 2 ^ 56) && w 19 % 64 == 0
  && zeros w 20 30 && w 31 == 1
  && (!ss || (sp == 3 && w 16 == 0))

/-- The translation with which Cethen checks and writes for a device context: in supervisor mode (R331). [DEDUCED, log 44] -/
def State.cethenTrans (s : State) (n : Nat) : Trans := { s.recTrans n with super := true }

/-- Does every byte of [va, va + n) pass as a store (R331), by R139 steps 3 to 5 and R140 alone? A parameter-record page does not. -/
def State.storable (s : State) (n : Nat) (va len : Nat) : Bool :=
  (List.range len).all (fun i => match s.checkSteps 0 (s.cethenTrans n) true .store [{ off := 0, va := (va + i : Nat), n := 1 }] with
    | .ok es => es.all (fun e => !e.2.pr)
    | .error _ => false)

/-- A physical address with its place, as one number, and back: a remote address carries its device. -/
def placeKey (p : Place) (pa : Nat) : Nat := match p with | .remote d => (d + 1) * 2 ^ 56 + pa | _ => pa

def unplace (x : Nat) : Place × Nat := if x < 2 ^ 56 then (placeOf x, x) else (.remote (x / 2 ^ 56 - 1), x % 2 ^ 56)

/-- The places of the bytes of [va, va + n), each through the tables; none unless every one passes as a store (R331). -/
def State.placesOf (s : State) (n : Nat) (va len : Nat) : Option (List Nat) :=
  if s.storable n va len then some ((List.range len).filterMap (fun i => match s.xlate 0 (s.cethenTrans n) (va + i) with
    | .ok p => some (placeKey p.place p.pa)
    | _ => none)) else none

/-- Cethen writes 8 bytes at a virtual address of a device context (R332), byte by byte where the edge of the heap range divides them. [DEDUCED, log 106] -/
def State.cethenWrite (s : State) (n va : Nat) (v : Nat) : State :=
  let t := s.cethenTrans n
  (cutLeaf t .store { off := 0, va, n := 8 }).foldl (fun s p => match s.xlate 0 t p.va.toNat with
    | .ok q => s.storeHome q.place q.pa p.n (fld v (8 * p.off) (8 * p.n))
    | _ => s) s

/-- Record i of a launch (R332); the reserved bits of its control word are 0 (R6, R11). -/
def State.writeRecord (s : State) (n : Nat) (w : Nat → Nat) (i : Nat) : State :=
  let a := w 7 + 64 * i
  [(0, w 0), (8, w 8 + i * w 6), (16, 0), (24, setFld (w 4) 18 17 0), (32, w 1), (40, w 2), (48, w 3)].foldl (fun s e => s.cethenWrite n (a + e.1) e.2) s

/-- Places record i of a launch (R332): on a cluster queue, or pinned on a core's deque. -/
def State.placeRecord (s : State) (n : Nat) (w : Nat → Nat) (i : Nat) : State :=
  let e : QEnt := { rcd := w64 (w 7 + 64 * i), dc := n, prio := fld (w 4) 0 2 }
  if fld (w 5) 22 2 = 0 then s.enqueue (i % 48) e.prio e else s.pushDeque i { e with pin := some i }

/-- The truss layout of a launch (R331). [DEDUCED, log 44] -/
def launchTruss (w : Nat → Nat) : Vector Group 8 :=
  Vector.ofFn (fun i : Fin 8 =>
    let x := w (9 + i.val)
    let g : Group := { level := fld x 0 3, mask := BitVec.ofNat 32 (fld x 32 32), spread := fld (w 5) 22 2, count := fld (w 5) 0 21 }
    if i.val = 7 ∧ bitOf (w 5) 24 = true then { g with level := 4, mask := 0xFFFFFFFF } else g)

/-- The region table as the device reads it when a superstep launch begins (R358): the valid regions. An entry in a poisoned line is none (R390). [DESIGN CHOICE, log 27] -/
def State.readRegions (s : State) (base : Nat) : Tbl Region :=
  if base = 0 then []
  else (List.range 4096).filterMap (fun i =>
    let w0 := s.rd (base + 16 * i) 8
    let w1 := s.rd (base + 16 * i + 8) 8
    let lg := fld w0 1 6
    if s.poison.contains ((base + 16 * i) / 64) = false ∧ bitOf w0 0 = true ∧ 16 ≤ lg ∧ lg ≤ 56 then some (i, { base := fld w0 16 40 * 2 ^ 16, log2 := lg, owner := fld w1 0 16, sharer := fld w1 16 16 }) else none)

/-- The digest record of a launch is set, and the WL bits of its window are cleared (R324, R325). -/
def State.startDigest (s : State) (n base size : Nat) : State :=
  if size = 0 then s
  else { s with
    digests := tset s.digests n { base, size }
    lineMeta := s.lineMeta.map (fun (e : Nat × BitVec 32) => if base ≤ 64 * e.1 ∧ 64 * e.1 < base + size then (e.1, e.2 &&& 0xFFFEFFFF) else e) }

/-- The launch digest (R324): the sum of the piers' sums. -/
def State.digestSum (s : State) (n : Nat) : Nat :=
  match s.digests.find? (fun e => e.1 == n) with
  | none => 0
  | some (_, d) => (d.sums.toList.foldl (fun t x => t + x) 0).toNat

/-- Cethen writes bytes, each at its own place. -/
def State.writeBytes (s : State) (places : List Nat) (bs : List Nat) : State :=
  (places.zip bs).foldl (fun (s : State) (e : Nat × Nat) => s.storeHome (unplace e.1).1 (unplace e.1).2 1 e.2) s

/-- A launch completes with a status (R331, R333): the digest is read and its record released, `qstat` and the completion record are written,
the vector is raised, and the queue may go on. [DEDUCED, log 44] -/
def State.complete (s : State) (n : Nat) (l : Launch) (status ticks : Nat) : State :=
  let sum := s.digestSum n
  let s := { s with digests := tdel s.digests n }
  let d := (s.dctx n).setStat 12 4 status
  let d := if l.completion.isNone then d.setStat 16 16 l.entry else d
  let s := s.setDctx n { d with launch := none, live := 0, aborting := false, lnch := d.lnch + 1 }
  let s : State := match l.completion with
    | none => s
    | some xs => s.writeBytes xs (toBytes 8 status ++ toBytes 8 sum ++ toBytes 8 ticks ++ toBytes 8 l.created)
  { s with msix := s.msix ++ [fld (vget d.template 9 0).toNat 32 11] }

/-- Does a commit in progress hold the completion record of a launch (R81)? [DEDUCED, log 25] -/
def State.completionHeld (s : State) (completion : Option (List Nat)) : Bool := completion.any (fun xs => xs.any (fun x => s.placeHeld (unplace x).1 (unplace x).2 1))

/-- Does a commit hold what a launch reads or writes: the template, the completion record, its records, or the region table (R81)? [DEDUCED, log 25] -/
def State.launchHeld (s : State) (n : Nat) (w : Nat → Nat) : Bool :=
  let d := s.dctx n
  s.jobs ≠ [] && (s.blockBusy (fld d.tmplp.toNat 0 56) 128 || s.completionHeld (s.placesOf n (w 19) 32) || !s.bytesFree 0 (s.cethenTrans n) (w 7) (64 * fld (w 5) 0 21)
    || (bitOf (w 5) 24 && s.blockBusy (fld d.rtbase.toNat 16 40 * 2 ^ 16) 0x10000))

/-- Does a spread name a fenced core (R391)? -/
def State.spreadFenced (s : State) (w : Nat → Nat) : Bool :=
  fld (w 5) 22 2 != 0 && (List.range (fld (w 5) 0 21)).any (fun i => (s.core i).fenced)

/-- Does a window overlap that of another device context's live launch (R325)? -/
def State.digestOverlaps (s : State) (n base size : Nat) : Bool :=
  size != 0 && s.digests.any (fun e => e.1 != n && decide (base < e.2.base + e.2.size) && decide (e.2.base < base + size))

/-- A launch starts (R332): digest, truss, with the phases whose conditions it makes hold (R230), region table, then the records are written and placed. [DEDUCED, log 44] -/
def State.startLaunch (s : State) (n : Nat) (w : Nat → Nat) (completion : Option (List Nat)) : State :=
  let d := s.dctx n
  let count := fld (w 5) 0 21
  let super := bitOf (w 5) 24
  let s := s.startDigest n (w 17) (w 18)
  let l : Launch := { entry := d.qhead.toNat, completion, dsize := w 18, firstTick := s.tick, super }
  let d := { d with launch := some l, live := 0, regions := if super then s.readRegions (fld d.rtbase.toNat 16 40 * 2 ^ 16) else d.regions }
  let s := ({ s.setDctx n (d.born count) with truss := launchTruss w } : State).latchAll
  let s := s.advance n
  let s := (List.range count).foldl (fun s i => s.writeRecord n w i) s
  (List.range count).foldl (fun s i => s.placeRecord n w i) s

/-- LAUNCH (R330 to R332), once no commit holds what it accesses (R81): the template is read, the limits are checked, and the launch starts or completes at once with its status. [DESIGN CHOICE, log 13; DEDUCED, log 43] -/
def execLaunch (ctx : Nat) (s : State) :=
  takeEntry ctx (fun k => k == 1) (fun w s => if s.launchHeld ctx w then s else match s.readTemplate ctx with
    | none => s.setDctx ctx ((s.dctx ctx).setStat 4 4 3)
    | some s =>
      let count := fld (w 5) 0 21
      let completion : Option (List Nat) := s.placesOf ctx (w 19) 32
      let stop (status : Nat) (s : State) : State :=
        let l : Launch := { entry := (s.dctx ctx).qhead.toNat, completion }
        (s.advance ctx).complete ctx l status 0
      if launchOk w = false then stop 1 s
      else if s.spreadFenced w then stop 1 { s with regs := { s.regs with raslast := 1 } }
      else if completion.isNone || !s.storable ctx (w 7) (64 * count) || !s.storable ctx (w 8) (count * w 6) then stop 2 s
      else if s.digestOverlaps ctx (w 17) (w 18) then stop 4 s
      else s.startLaunch ctx w completion) s

/-- LAUNCH_COMPLETION (R333): no record is live, the engine queues of every core are empty, and the launch's own stores and commands are performed: the
completion is their release (R341). [DEDUCED, log 44] -/
def execLaunchCompletion (ctx : Nat) (s : State) :=
  event (s.ready && s.resident == some ctx) (fun s =>
    let d := s.dctx ctx
    match d.launch with
    | none => s
    | some l =>
      if d.live ≠ 0 ∨ d.aborting = true ∨ s.cores.all (fun e => e.2.copy.quiet && e.2.index.quiet && e.2.flight.isEmpty) = false ∨ s.completionHeld l.completion = true then s
      else s.complete ctx l 0 (s.tick - l.firstTick)) s

/-- Takes the entry at position i out of a list. -/
def takeAt {α : Type} (l : List α) (i : Nat) : List α := l.take i ++ l.drop (i + 1)

/-- The last entry that a predicate names. -/
def findLast {α : Type} (l : List α) (f : α → Bool) : Option Nat := (l.reverse.findIdx? f).map (fun j => l.length - 1 - j)

/-- The record that a free slot of a core takes, and the state without it (R17): the core's own deque from the LIFO end, the cluster queue by level,
then the other cores' deques in rotation from the FIFO end, pinned records skipped. A record that the slot cannot take is passed by (R317). -/
def State.nextRecord (s : State) (core : Nat) : Option (QEnt × State) :=
  let c := s.core core
  let ok (e : QEnt) : Bool := s.takeable core e
  let take (l : List QEnt) (i : Nat) (f : List QEnt → State) : Option (QEnt × State) := (l[i]?).map (fun e => (e, f (takeAt l i)))
  match findLast c.deque ok with
  | some i => take c.deque i (fun l => s.setCore core { c with deque := l })
  | none =>
    let n := core / 32
    let cl := s.cluster n
    let level (v : Nat) : Option (QEnt × State) :=
      let l := vget cl.queues v []
      (l.findIdx? ok).bind (fun i => take l i (fun l => s.setCluster n { cl with queues := cl.queues.setIfInBounds v l }))
    match [3, 2, 1, 0].findSome? level with
    | some r => some r
    | none => (List.range 31).findSome? (fun i =>
      let k := n * 32 + (core % 32 + 1 + i) % 32
      let t := s.core k
      if t.fenced then none
      else (t.deque.findIdx? (fun e => e.pin == none && ok e)).bind (fun i => take t.deque i (fun l => s.setCore k { t with deque := l })))

/-- PICKUP (R12, R17, R317, R391). [DESIGN CHOICE, log 13; DESIGN CHOICE, log 32] -/
def execPickup (core slot : Nat) (s : State) :=
  event (s.ready && s.incoming.isNone && decide (core < 1536) && decide (slot < 8)) (fun s =>
    let k := 8 * core + slot
    match s.resident with
    | none => s
    | some n =>
      if (s.ctx k).occ = true ∨ (s.core core).fenced = true ∨ (s.dctx n).aborting = true then s
      else match s.nextRecord core with
        | none => s
        | some (e, s) => s.load k e) s

/-- The aging bound of a level below 3 (R334). -/
def ageOf (t : Vector Word 16) (level : Nat) : Nat := match level with
  | 0 => fld (vget t 8 0).toNat 0 32
  | 1 => fld (vget t 8 0).toNat 32 32
  | _ => fld (vget t 9 0).toNat 0 32

/-- Has the entry that has waited longest at a level waited for the whole bound (R335, R336)? -/
def State.overdue (s : State) (cluster level : Nat) : Bool :=
  match (vget (s.cluster cluster).queues level []).head?, s.resident with
  | some e, some dc =>
    let age := ageOf (s.dctx dc).template level
    age != 0 && decide (age ≤ s.tick - e.tick)
  | _, _ => false

/-- QUEUE_AGING_PROMOTION (R335): the entry that has waited longest at a level, which is the first, has waited for the bound and moves to the tail of
the next. -/
def execQueueAgingPromotion (cluster level n : Nat) (s : State) :=
  event (s.ready && decide (cluster < 48) && decide (level < 3)) (fun s =>
    let c := s.cluster cluster
    match vget c.queues level [] with
    | e :: r => if n ≠ 0 ∨ s.overdue cluster level = false then s
      else (s.setCluster cluster { c with queues := c.queues.setIfInBounds level r }).enqueue cluster (level + 1) e
    | [] => s) s

/-- Ends a wait that a pre-emption ends, with no effect of the instruction (R71, R134, R197, R205, R228, R231, R254). An evaluation, a park
request, a message, a service request and an access are waited for. [DEDUCED, log 22; DEDUCED, log 45; DEDUCED, log 64] -/
def State.endWait (s : State) (k : Nat) : State :=
  let c := s.ctx k
  let off : Ctx := { c with wait := .none, held := none }
  match c.wait with
  | .fe id _ (.backoff _) => (s.dropAccess (k / 8) id).setCtx k off
  | .waitc _ _ => s.setCtx k (match c.held with | some (.waitc o) => off.mark false (rp o.dNum) | _ => off)
  | .erdv => s.setCtx k off
  | .idle _ => s.setCtx k off
  | .gang _ _ => (s.setCtx k off).meetGangs (k / 64) none
  | .retry _ _ => (match c.held with | some (.msgsend _) => s | _ => s.setCtx k off)
  | .barw _ _ => s.setCtx k { off with pinned := true }
  | _ => s

/-- The waits that a pre-emption ends so that the context leaves at the checkpoint where it waited (R71, R134, R228, R231, R254). [DEDUCED, log 45] -/
def Wait.leaves : Wait → Bool
  | .fe _ _ (.backoff _) => true
  | .waitc _ _ => true
  | .erdv => true
  | .idle _ => true
  | .barw _ _ => true
  | _ => false

/-- A pre-emption request to a core (R359): its waits end as their rules say, each context is asked to leave at its next checkpoint, or in user
mode with PM = 1 to take a PREEMPT trap, but for one whose wait ends at its checkpoint. The deadline runs while the device context switches out. [DEDUCED, log 45] -/
def State.preemptCore (s : State) (core : Nat) : State :=
  let pm := (s.dctx (s.resident.getD 0)).dlctl.getLsbD 32
  let s := (State.slotsOf core).foldl (fun s k =>
    let c := s.ctx k
    if c.occ = false ∨ c.stopped = true then s
    else
      let w := (s.ctx k).wait
      let s := s.endWait k
      let c := s.ctx k
      let leaves := w.leaves && (s.checkpoint core c c.pc).isSome
      s.setCtx k { c with preempt := true, pmTrap := pm && !c.super && !leaves }) s
  if s.incoming.isSome && (State.slotsOf core).any (fun k => (s.ctx k).occ) then s.setCore core { s.core core with preemptAt := some s.tick } else s

/-- PREEMPT_REQUEST (R359). [DEDUCED, log 45] -/
def execPreemptRequest (core : Nat) (s : State) :=
  event (s.ready && s.resident.isSome && decide (core < 1536)) (fun s => s.preemptCore core) s

/-- May a context leave the core for a pre-emption: nothing is in the way of the leave? [DEDUCED, log 45] -/
def State.mayLeave (s : State) (k : Nat) : Bool :=
  let c := s.ctx k
  c.occ && c.preempt && !c.pmTrap && !c.stopped && c.trap.isNone && c.ecc.isNone && c.unrestored.isNone && c.wait == .none && !(s.dctx c.dc).aborting

/-- LEAVE_AT_CHECKPOINT (R231, R316, R361): the record goes to the cluster queue, or pinned to the core's deque when a barrier wait was ended. [DEDUCED, log 45] -/
def execLeaveAtCheckpoint (core slot : Nat) (s : State) :=
  event (decide (slot < 8)) (fun s =>
    let k := 8 * core + slot
    let c := s.ctx k
    if s.mayLeave k = false then s
    else match s.checkpoint core c c.pc with
      | none => s
      | some ckid =>
        if s.leaveReady k (s.entryWords core c ckid) = false then s
        else match s.saveContext k ckid with
          | .error t => s.saveFault k t
          | .ok s =>
            let e := s.leaveEntry k c.pinned
            let s := s.vacate k
            if c.pinned then s.pushDeque core e else s.enqueue (core / 32) e.prio e) s

/-- Is a context to be hard-saved now, its deadline having passed (R359)? -/
def State.saveDue (s : State) (k : Nat) : Bool :=
  s.incoming.isSome && (match s.resident, (s.core (k / 8)).preemptAt with
    | some n, some at_ => (s.ctx k).occ && decide (at_ + fld (s.dctx n).dlctl.toNat 0 32 ≤ s.tick) && (s.ctx k).trap.isNone && !(s.dctx n).aborting
    | _, _ => false)

/-- May a context be saved whole: its results have come, it waits for nothing, and its accesses are performed (R107, R360)? -/
def State.saveReady (s : State) (k : Nat) : Bool :=
  (s.ctx k).drained && (s.ctx k).wait == .none && s.releaseReady (k / 8) (k % 8)

/-- HARD_SAVE (R359, R360): past the deadline a wait that the context has begun since the request ends as those at the request; once its results have
drained, the context is saved whole, into its image too. Its slots and bindings stay its own. [DEDUCED, log 45] -/
def execHardSave (core slot : Nat) (s : State) :=
  event (decide (slot < 8)) (fun s =>
    let k := 8 * core + slot
    if s.saveDue k = false then s
    else
      let s := s.endWait k
      if s.saveReady k = false then s
      else
        let s := s.putSaved k
        let n := (s.ctx k).dc
        let d := s.dctx n
        let sv := d.saved.getD {}
        let c : Ctx := { s.ctx k with preempt := false, sw := false, yld := none, pinned := false }
        ((s.setDctx n { d with saved := some { sv with ctxs := tset sv.ctxs k c } }).setCore core ((s.core core).entitle slot c.uid)).freeCtx k) s

/-- Removes a device context's records from the park table, from the wake list that a slot's ctxid names, and from those on their way to a cluster
queue (R357, R398); a chain that a poisoned line breaks is left as it is (R390). [DESIGN CHOICE, log 27] -/
def State.unparkAll (s : State) (n : Nat) : State :=
  let one (s : State) (p : Parked) : State :=
    let head := s.bucketAt p.word
    let all := s.chain 56 (s.parked.length + 1) head
    let woken := s.parkBase + 64 + 16 * p.ctxid
    let list := s.chain 56 (s.parked.length + 1) woken
    let rest := list.filter (· != p.slot)
    let s :=
      if s.sound s.parkBase 8 = false then s
      else if all.contains p.slot then
        let s := (s.writeChain head 56 (all.filter (· != p.slot))).wcntDown p.leaf
        if all.any (fun a => a != p.slot && s.rd (a + 64) 8 == p.word) then s else s.setWaitBit p.word false
      else if list.contains p.slot then (s.writeChain woken 56 rest).pierWrite (woken + 8) 8 (rest.getLastD 0)
      else s
    { s with parked := s.parked.filter (fun q => q.slot != p.slot) }.freeSlot p.slot
  let s := (s.parked.filter (fun p => p.ent.dc == n)).foldl one s
  { s with wakes := s.wakes.filter (fun p => p.ent.dc != n) }

/-- Removes every record of a device context (R398 step 2), the wait lists of the event counters included. [DEDUCED, log 46] -/
def State.removeRecords (s : State) (n : Nat) : State :=
  let keep (e : QEnt) : Bool := e.dc != n
  let cl (c : Cluster) : Cluster := { c with queues := c.queues.map (fun l => l.filter keep) }
  let co (c : Core) : Core := { c with deque := c.deque.filter keep, ecWait := c.ecWait.filter (fun x => keep x.1) }
  let s : State := { s with clusters := s.clusters.map (fun (e : Nat × Cluster) => (e.1, cl e.2)), cores := s.cores.map (fun (e : Nat × Core) => (e.1, co e.2)) }
  s.unparkAll n

/-- An abort begins (R398 steps 1 to 4): nothing more is placed or started, records and unstarted commands are discarded, waits end. [DEDUCED, log 46] -/
def State.beginAbort (s : State) (n : Nat) : State :=
  if (s.dctx n).launch.isNone then s
  else
    let s := s.setDctx n { s.dctx n with aborting := true }
    let s := s.removeRecords n
    let off (e : Engine) : Engine := { e with queue := [], prog := none, ends := [] }
    let co (c : Core) : Core := { c with copy := off c.copy, index := off c.index, scores := c.scores.filter (fun x => (c.engine x.eng).flight.any (fun d => d.id == x.cmd)) }
    let s : State := { s with cores := s.cores.map (fun (e : Nat × Core) => (e.1, co e.2)) }
    s.ctxs.foldl (fun s e => if (s.ctx e.1).occ then s.endWait e.1 else s) s

/-- The launch of a device context is to be aborted: now while it is resident, else at its next switch-in (R363, R398). [DEDUCED, log 46] -/
def State.abortLaunch (s : State) (n : Nat) : State :=
  if s.resident = some n then s.beginAbort n
  else if (s.dctx n).launch.isSome then s.setDctx n { s.dctx n with abortDue := true } else s

/-- Has the access that an instruction waits for been performed? A JOIN that halts waits for none. -/
def Core.answered (c : Core) (id : Nat) : Bool := c.flight.all (fun a => a.id != id || a.complete)

/-- May every context be discarded now: results drained, waits ended, accesses performed (R341), commands completed or faulted (R398 steps 3 and 4)? An
instruction that waits for an access is discarded once that is performed. [DEDUCED, log 46] -/
def State.abortReady (s : State) : Bool :=
  s.ctxs.all (fun e => !e.2.occ || (match e.2.wait with
    | .none => e.2.drained
    | .fw _ => e.2.drained
    | .access id => (s.core (e.1 / 8)).answered id && (s.core (e.1 / 8)).results.all (fun r => r.slot != e.1 % 8)
    | _ => false))
  && s.cores.all (fun e => e.2.copy.flight.isEmpty && e.2.index.flight.isEmpty && e.2.flight.all (fun a => a.complete))

/-- An engine's fault is cleared with its flag, and a command that a fault has put back is discarded (R398 steps 3 and 4). [DEDUCED, log 46] -/
def Core.clearFault (c : Core) (index : Bool) : Core :=
  let e : Engine := { c.engine index with queue := [], prog := none, ends := [] }
  match e.fault with
  | none => c.setEngine index e
  | some f => { c.setEngine index { e with fault := none } with ecf := match f.ec with | some n => c.ecf.setIfInBounds n .clear | none => c.ecf }

/-- An abort ends (R398 steps 2 to 6): the contexts are gone, what they held is free, a request to abort this launch has been met, and the launch completes with
status 3. [DEDUCED, log 46] -/
def State.endAbort (s : State) (n : Nat) : State :=
  match (s.dctx n).launch with
  | none => s
  | some l =>
    let s := s.removeRecords n
    let s : State := s.ctxs.foldl (fun (s : State) (e : Nat × Ctx) => if (s.ctx e.1).occ then (s.setCore (e.1 / 8) ((s.core (e.1 / 8)).releaseCtx (e.1 % 8))).freeCtx e.1 else s) s
    let saved : Tbl Ctx := ((s.dctx n).saved.getD {}).ctxs
    let s := saved.foldl (fun s e => s.setCore (e.1 / 8) ((s.core (e.1 / 8)).releaseCtx (e.1 % 8))) s
    let co (c : Core) : Core :=
      { ((c.kept.foldl (fun (c : Core) x => c.releaseKept x.rcd) c).clearFault false).clearFault true with exch := [], ss := [], rights := [], scores := [], flight := [], bars := c.bars.map Bar.forgo }
    let s : State := { s with cores := s.cores.map (fun (e : Nat × Core) => (e.1, co e.2)) }
    let s : State := { s.setDctx n { s.dctx n with saved := none } with fwq := s.fwq.filter (fun q => q.svc != 512 || q.dc != n) }
    s.complete n l 3 (s.tick - l.firstTick)

/-- ABORT (R373, R398): service 512 begins the abort of the caller's launch, or makes it due at the next switch-in when the caller's device context has been switched
out; an abort under way ends once everything it waits for has come. [DEDUCED, log 46] -/
def execAbort (s : State) :=
  event s.ready (fun s =>
    match s.resident with
    | none => s
    | some n =>
      if (s.dctx n).aborting then (if s.abortReady && !s.completionHeld ((s.dctx n).launch.bind (fun l => l.completion)) then s.endAbort n else s)
      else match s.fwq with
        | q :: r => if q.svc = 512 ∧ s.posted.isNone = true then { s with fwq := r }.abortLaunch q.dc else s
        | [] => s) s

/-- Has a device context a context or a pinned record on a core (R391)? -/
def State.onCore (s : State) (n core : Nat) : Bool :=
  let pinned (e : QEnt) : Bool := e.dc == n && e.pin == some core
  let sv := (s.dctx n).saved.getD {}
  let here := s.resident == some n
  (here && ((State.slotsOf core).any (fun k => (s.ctx k).occ) || (s.core core).deque.any pinned || (s.core core).ecWait.any (fun e => pinned e.1)
    || s.clusters.any (fun e => e.2.queues.toList.any (fun l => l.any pinned))))
  || (State.slotsOf core).any (fun k => thas sv.ctxs k) || (tget sv.cores core {}).deque.any pinned || (tget sv.cores core {}).ecWait.any (fun e => pinned e.1)
  || sv.queues.any (fun e => e.2.toList.any (fun l => l.any pinned)) || s.parked.any (fun p => pinned p.ent) || s.wakes.any (fun p => pinned p.ent)

/-- The error ring takes an entry (R392). [DEDUCED, log 53] -/
def State.logError (s : State) (kind core addr : Nat) : State :=
  let q := s.ringSeq + 1
  { s with ring := s.ring ++ [(s.now.toNat, kind + core * 2 ^ 16, addr, q.toNat)], ringSeq := q }

/-- A core is fenced (R391): it is logged, the phases whose conditions now hold are latched (R230), and every launch with a context or a pinned record on it is aborted; that of a device context that is
not resident at its next switch-in. -/
def State.fence (s : State) (core : Nat) : State :=
  if (s.core core).fenced then s
  else
    let s := s.setCore core { s.core core with fenced := true }
    let s := ({ s with regs := { s.regs with rasfenced := s.regs.rasfenced + 1 } }).logError 4 core 0
    let s := (List.range 8).foldl (fun s g => s.latchOf core g) s
    (List.range 64).foldl (fun s n => if (s.dctx n).launch.isSome && s.onCore n core then s.abortLaunch n else s) s

end Sys2Proof.Machine
end

