-- ==== Sys2Proof/Machine/Switch.lean ====
section
/-! DEFINITION. The switch of the device context (R340, R357, R362, R363, R387, R388). -/

namespace Sys2Proof.Machine

open Sys2Proof

/-- CONTEXT_SWITCH (R340, R359, R362 steps 1 and 2): no entry and no record is taken any more, and every core is pre-empted. [DEDUCED, log 47] -/
def execContextSwitch (incoming : Nat) (s : State) :=
  event (s.ready && s.incoming.isNone && s.resident.isSome && s.resident != some incoming && decide (incoming < 64)) (fun s =>
    let s := { s with incoming := some incoming }
    (List.range 1536).foldl (fun s k => s.preemptCore k) s) s

/-- Has an engine nothing in flight and nothing that can start (R362 step 3)? A stopped engine and one whose next command's condition does not
hold keep their queues. [DEDUCED, log 47] -/
def Core.settled (c : Core) (index : Bool) : Bool :=
  let e := c.engine index
  e.flight.isEmpty && (e.fault.isSome || ((c.starting index).isNone && e.endReady.isNone && (match e.prog, e.queue with
    | some _, .cmd d :: _ => d.index != 0xFFFF || d.back
    | some _, _ => false
    | none, .prog _ _ _ _ :: _ => false
    | none, _ => true)))

/-- Is the device quiet (R359, R362 step 3): every context has left, been saved or is stopped; engines, products, accesses, regions and commits have
drained? [DEDUCED, log 47] -/
def State.switchable (s : State) (n : Nat) : Bool :=
  s.ctxs.all (fun e => !e.2.occ || e.2.stopped)
  && s.cores.all (fun e => e.2.settled false && e.2.settled true && e.2.mat.isEmpty && e.2.flight.isEmpty && e.2.results.isEmpty)
  && (s.dctx n).regions.all (fun e => e.2.transit.isNone) && s.jobs.isEmpty && !(s.dctx n).aborting

/-- Writes the image of a core (R362); a hard save or a stop has written its own image already: `saved` tells which. [DESIGN CHOICE, log 12] -/
def State.putImage (s : State) (sv : Nat) (saved : Nat → Bool) (k : Nat) : State :=
  let c := s.core k
  let b := imageAt sv k
  let mem (m : Mem) (i : Nat) : Nat := mread m (64 * i) 64
  let s := s.putLines b (0x18000 / 64) (mem c.lmem)
  let s := s.putLines (b + 0x18000) (0x20000 / 64) (mem c.abuf)
  let s := s.putLines (b + 0x38000) (0x40000 / 64) (mem c.wbuf)
  let s := s.putLines (b + 0x78000) (0x2000 / 64) (mem c.smem)
  let s := s.putLines (b + 0x7A000) 96 (fun i => (c.norm i).toNat)
  let s := s.putLines (b + 0x7B800) (32 * 81) (fun i => fld (accImage (c.acc (i / 81))) (512 * (i % 81)) 512)
  let s := s.putLines (b + 0xA4000) 128 (imageLine (Config.coreImage c))
  (List.range 8).foldl (fun s j => if saved (8 * k + j) then s else s.putLines (b + 0xA6000 + 0x4000 * j) 256 (imageLine (Config.hardImage (s.ctx (8 * k + j))))) s

/-- What of a core is not the device context's: its time slots, its duty, its fencing (R363). [DEDUCED, log 48] -/
def Core.over (old new : Core) : Core :=
  { new with dcache := [], utlb := [], flight := [], results := [], nextId := max old.nextId new.nextId, slotNo := old.slotNo, rot := old.rot, fduty := old.fduty, fenced := old.fenced, eccCount := old.eccCount, preemptAt := none }

/-- A core as its image gives it, over what the model keeps of the parts without a layout. [DESIGN CHOICE, log 12; DEDUCED, log 48] -/
def State.getImage (s : State) (sv k : Nat) (c : Core) : Core :=
  let b := imageAt sv k
  let part (off n : Nat) : Mem := mcopy [] 0 s.mem (b + off) n
  { c with
    lmem := part 0 0x18000
    abuf := part 0x18000 0x20000
    wbuf := part 0x38000 0x40000
    smem := part 0x78000 0x2000
    norms := (List.range 96).map (fun i => (i, BitVec.ofNat 320 (fld (mread s.mem (b + 0x7A000 + 64 * i) 64) 0 272)))
    accs := (List.range 32).map (fun i => (i, accOfImage (mread s.mem (b + 0x7B800 + 5184 * i) 5184) (c.acc i).own)) }

/-- R362 step 4: images and block are written, and the outgoing context keeps its state. [DESIGN CHOICE, log 12; DEDUCED, log 47] -/
def State.switchOut (s : State) (n : Nat) : State :=
  let s := s.wakes.foldl (fun s p => s.enqueue p.cluster p.ent.prio p.ent) { s with wakes := [] }
  let sv := (s.dctx n).area
  let held := ((s.dctx n).saved.getD {}).ctxs
  let saved (k : Nat) : Bool := thas held k || (s.ctx k).occ
  let s := (List.range 1536).foldl (fun s k => s.putImage sv saved k) s
  let s := s.putOpen (sv + 1536 * 2 ^ 20) 1024
  let d := s.dctx n
  let stops := s.ctxs.filter (fun e => e.2.occ)
  let ctxs : Tbl Ctx := stops.foldl (fun t e => tset t e.1 e.2) held
  let v : Saved := { ctxs, cores := s.cores, queues := s.clusters.map (fun e => (e.1, e.2.queues)), truss := s.truss, latched := s.latched }
  let s := s.setDctx n { d with saved := some v }
  stops.foldl (fun s e => s.freeCtx e.1) s

/-- The sum of the 48 energy registers (R388). -/
def State.energyTotal (s : State) : Word := (List.range 48).foldl (fun t c => t + (s.cluster c).energy) 0

/-- R388: energy and residency are charged to the outgoing device context, in one step. -/
def State.charged (s : State) (n : Nat) : State :=
  let d := s.dctx n
  let e := s.energyTotal
  { s.setDctx n { d with energy := d.energy + (e - s.energySum), res := d.res + w64 (s.tick - s.residentSince) } with energySum := e, residentSince := s.tick }

/-- Does a poisoned line lie in the image of core k (R390)? Its state is then lost. [DESIGN CHOICE, log 27] -/
def State.badImage (s : State) (sv k : Nat) : Bool := s.poison.any (fun l => decide (imageAt sv k < 64 * l + 64) && decide (64 * l < imageAt sv k + 0xC6000))

/-- The cores whose image has a poisoned line are fenced: state of the core itself is lost with it (R390, R391). [DESIGN CHOICE, log 27] -/
def State.fenceBad (s : State) (sv : Nat) : State := if s.poison = [] then s else (List.range 1536).foldl (fun t k => if s.badImage sv k then t.fence k else t) s

/-- Does a poisoned line lie in the block of the device context's save area that follows the core images (R362, R390)? Its launch cannot go on. [DESIGN CHOICE, log 27] -/
def State.badBlock (s : State) (sv : Nat) : Bool := s.poison.any (fun l => decide (sv + 1536 * 2 ^ 20 < 64 * l + 64) && decide (64 * l < sv + 1536 * 2 ^ 20 + 0x10000))

/-- R362 step 5: cores, queues, truss and contexts of the incoming device context. [DESIGN CHOICE, log 12; DEDUCED, log 47] -/
def State.switchIn (s : State) (n : Nat) : State :=
  let d := s.dctx n
  let v := d.saved.getD {}
  let core (k : Nat) : Core := (s.core k).over (if d.saved.isSome then s.getImage d.area k (tget v.cores k {}) else {})
  let cluster (k : Nat) : Cluster := { s.cluster k with queues := tget v.queues k (Vector.replicate 4 []), tlb := [], cache := [] }
  let s := { s with
    cores := (List.range 1536).map (fun k => (k, core k))
    clusters := (List.range 48).map (fun k => (k, cluster k))
    truss := v.truss
    latched := v.latched
    ctxs := v.ctxs.foldl (fun (t : Tbl Ctx) (e : Nat × Ctx) => tset t e.1 e.2) s.ctxs }
  s.setDctx n { s.dctx n with saved := none, switches := d.switches + 1 }

/-- R357: the wake list of a device context goes to the tails of its records' priority levels, in order. [DEDUCED, log 47] -/
def State.moveWakes (s : State) (n : Nat) : State :=
  let at_ := s.parkBase + 64 + 16 * n
  let slots := s.chain 56 (s.parked.length + 1) at_
  let s := if slots = [] then s else (s.pierWrite at_ 8 0).pierWrite (at_ + 8) 8 0
  slots.foldl (fun s a => match s.parked.find? (fun p => p.slot == a) with
    | none => s
    | some p => ({ s with parked := s.parked.filter (fun q => q.slot != a) }.freeSlot a).enqueue p.cluster p.ent.prio p.ent) s

/-- SWITCH_SAVE_AND_LOAD (R362 steps 3 to 6): the template is read, and an abort that fell due, be it by an image with a poisoned line, or falls due by a poisoned line of the block, is begun before the
queue goes on. The phases whose conditions hold with what was loaded are latched (R230). [DEDUCED, log 47] -/
def execSwitchSaveAndLoad (s : State) :=
  event s.ready (fun s => match s.resident, s.incoming with
    | some o, some n =>
      if s.switchable o = false then s
      else
        let d := s.dctx n
        let s := ((s.switchOut o).charged o).switchIn n
        let s : State := { s with resident := some n, incoming := none }
        let s := (s.readTemplate n).getD (s.setDctx n ((s.dctx n).setStat 4 4 3))
        let s := s.moveWakes n
        let s := (if d.saved.isSome then s.fenceBad d.area else s).latchAll
        if (s.dctx n).abortDue || (d.saved.isSome && s.badBlock d.area) then (s.setDctx n { s.dctx n with abortDue := false }).beginAbort n else s
    | _, _ => s) s

end Sys2Proof.Machine
end

