-- ==== Sys2Proof/Machine/Firmware.lean ====
section
/-! DEFINITION. Cethen's services, the image check, and the paging mailbox (R347, R372, R373, R375, R394, R395). -/

namespace Sys2Proof.Machine

open Sys2Proof

/-- A list of numbers as bytes, and back. -/
def asBytes (l : List Nat) : List Byte := l.map (fun b => BitVec.ofNat 8 b)
def asNats (l : List Byte) : List Nat := l.map (fun b => b.toNat)

/-- n bytes of a list from position `lo` on, as if 0 followed it. -/
def sliceOf (l : List Nat) (lo n : Nat) : List Nat := (List.range n).map (fun i => l.getD (lo + i) 0)

/-- A little-endian field of a list of bytes. -/
def leAt (l : List Nat) (lo n : Nat) : Nat := ofBytes (sliceOf l lo n)

/-- The error of an image (R372): 0 none, 2 magic or length, 3 key or signature, 4 version. `len` is its stated length. -/
def imageError (img : List Nat) (len minVer : Nat) : Nat :=
  let b := leAt img 8 4
  let key := sliceOf img (3373 + b) 1952
  let sig := sliceOf img (64 + b) 3309
  if leAt img 0 4 ≠ 0x43455448 ∨ b % 64 ≠ 0 ∨ len ≠ 5325 + b then 2
  else if asBytes (sha3 key) ≠ Config.fusedKeyHash then 3
  else if Config.mldsaVerify (asBytes key) (asBytes sig) (asBytes (sha3 (sliceOf img 0 (64 + b)))) = false then 3
  else if leAt img 4 4 < minVer then 4
  else 0

/-- d of an image (R372). -/
def imageDigest (img : List Nat) : List Nat := sha3 (sliceOf img 0 (64 + leAt img 8 4))

/-- The fused minimum version (R370). [DEDUCED, log 49] -/
def State.minVersion (s : State) : Nat := fld s.regs.fwver.toNat 32 32

/-- Cethen serves the request at the head of its queue, when it is for this service and none waits for the driver (R373). [DEDUCED, log 37] -/
def serve (svc : Nat) (f : FwReq → State → State) (s : State) : Host.Outcome State Fault Refusal :=
  event s.ready (fun s => match s.fwq with
    | q :: _ => if q.svc = svc ∧ s.posted.isNone = true then f q s else s
    | [] => s) s

/-- FW_VERSION (R373): service 0. -/
def execFwVersion (s : State) := serve 0 (fun q s => s.finish q s.regs.fwver.toNat) s

/-- LINK_STATUS (R373): service 1. -/
def execLinkStatus (s : State) := serve 1 (fun q s => s.finish q (if 23 < q.arg.toNat then 1 else (s.port q.arg.toNat).ulstat.toNat)) s

/-- POWER_NOW (R373): service 2. -/
def execPowerNow (s : State) := serve 2 (fun q s => s.finish q s.regs.pwnow.toNat) s

/-- The quote without its signature (R394). -/
def State.quoteBody (s : State) (q : FwReq) : List Nat :=
  toBytes 4 0x51554F54 ++ toBytes 4 1 ++ toBytes 8 s.regs.fwver.toNat ++ toBytes 16 Config.fusedSerial ++ toBytes 8 s.regs.devid.toNat ++ toBytes 8 q.trans.ctxid
  ++ List.replicate 16 0 ++ sliceOf (asNats s.digest) 0 32 ++ sha3 (mbytes (s.dctx q.dc).rules 0 2048) ++ sliceOf (asNats Config.identityKey) 0 1952

/-- Writes bytes through translated parts; the lines that they cover whole are sound again (R390). -/
def State.writeParts (s : State) (bs : List Nat) (es : List (Part × Phys)) : State :=
  (es.foldl (fun s e => s.storeHome e.2.place e.2.pa e.1.n (leAt bs e.1.off e.1.n)) s).heal (es.map (fun e => (e.2.place, e.2.pa, e.1.n)))

/-- ATTESTATION_QUOTE (R394): service 3, once no commit holds the nonce or the place of the quote (R81). -/
def execAttestationQuote (s : State) :=
  serve 3 (fun q s =>
    let a := q.arg.toNat
    match s.checkAccess q.core q.trans true .load (cutScalar 0 (a : Nat) 64), s.checkAccess q.core q.trans true .store (cutScalar 0 (a + 64 : Nat) 5389) with
    | .ok rs, .ok ws =>
      if (rs ++ ws).any (fun e => s.placeHeld e.2.place e.2.pa e.1.n) then s
      else
      let nonce := toBytes 64 (rs.foldl (fun v e => v + s.readHome e.2.place e.2.pa e.1.n * 256 ^ e.1.off) 0)
      let body := s.quoteBody q
      let sig := sliceOf (asNats (Config.mldsaSign (asBytes (sha3 (nonce ++ body))))) 0 3309
      (s.writeParts (body ++ sig) ws).finish q 0
    | _, _ => s.finish q 1) s

/-- POWER_LIMIT (R373): service 520. [DEDUCED, log 49] -/
def execPowerLimit (s : State) :=
  serve 520 (fun q s =>
    let w := q.arg.toNat
    if s.regs.pwcap.toNat < w then s.finish q 1 else (s.setDctx q.dc { s.dctx q.dc with power := some w }).finish q 0) s

/-- FIRMWARE_UPDATE (R395): service 530, once no commit holds the image (R81). [DEDUCED, log 49] -/
def execFirmwareUpdate (s : State) :=
  serve 530 (fun q s =>
    let a := fld q.arg.toNat 0 56
    if s.bytesFree q.core q.trans a 64 = false then s
    else match s.readVa q.core q.trans a 64 with
    | none => s.finish q 1
    | some h =>
      let b := leAt (toBytes 64 h) 8 4
      if s.bytesFree q.core q.trans a (5325 + b) = false then s
      else if imageError (toBytes 64 h) (5325 + b) 0 = 2 then s.finish q 2
      else match s.readVa q.core q.trans a (5325 + b) with
        | none => s.finish q 1
        | some x =>
          let img := toBytes (5325 + b) x
          let e := imageError img (5325 + b) s.minVersion
          if e ≠ 0 then s.finish q e
          else if q.arg.getLsbD 63 = false then s.finish q 0
          else if 32 ≤ s.fuseSteps then s.finish q 5
          else ({ s with fuseSteps := s.fuseSteps + 1, regs := { s.regs with fwver := w64 (setFld s.regs.fwver.toNat 32 32 (leAt img 4 4)) } }).finish q 0) s

/-- The page that holds an address, as services 516 and 517 see it (R373): physical address of its group's first entry, virtual base, SZ code. -/
inductive PageCase where
  | noMapping
  | heap
  /-- a valid translation, with the page's physical address -/
  | valid (entry base sz pa : Nat)
  /-- a non-resident page -/
  | out (entry base sz : Nat)

/-- R23 steps 1 and 2, then the walk. [DEDUCED, log 50] -/
def State.pageCase (s : State) (t : Trans) (va : Nat) : PageCase :=
  let g := globalVa t va
  if 2 ^ 56 ≤ va ∨ 2 ^ 56 ≤ g then .noMapping
  else if t.hbase ≤ g ∧ g < t.hbase + t.hlimit then .heap
  else match s.walk t.dc g with
    | .leaf w0 _ entry base _ _ => .valid entry base (fld w0 2 4) (fld w0 12 44 * 4096)
    | .fault reason lev w0 entry =>
      let sz := fld w0 2 4
      if reason = 1 ∧ bitOf w0 1 = true ∧ 2 ≤ lev ∧ sz < 12 ∧ pageLev sz = lev then
        .out (entry - 16 * (levIndex g lev % groupCount sz)) (g / 2 ^ pageLog sz * 2 ^ pageLog sz) sz
      else .noMapping
    | .poisoned _ _ => .noMapping

/-- Posts a page request to the driver (R374, R375). -/
def State.post (s : State) (q : FwReq) (op entry base sz pa : Nat) : State :=
  let seq := s.mbseq + 1
  let r := { s.regs with
    mbreq0 := w64 base
    mbreq1 := w64 (op + sz * 2 ^ 8 + q.trans.ctxid % 64 * 2 ^ 16 + seq.toNat * 2 ^ 32)
    mbreq2 := w64 pa }
  let p : Posted := { req := q, op, va := base, size := 2 ^ pageLog sz, entry, count := groupCount sz, pa, seq := seq.toNat }
  { s with regs := r, mbseq := seq, posted := some p, msix := s.msix ++ [fld (vget (s.dctx q.dc).template 9 0).toNat 32 11] }

/-- Is the staging buffer smaller than the page's bitmap (R375)? [DEDUCED, log 50] -/
def State.stageSmall (s : State) (sz : Nat) : Bool := decide (s.regs.mbslen.toNat < 2 ^ pageLog sz / 64)

/-- PAGE_IN (R373, R375): service 516. [DEDUCED, log 50] -/
def execPageIn (s : State) :=
  serve 516 (fun q s => match s.pageCase q.trans q.arg.toNat with
    | .noMapping => s.finish q 1
    | .heap => s.finish q 0
    | .valid _ _ _ _ => s.finish q 0
    | .out entry base sz => if s.stageSmall sz then s.finish q 4 else s.post q 1 entry base sz 0) s

/-- Clears V in the first entry of a group, then in the others (R347). [DEDUCED, log 50] -/
def State.unmapGroup (s : State) (entry n : Nat) : State :=
  (List.range n).foldl (fun s i => s.pierWrite (entry + 16 * i) 1 (setFld (s.rd (entry + 16 * i) 1) 0 1 0)) s

/-- Writes a page's fe bitmap into the staging buffer, whose lines it covers whole (R375, R390). [DEDUCED, log 50] -/
def State.stageFe (s : State) (pa lines : Nat) : State :=
  let b := fld s.regs.mbstage.toNat 12 44 * 4096
  ((List.range lines).foldl (fun s i => s.storeHome (placeOf (b + i)) (b + i) 1 ((s.lineWord (pa + 64 * i)).toNat % 256)) s).clearPoison b lines

/-- PAGE_OUT (R347, R348, R375): service 517. A pinned page answers 2 before the staging buffer is looked at. The group is unmapped once every core has
performed what used the page, and no commit holds the group or the staging buffer (R81). A group with a poisoned line is no mapping, as for the walk (R390). [DESIGN CHOICE, log 27; DEDUCED, log 50] -/
def execPageOut (s : State) :=
  serve 517 (fun q s => match s.pageCase q.trans q.arg.toNat with
    | .noMapping => s.finish q 1
    | .heap => s.finish q 1
    | .out _ _ _ => s.finish q 0
    | .valid entry base sz pa =>
      let f : Flush := .pages q.trans.ctxid [(base, 2 ^ pageLog sz)]
      if s.sound entry (16 * groupCount sz) = false then s.finish q 1
      else if s.rd (entry + 7) 1 ≠ 0 then s.finish q 2
      else if s.stageSmall sz then s.finish q 4
      else if s.cores.all (fun e => s.flushed f e.1) = false ∨ s.blockBusy entry (16 * groupCount sz) = true ∨ s.blockBusy (fld s.regs.mbstage.toNat 12 44 * 4096) (2 ^ pageLog sz / 64) = true then s
      else
        let s := s.unmapGroup entry (groupCount sz)
        let s := (List.range 48).foldl (fun s n => s.flushCluster f n) s
        (s.stageFe pa (2 ^ pageLog sz / 64)).post q 2 entry base sz pa) s

/-- MAILBOX_ANSWER (R375): the driver writes `mbans1`; the write waits while a commit holds what completing the request accesses (R81). [DEDUCED, log 50] -/
def execMailboxAnswer (v : Word) (s : State) := event (!s.answerHeld) (fun s => s.mailboxWrite v) s

end Sys2Proof.Machine
end

