-- ==== Sys2Proof/Machine/Device.lean ====
section
/-! DEFINITION. Reset and boot, links, power, freeze, errors and the reference clock (R355, R371, R372, R377, R380 to R385, R389 to R392). -/

namespace Sys2Proof.Machine

open Sys2Proof

/-- RESET (R62, R63, R371, R384, R395): all state is cleared but memory contents and what is fused, and every fe bit is full; the boot ROM trains PCIe and
waits for an image: the operand is the outcome of that training. A reset also ends a freeze. [DEDUCED, log 51] -/
def execReset (pcie : Bool) (s : State) : Host.Outcome State Fault Refusal :=
  let r : State := State.reset
  let fuse := w64 (setFld 0 32 32 s.minVersion)
  let t : State := { r with mem := s.mem, rmem := s.rmem, poison := s.poison, fuseSteps := s.fuseSteps, regs := { r.regs with fwver := fuse }, turns := s.turns, turnNo := s.turnNo, freeNo := s.freeNo, pcieUp := pcie }
  .next (t.setBoot 1)

/-- Where the ROM reads the image (R370, R397): host memory at `bootsrc`. -/
def State.imageAt (s : State) : Nat := 2 ^ 55 + s.regs.bootsrc.toNat % 2 ^ 55

/-- BOOT_FETCH (R371): in state 1 the ROM ends its training of PCIe, and goes on to state 2 or fails; there, once `bootlen` is not 0, the image is read by
DMA from host memory at `bootsrc`; `image` is what the host has written there. [DESIGN CHOICE, log 13; DEDUCED, log 51] -/
def execBootFetch (image : List Byte) (s : State) :=
  event (s.bootState == 1 || (s.bootState == 2 && s.regs.bootlen != 0 && image.length == s.regs.bootlen.toNat)) (fun s =>
    if s.bootState = 1 then (if s.pcieUp then { s with fetchStart := s.tick }.setBoot 2 else s.bootFail 6)
    else
      let mem := mblit s.mem s.imageAt (asNats image)
      { s with mem, image := asBytes (mbytes mem s.imageAt s.regs.bootlen.toNat) }.setBoot 3) s

/-- BOOT_TIMEOUT (R371). [DEDUCED, log 51] -/
def execBootTimeout (s : State) :=
  event (s.bootState == 2 && s.regs.bootlen == 0 && decide (s.fetchStart + 1000000000 ≤ s.tick)) (fun s => s.bootFail 1) s

/-- Cethen starts (R62, R340, R371, R387): every line and every byte of the HBM5 is initialised, `devid` is set, the ports are brought up, the
device is ready, and device context 0 owns it. [DEDUCED, log 51] -/
def State.cethenStart (s : State) (dev : BitVec 12) : State :=
  let img := asNats s.image
  let s : State := { s with
    mem := mclear s.mem 0 0x8000000000
    lineMeta := []
    poison := []
    digest := asBytes (imageDigest img)
    regs := { s.regs with devid := w64 dev.toNat, fwver := w64 (setFld s.regs.fwver.toNat 0 32 (leAt img 4 4)) }
    resident := some 0
    residentSince := s.tick
    energySum := s.energyTotal }
  let s := s.setDctx 0 { s.dctx 0 with switches := (s.dctx 0).switches + 1 }
  let s := (List.range 24).foldl (fun s p => s.ulctlSet p ((s.port p).ulctl ||| 1)) s
  s.setBoot 5

/-- Is an instruction one of the scalar subset that management cores execute (R371): pages 0, 1 and 2, and page 10 ops 0 to 2? [DEDUCED, log 51] -/
def onMgmt (i : Instr) : Bool := match i.spec with
  | some sp => decide (sp.page ≤ 2) || (sp.page == 10 && decide (sp.op ≤ 2))
  | none => false

/-- Does a management core run the chain at its PC, and not trap ILL (R371)? [DEDUCED, log 51] -/
def State.mgmtRuns (s : State) (core : Nat) : Bool :=
  let pc := (tget s.mgmt.ctxs (8 * core) {}).pc.toNat
  match decodeBytes ((List.range 10).map (fun i => mget s.mgmt.mem (pc + i))) with
  | .instr i _ => onMgmt i
  | .ill _ _ => false
  | .more => true

/-- The context of a management core as the boot ROM jumps to the body's entry (R371): in supervisor mode, its heap over its memory. [DEDUCED, log 51] -/
def mgmtCtx (entry : Nat) : Ctx := { occ := true, pc := w64 entry, sr := { xstat := 1, hlimit := 2 ^ 32 } }

/-- The management cores as the body starts: it stands at the bottom of their memory, and every core is at the entry (R371). [DEDUCED, log 51] -/
def mgmtStart (body : List Nat) (entry : Nat) : Mgmt := { ctxs := (List.range 4).map (fun core => (8 * core, mgmtCtx entry)), mem := mblit [] 0 body }

/-- BOOT_VERIFY (R370 to R372), in two steps: in state 3 the ROM checks the image, copies its body to the management cores, goes to state 4 and jumps to
the body's entry; in state 4 Cethen trains the HBM5 and starts, unless a core stands at a chain that it cannot run. In the boot ROM, whose code no rule gives,
a management core may trap: the last operand tells. [DESIGN CHOICE, log 13; DEDUCED, log 51] -/
def execBootVerify (hbm : Bool) (dev : BitVec 12) (trap : Bool) (s : State) :=
  event (decide (1 ≤ s.bootState) && decide (s.bootState ≤ 4)) (fun s =>
    let img := asNats s.image
    let e := imageError img s.regs.bootlen.toNat s.minVersion
    if trap = true ∧ s.bootState ≤ 3 then s.bootFail 7
    else if s.bootState ≤ 2 then s
    else if s.bootState = 3 then
      if e ≠ 0 then s.bootFail e
      else { s with mgmt := mgmtStart (sliceOf img 64 (leAt img 8 4)) (leAt img 12 4) }.setBoot 4
    else if (List.range 4).all s.mgmtRuns = false then s.bootFail 7
    else if hbm = false then s.bootFail 5
    else s.cethenStart dev) s

/-- State of a port (R377). -/
def State.portState (s : State) (n : Nat) : Nat := fld (s.port n).ulstat.toNat 0 4

/-- Sets state and lanes of a port, and the tick of the change. -/
def State.portSet (s : State) (n st lanes : Nat) : State :=
  let p := s.port n
  s.setPort n { p with ulstat := w64 (setFld (setFld p.ulstat.toNat 0 4 st) 4 8 lanes), since := s.tick }

/-- ULCTL_WRITE (R377). -/
def execUlctlWrite (port : Nat) (v : Word) (s : State) := event (decide (port < 24)) (fun s => s.ulctlSet port v) s

/-- The lanes that a port is set to (R377). -/
def Port.lanes (p : Port) : Nat := match fld p.ulctl.toNat 2 2 with | 0 => 8 | 1 => 4 | _ => 2

/-- The count of flits that a port has retried, ulstat bits 63:32 (R377): when a link is trained and when it loses its peer, the count then is a free value. [DEDUCED, log 52] -/
def State.flits (s : State) (n : Nat) : State :=
  let p := s.port n
  (s.setPort n { p with ulstat := w64 (setFld p.ulstat.toNat 32 32 (fld (Config.openWord s.freeNo).toNat 0 32)) }).fresh

/-- LINK_UP (R377): within 2·10^6 ticks of the start of training. [DEDUCED, log 52] -/
def execLinkUp (port lanes : Nat) (s : State) :=
  event (s.portState port == 1 && decide (s.tick ≤ (s.port port).since + 2000000) && decide (1 ≤ lanes) && decide (lanes ≤ (s.port port).lanes)) (fun s => (s.portSet port 2 lanes).flits port) s

/-- LINK_TRAINING_TIMEOUT (R377). -/
def execLinkTrainingTimeout (port : Nat) (s : State) :=
  event (s.portState port == 1 && decide ((s.port port).since + 2000000 ≤ s.tick)) (fun s => s.portSet port 3 0) s

/-- Does a piece that is not performed use a port (R378)? -/
def State.uses (s : State) (port : Nat) (place : Place) (pa : Nat) : Bool := match place with
  | .remote d => s.portTo d pa == some port
  | _ => false

/-- The accesses and engine pieces outstanding on a port have lost their peer (R378): they are answered as failed 10^5 ticks from now. A piece that an
earlier access holds back has not been sent, and is not outstanding. [DESIGN CHOICE, log 27] -/
def State.loseOutstanding (s : State) (port : Nat) : State :=
  let piece (c : Core) (a : Access) (p : Piece) : Piece :=
    if !p.done && p.lost.isNone && s.uses port p.place p.pa && c.freeToGo a p then { p with lost := some s.tick } else p
  let epiece (p : EPiece) : EPiece := if !p.done && p.space == 3 && p.lost.isNone && s.uses port p.place p.pa then { p with lost := some s.tick } else p
  let eng (e : Engine) : Engine := { e with flight := e.flight.map (fun d => { d with rd := d.rd.map epiece, wr := d.wr.map epiece }) }
  let co (c : Core) : Core := { c with flight := c.flight.map (fun a => { a with pieces := a.pieces.map (piece c a) }), copy := eng c.copy, index := eng c.index }
  { s with cores := s.cores.map (fun (e : Nat × Core) => (e.1, co e.2)) }

/-- LINK_PEER_LOSS (R377, R378): the port returns to training. -/
def execLinkPeerLoss (port : Nat) (s : State) :=
  event (s.portState port == 2) (fun s => ((s.loseOutstanding port).portSet port 1 0).flits port) s

/-- REDUCTION_BLOCK_ARRIVAL (R380): the block goes to the lowest free slot; while none is free, or a commit holds it (R81), it waits at its sender. -/
def execReductionBlockArrival (port i : Nat) (block : Vec) (s : State) :=
  event (s.portState port == 2 && decide (i < 256)) (fun s =>
    let p := s.port port
    match (List.range 256).find? (fun j => !p.used.getLsbD j) with
    | none => s
    | some j =>
      let a := fld p.rqbase.toNat 15 41 * 2 ^ 15 + 128 * j
      if s.placeHeld (placeOf a) a 128 then s
      else
      let s := s.setPort port { p with used := p.used ||| BitVec.ofNat 256 (2 ^ j), queue := p.queue ++ [(i, a)] }
      (s.storeHome (placeOf a) a 64 (fld block.toNat 0 512)).storeHome (placeOf a) (a + 64) 64 (fld block.toNat 512 512)) s

/-- RQREL_WRITE (R380). -/
def execRqrelWrite (port : Nat) (v : Word) (s : State) := event (decide (port < 24)) (fun s => s.rqrelSet port v) s

/-- The duty of a core after a period (R381): at most 2 away from the old one, at least 1, held at 4 or below in a hot cluster. [DEDUCED, log 52] -/
def nextDuty (old : Nat) (want : Option Nat) (hot : Bool) : Nat :=
  let w := want.getD old
  let w := if hot then min w 4 else w
  max 1 (min 16 (max (old - 2) (min (old + 2) w)))

/-- The values that a plan gives a number. [DEDUCED, log 52] -/
def planOf (l : List (Nat × Nat)) (k : Nat) : Option Nat := (l.find? (fun e => e.1 == k)).map (fun e => e.2)

/-- BUDGET_PERIOD (R370, R381): every 10 µs. The plan's values are taken within the bounds of R381; the sensors' readings are inputs. [DEDUCED, log 52] -/
def execBudgetPeriod (plan : BudgetPlan) (s : State) :=
  event (decide (s.budgetAt + 1000 ≤ s.tick)) (fun s =>
    let s := (List.range 48).foldl (fun s n =>
      let c := s.cluster n
      let hot := match planOf plan.temp n with | none => c.hot | some t => if 105 ≤ t then true else if t < 100 then false else c.hot
      let bias := match planOf plan.bias n with | none => c.bias | some b => BitVec.ofNat 4 b
      s.setCluster n { c with hot, bias, energy := c.energy + w64 ((planOf plan.energy n).getD 0) }) s
    let s := (List.range 1536).foldl (fun s k =>
      let c := s.core k
      s.setCore k { c with fduty := BitVec.ofNat 5 (nextDuty c.fduty.toNat (planOf plan.fduty k) (s.cluster (k / 32)).hot) }) s
    let s := (List.range 192).foldl (fun s r => match planOf plan.refill r with
      | none => s
      | some v => s.setRow r { s.row r with refill := max 1 (min v 255) }) s
    let s : State := { s with budgetAt := s.tick, regs := { s.regs with pwnow := w64 (plan.power % 2 ^ 12) } }
    if plan.temp.any (fun e => decide (115 ≤ e.2)) then s.doFreeze else s) s

/-- KEEPER_TAPER_END (R383). [DEDUCED, log 52] -/
def execKeeperTaperEnd (row : Nat) (s : State) :=
  event true (fun s => match (s.row row).taper with
    | some t => if t ≤ s.tick then s.setRow row { s.row row with taper := none } else s
    | none => s) s

/-- REFRESH (R337, R338): refresh and scrub keep every byte. -/
def execRefresh (pier : Nat) (s : State) := event (decide (pier < 8)) (fun s => s) s

/-- FREEZE (R384): the FRZ ball. -/
def execFreeze (s : State) := event true (fun s => s.doFreeze) s

/-- FRZ_WRITE (R384). -/
def execFrzWrite (v : Word) (s : State) := event true (fun s => s.frzSet v) s

/-- TAP_FREEZE (R384). -/
def execTapFreeze (s : State) := event true (fun s => s.doFreeze) s

/-- What a pier shows of a digest record (R325): its window, and the pier's own sum. -/
structure DigestView where
  dctx : Nat
  base : Nat
  size : Nat
  sum : Word
  deriving DecidableEq, Repr

/-- An operation in a class queue of a pier (R337): a piece of a thread's access, with the core; a piece of an engine's command; a commit or PST2 in progress, with
its number; a record unlinked by a wake. -/
inductive PierOp where
  | access (core : Nat) (a : Access) (p : Piece)
  | command (core : Nat) (index : Bool) (c : Cmd) (write : Bool) (p : EPiece)
  | job (number : Nat) (j : Job)
  | wake (p : Parked)
  deriving DecidableEq, Repr

/-- What a read of a frozen device returns (R385): a byte of a core's image or of the management cores; the park and wake state of a pier, its class queues
and its digest records; or a line of memory with its metadata. -/
inductive Readout where
  | byte (b : Nat)
  | pier (parked wakes : List Parked) (queues : List (List PierOp)) (digests : List DigestView)
  | line (data : BitVec 512) (bits : BitVec 32)
  deriving DecidableEq, Repr

/-- A byte of the image of a core (R362, R385); one of a part without a layout is some function of the state that the part holds. [DESIGN CHOICE, log 12] -/
def State.imageByte (s : State) (core off : Nat) : Nat :=
  let c := s.core core
  let at_ (m : Mem) (a : Nat) : Nat := (mget m a).toNat
  if off < 0x18000 then at_ c.lmem off
  else if off < 0x38000 then at_ c.abuf (off - 0x18000)
  else if off < 0x78000 then at_ c.wbuf (off - 0x38000)
  else if off < 0x7A000 then at_ c.smem (off - 0x78000)
  else if off < 0x7B800 then fld (c.norm ((off - 0x7A000) / 64)).toNat (8 * (off % 64)) 8
  else if off < 0xA4000 then fld (accImage (c.acc ((off - 0x7B800) / 5184))) (8 * ((off - 0x7B800) % 5184)) 8
  else if off < 0xA6000 then (Config.coreImage c (off - 0xA4000)).toNat
  else (Config.hardImage (s.ctx (8 * core + (off - 0xA6000) / 0x4000)) ((off - 0xA6000) % 0x4000)).toNat

/-- Does a physical address belong to a pier (R337, R397)? -/
def onPier (pier pa : Nat) : Bool := placeOf pa == .here && pa / 2048 % 8 == pier

/-- Is an access served with the full/empty evaluations and atomics, class 2 of R337, or with the ordinary traffic, class 4? -/
def Access.coordinated (a : Access) : Bool := match a.kind with
  | .atomic _ _ _ _ => true
  | .fe _ => true
  | _ => false

/-- The pieces of the accesses of one class that have reached a pier and are not performed (R337): nothing at the core holds them back. [DEDUCED, log 51] -/
def State.accessesAt (s : State) (pier : Nat) (coordinated : Bool) : List PierOp :=
  s.cores.flatMap (fun e => e.2.flight.flatMap (fun a =>
    if a.coordinated != coordinated || !s.evaluating e.1 a then []
    else (a.pieces.filter (fun p => !p.done && p.place == .here && onPier pier p.pa && e.2.freeToGo a p)).map (PierOp.access e.1 a)))

/-- The pieces of engine commands that have reached a pier and are not performed: those of sources, and those of destinations whose source bytes have been read. [DEDUCED, log 51] -/
def State.commandsAt (s : State) (pier : Nat) : List PierOp :=
  s.cores.flatMap (fun e => [false, true].flatMap (fun index => (e.2.engine index).flight.flatMap (fun c =>
    let here (p : EPiece) : Bool := !p.done && p.space == 3 && p.place == .here && onPier pier p.pa
    (c.rd.filter here).map (PierOp.command e.1 index c false) ++ (c.wr.filter (fun p => here p && c.sourced p)).map (PierOp.command e.1 index c true))))

/-- Does a commit or PST2 in progress concern a pier: does it hold the block, the header, or a word that is not filled again? [DEDUCED, log 51] -/
def Job.concerns (j : Job) (pier : Nat) : Bool :=
  (match j.kind with | .commit b h => onPier pier b || onPier pier h | .pst2 _ _ _ => false) || (decide (j.stage < 2) && j.words.any (onPier pier))

/-- The commits in progress at a pier, which are block updates, or the PST2s, which are full/empty operations. [DEDUCED, log 51] -/
def State.jobsAt (s : State) (pier : Nat) (commits : Bool) : List PierOp :=
  (s.jobs.filter (fun e => e.2.concerns pier && (match e.2.kind with | .commit _ _ => commits | _ => !commits))).map (fun e => PierOp.job e.1 e.2)

/-- The five class queues of a pier (R337): refresh and scrub, which hold no state; full/empty evaluations and atomics; block updates; ordinary traffic;
park wake-ups. [DEDUCED, log 51] -/
def State.classQueues (s : State) (pier : Nat) : List (List PierOp) := [
  [],
  s.jobsAt pier false ++ s.accessesAt pier true,
  s.jobsAt pier true,
  s.accessesAt pier false ++ s.commandsAt pier,
  (s.wakes.filter (fun p => onPier pier p.word)).map PierOp.wake]

/-- The digest records as a pier shows them (R325). [DEDUCED, log 51] -/
def State.digestViews (s : State) (pier : Nat) : List DigestView :=
  s.digests.map (fun e => { dctx := e.1, base := e.2.base, size := e.2.size, sum := (e.2.sums[pier]?).getD 0 })

/-- What a frozen device answers at a place of a region (R385): the cores are regions 0 to 1535, the piers 1536 to 1543, memory 1544, by lines, and the
management cores 1545, 4 GiB of their memory before their registers. [DEDUCED, log 51] -/
def State.readout (s : State) (region off : Nat) : Option Readout :=
  if s.bootState ≠ 7 then none
  else if region < 1536 then some (.byte (s.imageByte region off))
  else if region < 1544 then
    let pier := region - 1536
    some (.pier (s.parked.filter (fun p => onPier pier p.word)) (s.wakes.filter (fun p => onPier pier p.word)) (s.classQueues pier) (s.digestViews pier))
  else if region = 1544 then some (.line (BitVec.ofNat 512 (mread s.mem (64 * off) 64)) (s.lineWord (64 * off)))
  else some (.byte (if off < 2 ^ 32 then (mget s.mgmt.mem off).toNat else (Config.mgmtImage s.mgmt (off - 2 ^ 32)).toNat))

/-- FROZEN_READOUT (R385): a frozen device answers with `State.readout`; nothing changes. -/
def execFrozenReadout (_region _off : Nat) (s : State) : Host.Outcome State Fault Refusal := .next s

/-- What every uncorrectable error raises (R390, R392). [DEDUCED, log 53] -/
def State.raiseError (s : State) (sram : Bool) (kind core addr : Nat) : State :=
  let r := if sram then { s.regs with rasusram := bump s.regs.rasusram } else { s.regs with rasumem := bump s.regs.rasumem }
  ({ s with regs := r, aer := s.aer + 1 }).logError kind core addr

/-- ECC_UNCORRECTABLE (R390 to R392). [DESIGN CHOICE, log 27; DEDUCED, log 53] -/
def execEccUncorrectable (site : EccSite) (s : State) :=
  let ok : Bool := match site with
    | .line pa => placeOf pa == .here
    | .cacheLine core _ => decide (core < 1536)
    | .context core slot => decide (core < 1536) && decide (slot < 8)
    | .coreState core => decide (core < 1536)
  event ok (fun s => match site with
    | .line pa =>
      let s : State := { s with poison := if s.poison.contains (pa / 64) then s.poison else s.poison ++ [pa / 64] }
      s.raiseError false 1 0x7FF (pa / 64 * 64)
    | .cacheLine core line =>
      let s := s.setCore core { s.core core with dcache := tdel (s.core core).dcache line }
      let cl := s.cluster (core / 32)
      let s := s.setCluster (core / 32) { cl with cache := cl.cache.filter (fun e => e.1 != line) }
      { s with regs := { s.regs with rascsram := bump s.regs.rascsram } }
    | .context core slot =>
      let k := 8 * core + slot
      let c := s.ctx k
      let t : Trap := { cause := 18, xinfo := info 15 15 0 }
      let s := if c.occ then s.setCtx k { c with ecc := some t } else s
      let s := s.raiseError true 2 core 0
      let n := (s.core core).eccCount + 1
      let s := s.setCore core { s.core core with eccCount := n }
      if 2 ≤ n then s.fence core else s
    | .coreState core => (s.raiseError true 3 core 0).fence core) s

/-- ECC_CORRECTED (R389). [DEDUCED, log 53] -/
def execEccCorrected (sram : Bool) (s : State) :=
  event true (fun s =>
    let r := s.regs
    { s with regs := if sram then { r with rascsram := bump r.rascsram } else { r with rascmem := bump r.rascmem } }) s

/-- CREP_CLEAR (R355). -/
def execCrepClear (cluster : Nat) (v : Word) (s : State) := event (decide (cluster < 48)) (fun s => s.crepSet cluster v) s

/-- CSTOP_CLEAR (R355). [DEDUCED, log 61] -/
def execCstopClear (cluster : Nat) (v : Word) (s : State) := event (decide (cluster < 48)) (fun s => s.cstopSet cluster v) s

/-- Does a wait of the context end at the present tick or before (R7)? A gang's wait does not while both its conditions hold, and an attempt whose back-off
is over but which other units hold up is waited for no more. [DESIGN CHOICE, log 32] -/
def Ctx.expired (c : Ctx) (tick : Nat) : Bool := c.occ && (match c.wait with
  | .waitc d ps => (d != 0 && decide (d ≤ tick)) || ps.any (fun p => p.till != 0 && decide (p.till ≤ tick))
  | .gang t met => !met && decide (t ≤ tick)
  | .idle t => decide (t ≤ tick)
  | .retry _ t => t != 0 && decide (t ≤ tick)
  | .fe _ _ (.backoff t) => decide (t ≤ tick)
  | _ => false)

/-- Is a hard save due that nothing holds up: the context is ready, or waits for what the deadline ends (R359)? [DESIGN CHOICE, log 32] -/
def State.saveOverdue (s : State) (k : Nat) : Bool := s.saveDue k && (s.saveReady k || s.endWait k != s)

/-- Has a piece of an engine command lost its link for 10^5 ticks (R378)? -/
def State.engineLost (s : State) (e : Engine) : Bool := e.flight.any (fun c => (c.rd ++ c.wr).any (fun p => !p.done && p.space == 3 && s.linkLost p.piece))

/-- Has a time-out, deadline or aging bound fallen due whose event has not happened yet (R7)? [DESIGN CHOICE, log 32] -/
def State.due (s : State) : Bool :=
  s.ctxs.any (fun e => e.2.expired s.tick || s.saveOverdue e.1)
  || (s.ready && s.clusters.any (fun e => decide (e.1 < 48) && (List.range 3).any (fun l => s.overdue e.1 l)))
  || s.rows.any (fun e => match e.2.taper with | some t => decide (t ≤ s.tick) | none => false)
  || s.ports.any (fun e => s.portState e.1 == 1 && decide (e.2.since + 2000000 ≤ s.tick))
  || (s.bootState == 2 && s.regs.bootlen == 0 && decide (s.fetchStart + 1000000000 ≤ s.tick))
  || s.cores.any (fun e => e.2.flight.any (fun a => a.pieces.any s.linkLost) || s.engineLost e.2.copy || s.engineLost e.2.index)

/-- REFERENCE_TICK (R7, R382): `now` advances, once everything due at the present tick has happened, and every row gains its tokens, up to 256. [DESIGN CHOICE, log 32; DESIGN CHOICE, log 54] -/
def execReferenceTick (s : State) :=
  event (!s.due) (fun s =>
    let rows := (List.range 192).map (fun r => (r, { s.row r with balance := min 256 ((s.row r).balance + (s.row r).refill) }))
    { s with now := s.now + 1, rows }) s

end Sys2Proof.Machine
end

