-- ==== Sys2Proof/Machine/Records.lean ====
section
/-! DEFINITION. Parameter records and commits at the pier: GACC and arrivals, the update rule, the steps of a commit and of PST2
(R74 to R88). -/

namespace Sys2Proof.Machine

open Sys2Proof

/-- A field of a record header, by its bit in the 512 (R77). -/
def State.hdrGet (s : State) (hdr bit n : Nat) : Nat := fld (s.rd (hdr + bit / 64 * 8) 8) (bit % 64) n

/-- Writes a field of a record header. -/
def State.hdrSet (s : State) (hdr bit n v : Nat) : State :=
  let a := hdr + bit / 64 * 8
  s.pierWrite a 8 (setFld (s.rd a 8) (bit % 64) n v)

/-- The window exponent e of a header. -/
def State.hdrExp (s : State) (hdr : Nat) : Int := sgn (s.hdrGet hdr 224 8) 8

/-- One lane of a GACC (R78 step 2) against G_j: the new G_j, and whether it raises OVF and NF. -/
def gaccLane (e : Int) (g x : Nat) : Nat × Bool × Bool :=
  match Fmt.f32.decode x with
  | .nan _ _ _ => (g, false, true)
  | .inf _ => (g, false, true)
  | .fin neg m ex =>
    if 0 ≤ Num.cmp (.fin false m ex) (.fin false 1 (e + 15)) then (g, true, false)
    else
      let k := (gridRound RNE 0 neg m (ex + 96 - e) false 0).1
      (wrap (sgn g 128 + (if neg then -(k : Int) else k)) 128, false, false)

/-- A GACC at its pier, one indivisible step (R78). -/
def State.gaccAt (s : State) (pa hdr : Nat) (lanes : List (Option Nat)) : State :=
  let n := s.hdrGet hdr 294 16
  if n = 65535 then s.hdrSet hdr 237 1 1
  else
    let s := s.hdrSet hdr 294 16 (n + 1)
    let e := s.hdrExp hdr
    ((List.range 16).zip lanes).foldl (fun s l => match l.2 with
      | none => s
      | some x =>
        let a := pa + 192 + 16 * l.1
        let r := gaccLane e (s.rd a 16) x
        let s := s.pierWrite a 16 r.1
        let s := if r.2.1 then s.hdrSet hdr 237 1 1 else s
        if r.2.2 then s.hdrSet hdr 238 1 1 else s) s

/-- GACC_PERFORM (R78). -/
def execGaccPerform (core id : Nat) (s : State) :=
  event true (fun s => match s.findPiece core id 0 with
    | none => s
    | some (a, p) => match a.kind with
      | .gacc lanes =>
        if s.pieceReady core a p = false then s
        else match s.poisoned a p with
          | some va => s.failAccess core a va
          | none => ((s.gaccAt p.pa a.hdr lanes).dropBlock core p.pa a.hdr).dropAccess core id
      | _ => s) s

/-- The words of memory that hold the working copies of a block, ascending, each once (R86): those of both bytes of each copy. [DEDUCED, log 60] -/
def copyWords (a : Armed) : List Nat :=
  let both (base stride : Nat) : List Nat := (List.range 32).map (fun i => (base + i / 2 * stride + i % 2) / 8 * 8)
  let ws := both a.pbase a.pstride ++ both a.tbase a.tstride
  ws.foldl (fun l w => if l.contains w then l else (l.filter (· < w)) ++ [w] ++ l.filter (w < ·)) []

/-- Begins a commit (R84): a round with OVF or NF skips the rule. The rule table is the one that the piers hold as the commit begins, the resident
device context's (R339). [DEDUCED, log 60; DESIGN CHOICE, log 99] -/
def State.beginCommit (s : State) (pa hdr : Nat) : State :=
  let s := s.hdrSet hdr 236 1 1
  let skip := s.hdrGet hdr 237 2 != 0
  let s := s.hdrSet hdr 239 1 (b2n skip)
  let a := tget s.armed pa { hdr }
  let j : Job := { kind := .commit pa hdr, words := if skip then [] else copyWords a, stage := if skip then 2 else 0, dc := s.resident.getD a.dc }
  { s with jobs := tset s.jobs s.nextJob j, nextJob := s.nextJob + 1 }

/-- ARRIVAL (R80): PRSPACE when the block is not armed; else the arrival counts, the thread goes on, and the last one of the round begins
the commit in the same step. -/
def execArrival (core id : Nat) (s : State) :=
  event true (fun s => match s.findPiece core id 0 with
    | none => s
    | some (a, p) =>
      let k := 8 * core + a.slot
      if a.kind ≠ .garr ∨ s.pieceReady core a p = false then s
      else match s.poisoned a p with
        | some va => s.failAccess core a va
        | none =>
          if s.hdrGet a.hdr 240 1 = 0 then s.feTrap core id k (trapAt 9 p.va.toNat 2)
          else
            let n := (s.hdrGet a.hdr 192 16 + 1) % 65536
            let s := ((s.hdrSet a.hdr 192 16 n).dropBlock core p.pa a.hdr).dropAccess core id
            let s := s.completeHeld k (fun c => c)
            if n = s.hdrGet a.hdr 208 16 then s.beginCommit p.pa a.hdr else s) s

/-- An operand of the rule machine: its FP32 pattern (R82). The environment lists codes 0 to 17. [DESIGN CHOICE, log 7] -/
def ruleGet (env : List Nat) (code : Nat) : Nat := (env[code]?).getD 0

/-- Is a destination code writable (R82)? -/
def ruleWritable (code : Nat) : Bool := decide (code < 3) || (decide (12 ≤ code) && decide (code < 16))

/-- MAX and MIN of a rule: +0 for operands of both signs of zero (R83). -/
def ruleMinMax (isMax : Bool) (a b : Num) : Nat × Nat :=
  match a, b with
  | .fin x 0 _, .fin y 0 _ => if x != y then (0, 0) else fMinMax .f32 isMax a b
  | _, _ => fMinMax .f32 isMax a b

/-- Is a value a signalling NaN? -/
def signals : Num → Bool
  | .nan _ _ q => q
  | _ => false

/-- SEL (R83). -/
def ruleSel (a b c : Num) : Nat × Nat :=
  let x := if a.isNan = false ∧ a.cmp (.fin false 0 0) = 1 then b else c
  (pat .f32 x, if signals a || signals x then NV else 0)

/-- The result and flags of a micro-step's op (R83); none for END. With a NaN operand NV is raised only for a signalling one, of FMA too (R39). -/
def ruleOp (op : Nat) (a b c : Num) : Option (Nat × Nat) :=
  match op with
  | 1 =>
    let r := fFma .f32 RNE false a b c
    some (r.1, if a.isNan || b.isNan || c.isNan then (if signals a || signals b || signals c then NV else 0) else r.2)
  | 2 => some (fMul .f32 RNE a b)
  | 3 => some (fAdd .f32 RNE a b)
  | 4 => some (fSub .f32 RNE a b)
  | 5 => some (fDiv .f32 RNE a b)
  | 6 => some (fSqrt .f32 RNE a)
  | 7 => some (ruleMinMax true a b)
  | 8 => some (ruleMinMax false a b)
  | 9 => some (ruleSel a b c)
  | _ => none

/-- Runs micro-steps until END (R82, R83): the environment and the flags. -/
def ruleRun : List Nat → List Nat → Nat → List Nat × Nat
  | [], env, fl => (env, fl)
  | w :: ws, env, fl =>
    let dst := fld w 23 5
    let a := fld w 18 5
    let b := fld w 13 5
    let c := fld w 8 5
    if ruleWritable dst = false ∨ 17 < a ∨ 17 < b ∨ 17 < c then (env, fl)
    else
      let n (code : Nat) : Num := Fmt.f32.decode (ruleGet env code)
      match ruleOp (fld w 28 4) (n a) (n b) (n c) with
      | none => (env, fl)
      | some r => ruleRun ws (env.set dst r.1) (fl ||| r.2)

/-- Runs a rule on parameter j of a block (R83): the new w, m and v, and the flags. -/
def State.ruleParam (s : State) (rule pa hdr j : Nat) (rules : Mem) : List Nat × Nat :=
  let base := 128 * rule
  let hyper := (List.range 8).map (fun i => mread rules (base + 64 + 4 * i) 4)
  let code := (List.range 16).map (fun i => mread rules (base + 4 * i) 4)
  let gj := sgn (s.rd (pa + 192 + 16 * j) 16) 128
  let g := pat .f32 (.fin (decide (gj < 0)) gj.natAbs (s.hdrExp hdr - 96))
  let k0 := pat .f32 (.fin false (s.hdrGet hdr 256 32 + 1) 0)
  let k1 := rnRatio 1 (s.hdrGet hdr 208 16)
  let env := [s.rd (pa + 4 * j) 4, s.rd (pa + 64 + 4 * j) 4, s.rd (pa + 128 + 4 * j) 4, g] ++ hyper ++ [0, 0, 0, 0, k0, k1]
  ruleRun code env 0

/-- The rule run of one parameter writes its w, m and v (R83); its flags. -/
def State.commitParam (s : State) (rule pa hdr : Nat) (rules : Mem) (j : Nat) : State × Nat :=
  let r := s.ruleParam rule pa hdr j rules
  ((List.range 3).foldl (fun s i => s.pierWrite (pa + 64 * i + 4 * j) 4 (ruleGet r.1 i)) s, r.2)

/-- The rule run over the block (R84 step 2). -/
def State.commitRule (s : State) (rule pa hdr : Nat) (rules : Mem) : State × Nat :=
  (List.range 16).foldl (fun (r : State × Nat) j => let t := r.1.commitParam rule pa hdr rules j; (t.1, r.2 ||| t.2)) (s, 0)

/-- The plain and the transposed copy of parameter j, whose new value is w (R84 step 3). Where copies share bytes, the one written last stays. [DESIGN CHOICE, log 80; DESIGN CHOICE, log 89] -/
def State.commitCopy (a : Armed) (s : State) (j w : Nat) : State :=
  let b := pat .bf16 (Fmt.f32.decode w)
  (s.pierWrite (a.pbase + j * a.pstride) 2 b).pierWrite (a.tbase + j * a.tstride) 2 b

/-- Is a word held by a job other than this one? -/
def State.heldByOther (s : State) (job pa : Nat) : Bool := { s with jobs := tdel s.jobs job }.wordHeld pa

/-- WORKING_COPY_EMPTY (R86): the next word of a commit or PST2, in address order, is emptied when it is full. -/
def execWorkingCopyEmpty (job : Nat) (s : State) :=
  event (thas s.jobs job) (fun s =>
    let j := tget s.jobs job { kind := .commit 0 0, words := [] }
    match j.words[j.emptied]? with
    | none => s
    | some w =>
      if j.stage ≠ 0 ∨ s.fe w = false ∨ s.heldByOther job w = true then s
      else { s with jobs := tset s.jobs job { j with emptied := j.emptied + 1 } }.setFe w false) s

/-- COMMIT_WRITES (R84 steps 2 and 3, R85): when every word is empty, the rule runs over the whole block, under the device context's table (R339), and
then the copies are written. -/
def execCommitWrites (job : Nat) (s : State) :=
  event (thas s.jobs job) (fun s =>
    let j := tget s.jobs job { kind := .commit 0 0, words := [] }
    match j.kind with
    | .commit pa hdr =>
      if j.stage ≠ 0 ∨ j.emptied ≠ j.words.length then s
      else
        let a := tget s.armed pa { hdr }
        let r := s.commitRule (s.hdrGet hdr 232 4) pa hdr (s.dctx j.dc).rules
        let ws := (List.range 16).map (fun i => r.1.rd (pa + 4 * i) 4)
        let s := (List.range 16).foldl (fun s i => s.commitCopy a i ((ws[i]?).getD 0)) (r.1.hdrSet hdr 288 6 (r.2 % 32))
        { s with jobs := tset s.jobs job { j with stage := 1 } }
    | _ => s) s

/-- COMMIT_FILLS (R84 step 4, R85). -/
def execCommitFills (job : Nat) (s : State) :=
  event (thas s.jobs job) (fun s =>
    let j := tget s.jobs job { kind := .commit 0 0, words := [] }
    match j.kind with
    | .commit _ _ =>
      if j.stage ≠ 1 then s
      else j.words.foldl (fun s w => s.setFe w true) { s with jobs := tset s.jobs job { j with stage := 2 } }
    | _ => s) s

/-- COMMIT_END (R84): the sums, the counts and the flags of the round are cleared, `step` counts a rule run, and last BUSY is 0; the device's own writes that
have waited for the block are made (R81). [DEDUCED, log 25] -/
def execCommitEnd (job : Nat) (s : State) :=
  event (thas s.jobs job) (fun s =>
    let j := tget s.jobs job { kind := .commit 0 0, words := [] }
    match j.kind with
    | .commit pa hdr =>
      if j.stage ≠ 2 then s
      else
        let s := (List.range 32).foldl (fun s i => s.pierWrite (pa + 192 + 8 * i) 8 0) s
        let s := s.hdrSet hdr 192 16 0
        let s := s.hdrSet hdr 294 16 0
        let s := s.hdrSet hdr 237 2 0
        let s := if s.hdrGet hdr 239 1 = 0 then s.hdrSet hdr 256 32 (s.hdrGet hdr 256 32 + 1) else s
        let s := s.hdrSet hdr 236 1 0
        s.late.foldl (fun s e => s.lateWrite e.1 e.2.1 e.2.2) { s with jobs := tdel s.jobs job, late := [] }
    | _ => s) s

/-- PST2_WRITES (R87, R149): both words are empty; the first operand is written, then the second. -/
def execPst2Writes (job : Nat) (s : State) :=
  event (thas s.jobs job) (fun s =>
    let j := tget s.jobs job { kind := .commit 0 0, words := [] }
    match j.kind with
    | .pst2 core _ ws =>
      if j.stage ≠ 0 ∨ j.emptied ≠ j.words.length then s
      else
        let s := ws.foldl (fun s w => (s.storeHome .here w.1 8 w.2).afterStore core false .here w.1 8) s
        { s with jobs := tset s.jobs job { j with stage := 1 } }
    | _ => s) s

/-- PST2_FILLS (R87, R149): the fills, after which the context goes on. -/
def execPst2Fills (job : Nat) (s : State) :=
  event (thas s.jobs job) (fun s =>
    let j := tget s.jobs job { kind := .commit 0 0, words := [] }
    match j.kind with
    | .pst2 core slot _ =>
      if j.stage ≠ 1 then s
      else
        let s := j.words.foldl (fun s w => s.setFe w true) { s with jobs := tdel s.jobs job }
        s.completeHeld (8 * core + slot) (fun c => c)
    | _ => s) s

end Sys2Proof.Machine
end

