-- ==== Sys2Proof/Machine/Waiting.lean ====
section
/-! DEFINITION. WAITC and its probes and time-out, and IDLE (R131 to R134, R254). -/

namespace Sys2Proof.Machine

open Sys2Proof

/-- The masks that kind 5 conditions name. -/
def condMasks (ws : List Nat) : List Nat := ws.filterMap (fun w => if condKind w = 5 then some (rm (fld w 0 3)) else none)

/-- Is a condition word one on a memory word? -/
def condOnWord (w : Nat) : Bool := condKind w == 2 || condKind w == 3

/-- The checks of the word conditions, in register order (R132 step 3): those of R65 steps 2 to 4. -/
def waitcWords (s : State) : List Nat → Option Trap
  | [] => none
  | w :: r =>
    if condOnWord w = false then waitcWords s r
    else
      let a := fld w 0 56
      if a % 8 ≠ 0 then some (trapAt 3 a (info 15 4 0))
      else match s.checkAccess s.coreNo s.cx.trans true .feRead [{ off := 0, va := a, n := 8 }] with
        | .error t => some t
        | .ok _ => waitcWords s r

/-- The probes at issue: a mask condition has its answer already. -/
def firstProbes (c : Ctx) (ws : List Nat) : List Probe :=
  ws.map (fun w => if condKind w = 5 then { answer := some (c.getVm (fld w 0 3) != 0) } else {})

/-- The named counter whose flag is reported (R132 step 4). [DESIGN CHOICE, log 81] -/
def reportedCounter (c : Core) (ws : List Nat) : Option Nat := (condCounters ws).find? (fun n => vget c.ecf n .clear == .reported)

/-- WAITC (R132 to R134). [DEDUCED, log 31] -/
def execWaitc (o : Ops) (s : State) :=
  issue (.waitc o) o (grp rg o.aNum (groupSize o) ++ [rg o.bNum, rp o.dNum] ++ condMasks (condWords o s.cx)) (fun s =>
    let c := s.cx
    let ws := condWords o c
    let limit := (c.getG o.bNum).toNat
    if c.wait ≠ .none then .stall
    else match s.checkpoint s.coreNo c c.pc with
      | none => .trap s.ckTrap
      | some ckid =>
        if ws.any condBad then .trap (ill 5)
        else match waitcWords s ws with
          | some t => .trap t
          | none => match reportedCounter s.co ws with
            | some n => .trap (s.co.ecTrap n)
            | none =>
              let ps := firstProbes c ws
              let r := waitcEval s.co (waitcAll o) ws ps
              match r.1 with
              | some b => .done ((s.setCo r.2).setCx (c.setP o.dNum b))
              | none =>
                if bitOf (o.clsOr 0) 4 = true ∧ limit = 0 ∧ ws.all (fun w => condKind w ≤ 1) = true then
                  if s.leaveReady s.cur (s.entryWords s.coreNo c ckid) = false then .stall
                  else match s.saveContext s.cur ckid with
                    | .error t => .trap t
                    | .ok s => .gone ((s.setCo { s.co with ecWait := s.co.ecWait ++ [(s.leaveEntry s.cur true, condCounters ws)] }).vacate s.cur)
                else .hold (.waitc (if limit = 0 then 0 else s.tick + limit) ps) (s.setCx (c.mark true (rp o.dNum)))) s

/-- The answer of a probe (R132): the fe bit of the word as its home holds it; no answer while the word does not translate, or while something at the core
would hold back a relaxed read of it (R276), such as an acquire of the context in flight. [DEDUCED, log 25; DEDUCED, log 31] -/
def State.probe (s : State) (k w : Nat) : Option Bool :=
  match s.xlate (k / 8) (s.ctx k).trans (fld w 0 56) with
  | .ok p =>
    let q : Piece := { va := BitVec.ofNat 64 (fld w 0 56), place := p.place, pa := p.pa, n := 8 }
    let c := s.core (k / 8)
    if p.place ≠ .here ∨ c.freeToGo { id := c.nextId, slot := k % 8, kind := .fe .feget, pieces := [q] } q = false then none
    else some (s.fe p.pa)
  | _ => none

/-- The physical address of the word that a probe reads. -/
def State.probed (s : State) (k w : Nat) : Nat := match s.xlate (k / 8) (s.ctx k).trans (fld w 0 56) with | .ok p => p.pa | _ => 0

/-- WAITC_PROBE (R132): condition number `cond` of a waiting WAITC is probed, and the next probe backs off by R67. The core's copy of the
word's line goes, for the probe has read it at its home (R275). [DEDUCED, log 31] -/
def execWaitcProbe (core slot cond : Nat) (s : State) :=
  event true (fun s =>
    let k := 8 * core + slot
    let c := s.ctx k
    match c.wait, c.held with
    | .waitc deadline ps, some (.waitc o) =>
      match (condWords o c)[cond]?, ps[cond]? with
      | some w, some p =>
        if condOnWord w = false ∨ s.tick < p.till then s
        else match s.probe k w with
          | none => s.setCtx k { c with wait := .waitc deadline (ps.set cond { p with till := 0 }) }
          | some b =>
            let p : Probe := { answer := some b, j := p.j + 1, till := s.tick + backoff p.j }
            ((s.forget core .here (s.probed k w) 8).setCtx k { c with wait := .waitc deadline (ps.set cond p) }).reevaluate k
      | _, _ => s
    | _, _ => s) s

/-- WAITC_TIMEOUT (R132): at the expiry edge the combination was still false; nothing is evaluated after that edge. [DEDUCED, log 31] -/
def execWaitcTimeout (core slot : Nat) (s : State) :=
  event true (fun s =>
    let k := 8 * core + slot
    let c := s.ctx k
    match c.wait, c.held with
    | .waitc deadline _, some (.waitc o) =>
      if deadline = 0 ∨ s.tick < deadline then s
      else s.completeHeld k (fun c => (c.setP o.dNum false).mark false (rp o.dNum))
    | _, _ => s) s

/-- IDLE (R254). -/
def execIdle (o : Ops) (s : State) :=
  issue (.idle o) o [rg o.aNum] (fun s =>
    let t := (s.cx.getG o.aNum).toNat
    if s.cx.wait ≠ .none then .stall
    else if s.atCheckpoint = false then .trap s.ckTrap
    else if t ≤ s.tick then .done s
    else .hold (.idle t) s) s

/-- IDLE_WAKE (R254). -/
def execIdleWake (core slot : Nat) (s : State) :=
  event true (fun s =>
    let k := 8 * core + slot
    match (s.ctx k).wait with
    | .idle t => if t ≤ s.tick then s.completeHeld k id else s
    | _ => s) s

end Sys2Proof.Machine
end

