-- ==== Sys2Proof/Machine/Dispatch.lean ====
section
/-! DEFINITION. The dispatch: one arm per constructor of `Instr`, each one direct call of that row's meaning. -/

namespace Sys2Proof.Machine

open Sys2Proof

/-- What an instruction or a device event does to a state. -/
def exec (i : Instr) (s : State) : Host.Outcome State Fault Refusal :=
  match i with
  | .nop o => Sys2Proof.Machine.execNop o s
  | .mov o => Sys2Proof.Machine.execMov o s
  | .movi o => Sys2Proof.Machine.execMovi o s
  | .add o => Sys2Proof.Machine.execAdd o s
  | .sub o => Sys2Proof.Machine.execSub o s
  | .and o => Sys2Proof.Machine.execAnd o s
  | .or o => Sys2Proof.Machine.execOr o s
  | .xor o => Sys2Proof.Machine.execXor o s
  | .andn o => Sys2Proof.Machine.execAndn o s
  | .shl o => Sys2Proof.Machine.execShl o s
  | .shr o => Sys2Proof.Machine.execShr o s
  | .sar o => Sys2Proof.Machine.execSar o s
  | .mul o => Sys2Proof.Machine.execMul o s
  | .cmp o => Sys2Proof.Machine.execCmp o s
  | .sel o => Sys2Proof.Machine.execSel o s
  | .ld o => Sys2Proof.Machine.execLd o s
  | .st o => Sys2Proof.Machine.execSt o s
  | .ldl o => Sys2Proof.Machine.execLdl o s
  | .stl o => Sys2Proof.Machine.execStl o s
  | .br o => Sys2Proof.Machine.execBr o s
  | .call o => Sys2Proof.Machine.execCall o s
  | .ret o => Sys2Proof.Machine.execRet o s
  | .jmp o => Sys2Proof.Machine.execJmp o s
  | .loop o => Sys2Proof.Machine.execLoop o s
  | .waitc o => Sys2Proof.Machine.execWaitc o s
  | .yield o => Sys2Proof.Machine.execYield o s
  | .halt o => Sys2Proof.Machine.execHalt o s
  | .haltRetain o => Sys2Proof.Machine.execHaltRetain o s
  | .trap o => Sys2Proof.Machine.execTrap o s
  | .mulh o => Sys2Proof.Machine.execMulh o s
  | .mulhn o => Sys2Proof.Machine.execMulhn o s
  | .div o => Sys2Proof.Machine.execDiv o s
  | .divn o => Sys2Proof.Machine.execDivn o s
  | .rem o => Sys2Proof.Machine.execRem o s
  | .remn o => Sys2Proof.Machine.execRemn o s
  | .rol o => Sys2Proof.Machine.execRol o s
  | .ror o => Sys2Proof.Machine.execRor o s
  | .clz o => Sys2Proof.Machine.execClz o s
  | .ctz o => Sys2Proof.Machine.execCtz o s
  | .popc o => Sys2Proof.Machine.execPopc o s
  | .ext o => Sys2Proof.Machine.execExt o s
  | .extn o => Sys2Proof.Machine.execExtn o s
  | .ins o => Sys2Proof.Machine.execIns o s
  | .min o => Sys2Proof.Machine.execMin o s
  | .max o => Sys2Proof.Machine.execMax o s
  | .minn o => Sys2Proof.Machine.execMinn o s
  | .maxn o => Sys2Proof.Machine.execMaxn o s
  | .abs o => Sys2Proof.Machine.execAbs o s
  | .lea o => Sys2Proof.Machine.execLea o s
  | .addp o => Sys2Proof.Machine.execAddp o s
  | .pand o => Sys2Proof.Machine.execPand o s
  | .por o => Sys2Proof.Machine.execPor o s
  | .pxor o => Sys2Proof.Machine.execPxor o s
  | .pnot o => Sys2Proof.Machine.execPnot o s
  | .movp o => Sys2Proof.Machine.execMovp o s
  | .lcr o => Sys2Proof.Machine.execLcr o s
  | .lcw o => Sys2Proof.Machine.execLcw o s
  | .fatx o => Sys2Proof.Machine.execFatx o s
  | .fats o => Sys2Proof.Machine.execFats o s
  | .ldI8 o => Sys2Proof.Machine.execLdI8 o s
  | .ldN8 o => Sys2Proof.Machine.execLdN8 o s
  | .ldI16 o => Sys2Proof.Machine.execLdI16 o s
  | .ldN16 o => Sys2Proof.Machine.execLdN16 o s
  | .ldI32 o => Sys2Proof.Machine.execLdI32 o s
  | .ldN32 o => Sys2Proof.Machine.execLdN32 o s
  | .st8 o => Sys2Proof.Machine.execSt8 o s
  | .st16 o => Sys2Proof.Machine.execSt16 o s
  | .st32 o => Sys2Proof.Machine.execSt32 o s
  | .ldw o => Sys2Proof.Machine.execLdw o s
  | .ldc o => Sys2Proof.Machine.execLdc o s
  | .stf o => Sys2Proof.Machine.execStf o s
  | .ste o => Sys2Proof.Machine.execSte o s
  | .feget o => Sys2Proof.Machine.execFeget o s
  | .feset o => Sys2Proof.Machine.execFeset o s
  | .pst2 o => Sys2Proof.Machine.execPst2 o s
  | .pref o => Sys2Proof.Machine.execPref o s
  | .fence o => Sys2Proof.Machine.execFence o s
  | .fencex o => Sys2Proof.Machine.execFencex o s
  | .aadd o => Sys2Proof.Machine.execAadd o s
  | .aand o => Sys2Proof.Machine.execAand o s
  | .aor o => Sys2Proof.Machine.execAor o s
  | .axor o => Sys2Proof.Machine.execAxor o s
  | .amin o => Sys2Proof.Machine.execAmin o s
  | .amax o => Sys2Proof.Machine.execAmax o s
  | .aminn o => Sys2Proof.Machine.execAminn o s
  | .amaxn o => Sys2Proof.Machine.execAmaxn o s
  | .aswp o => Sys2Proof.Machine.execAswp o s
  | .acas o => Sys2Proof.Machine.execAcas o s
  | .afadd o => Sys2Proof.Machine.execAfadd o s
  | .afmax o => Sys2Proof.Machine.execAfmax o s
  | .gacc o => Sys2Proof.Machine.execGacc o s
  | .garr o => Sys2Proof.Machine.execGarr o s
  | .garm o => Sys2Proof.Machine.execGarm o s
  | .gstat o => Sys2Proof.Machine.execGstat o s
  | .vld o => Sys2Proof.Machine.execVld o s
  | .vst o => Sys2Proof.Machine.execVst o s
  | .vlds o => Sys2Proof.Machine.execVlds o s
  | .vsts o => Sys2Proof.Machine.execVsts o s
  | .vgth o => Sys2Proof.Machine.execVgth o s
  | .vsct o => Sys2Proof.Machine.execVsct o s
  | .vldl o => Sys2Proof.Machine.execVldl o s
  | .vstl o => Sys2Proof.Machine.execVstl o s
  | .vldt o => Sys2Proof.Machine.execVldt o s
  | .vstt o => Sys2Proof.Machine.execVstt o s
  | .vldc o => Sys2Proof.Machine.execVldc o s
  | .vmov o => Sys2Proof.Machine.execVmov o s
  | .vbcast o => Sys2Proof.Machine.execVbcast o s
  | .vext o => Sys2Proof.Machine.execVext o s
  | .vins o => Sys2Proof.Machine.execVins o s
  | .vperm o => Sys2Proof.Machine.execVperm o s
  | .vcompr o => Sys2Proof.Machine.execVcompr o s
  | .vmlog o => Sys2Proof.Machine.execVmlog o s
  | .vmpop o => Sys2Proof.Machine.execVmpop o s
  | .vmget o => Sys2Proof.Machine.execVmget o s
  | .vfadd o => Sys2Proof.Machine.execVfadd o s
  | .vfsub o => Sys2Proof.Machine.execVfsub o s
  | .vfmul o => Sys2Proof.Machine.execVfmul o s
  | .vfma o => Sys2Proof.Machine.execVfma o s
  | .vfnma o => Sys2Proof.Machine.execVfnma o s
  | .vfdot o => Sys2Proof.Machine.execVfdot o s
  | .vfmin o => Sys2Proof.Machine.execVfmin o s
  | .vfmax o => Sys2Proof.Machine.execVfmax o s
  | .vfabs o => Sys2Proof.Machine.execVfabs o s
  | .vfneg o => Sys2Proof.Machine.execVfneg o s
  | .vfdiv o => Sys2Proof.Machine.execVfdiv o s
  | .vfsqrt o => Sys2Proof.Machine.execVfsqrt o s
  | .vfrsq o => Sys2Proof.Machine.execVfrsq o s
  | .vfcmp o => Sys2Proof.Machine.execVfcmp o s
  | .vfred o => Sys2Proof.Machine.execVfred o s
  | .vfrmax o => Sys2Proof.Machine.execVfrmax o s
  | .vfscl o => Sys2Proof.Machine.execVfscl o s
  | .vadd o => Sys2Proof.Machine.execVadd o s
  | .vsub o => Sys2Proof.Machine.execVsub o s
  | .vmul o => Sys2Proof.Machine.execVmul o s
  | .vmulh o => Sys2Proof.Machine.execVmulh o s
  | .vmin o => Sys2Proof.Machine.execVmin o s
  | .vmax o => Sys2Proof.Machine.execVmax o s
  | .vand o => Sys2Proof.Machine.execVand o s
  | .vor o => Sys2Proof.Machine.execVor o s
  | .vxor o => Sys2Proof.Machine.execVxor o s
  | .vshl o => Sys2Proof.Machine.execVshl o s
  | .vshr o => Sys2Proof.Machine.execVshr o s
  | .vsar o => Sys2Proof.Machine.execVsar o s
  | .vcmp o => Sys2Proof.Machine.execVcmp o s
  | .vsel o => Sys2Proof.Machine.execVsel o s
  | .vabs o => Sys2Proof.Machine.execVabs o s
  | .vred o => Sys2Proof.Machine.execVred o s
  | .vidx o => Sys2Proof.Machine.execVidx o s
  | .vdot4 o => Sys2Proof.Machine.execVdot4 o s
  | .vcvtf o => Sys2Proof.Machine.execVcvtf o s
  | .vcvti o => Sys2Proof.Machine.execVcvti o s
  | .vcvtfi o => Sys2Proof.Machine.execVcvtfi o s
  | .vpack o => Sys2Proof.Machine.execVpack o s
  | .vunpk o => Sys2Proof.Machine.execVunpk o s
  | .vqdb o => Sys2Proof.Machine.execVqdb o s
  | .vdqdb o => Sys2Proof.Machine.execVdqdb o s
  | .vbmax o => Sys2Proof.Machine.execVbmax o s
  | .vqf8 o => Sys2Proof.Machine.execVqf8 o s
  | .baddrq o => Sys2Proof.Machine.execBaddrq o s
  | .tclaim o => Sys2Proof.Machine.execTclaim o s
  | .trel o => Sys2Proof.Machine.execTrel o s
  | .tscl o => Sys2Proof.Machine.execTscl o s
  | .mcfg o => Sys2Proof.Machine.execMcfg o s
  | .mma o => Sys2Proof.Machine.execMma o s
  | .msamp o => Sys2Proof.Machine.execMsamp o s
  | .msp24 o => Sys2Proof.Machine.execMsp24 o s
  | .tnorm o => Sys2Proof.Machine.execTnorm o s
  | .tstat o => Sys2Proof.Machine.execTstat o s
  | .tzero o => Sys2Proof.Machine.execTzero o s
  | .tcvt o => Sys2Proof.Machine.execTcvt o s
  | .tspill o => Sys2Proof.Machine.execTspill o s
  | .tfill o => Sys2Proof.Machine.execTfill o s
  | .sdset o => Sys2Proof.Machine.execSdset o s
  | .sdget o => Sys2Proof.Machine.execSdget o s
  | .xcopy o => Sys2Proof.Machine.execXcopy o s
  | .xcopym o => Sys2Proof.Machine.execXcopym o s
  | .iwalk o => Sys2Proof.Machine.execIwalk o s
  | .igath o => Sys2Proof.Machine.execIgath o s
  | .ego o => Sys2Proof.Machine.execEgo o s
  | .egoResume o => Sys2Proof.Machine.execEgoResume o s
  | .erdv o => Sys2Proof.Machine.execErdv o s
  | .ecset o => Sys2Proof.Machine.execEcset o s
  | .ecadd o => Sys2Proof.Machine.execEcadd o s
  | .barr o => Sys2Proof.Machine.execBarr o s
  | .barw o => Sys2Proof.Machine.execBarw o s
  | .barmx o => Sys2Proof.Machine.execBarmx o s
  | .barx o => Sys2Proof.Machine.execBarx o s
  | .fork o => Sys2Proof.Machine.execFork o s
  | .join o => Sys2Proof.Machine.execJoin o s
  | .dqpush o => Sys2Proof.Machine.execDqpush o s
  | .dqpop o => Sys2Proof.Machine.execDqpop o s
  | .dqpopLq o => Sys2Proof.Machine.execDqpopLq o s
  | .dqsteal o => Sys2Proof.Machine.execDqsteal o s
  | .handoff o => Sys2Proof.Machine.execHandoff o s
  | .capq o => Sys2Proof.Machine.execCapq o s
  | .ssend o => Sys2Proof.Machine.execSsend o s
  | .msgsend o => Sys2Proof.Machine.execMsgsend o s
  | .msgrecv o => Sys2Proof.Machine.execMsgrecv o s
  | .mfs o => Sys2Proof.Machine.execMfs o s
  | .mts o => Sys2Proof.Machine.execMts o s
  | .tret o => Sys2Proof.Machine.execTret o s
  | .fwcall o => Sys2Proof.Machine.execFwcall o s
  | .tlbinv o => Sys2Proof.Machine.execTlbinv o s
  | .cinv o => Sys2Proof.Machine.execCinv o s
  | .cwb o => Sys2Proof.Machine.execCwb o s
  | .brk o => Sys2Proof.Machine.execBrk o s
  | .idle o => Sys2Proof.Machine.execIdle o s
  | .pglob o => Sys2Proof.Machine.execPglob o s
  | .resultWriteback core n => Sys2Proof.Machine.execResultWriteback core n s
  | .trapEntry core slot => Sys2Proof.Machine.execTrapEntry core slot s
  | .crepWindowClose cluster => Sys2Proof.Machine.execCrepWindowClose cluster s
  | .pierAccess core id piece => Sys2Proof.Machine.execPierAccess core id piece s
  | .feEvaluation core id => Sys2Proof.Machine.execFeEvaluation core id s
  | .feBackoffExpiry core slot => Sys2Proof.Machine.execFeBackoffExpiry core slot s
  | .parkRequest core slot => Sys2Proof.Machine.execParkRequest core slot s
  | .wakeEnqueue n => Sys2Proof.Machine.execWakeEnqueue n s
  | .waitcProbe core slot cond => Sys2Proof.Machine.execWaitcProbe core slot cond s
  | .waitcTimeout core slot => Sys2Proof.Machine.execWaitcTimeout core slot s
  | .idleWake core slot => Sys2Proof.Machine.execIdleWake core slot s
  | .tclaimRetry core slot => Sys2Proof.Machine.execTclaimRetry core slot s
  | .accumulatorBindRetry core slot => Sys2Proof.Machine.execAccumulatorBindRetry core slot s
  | .msgsendRetry core slot => Sys2Proof.Machine.execMsgsendRetry core slot s
  | .gangJoin row mask => Sys2Proof.Machine.execGangJoin row mask s
  | .gangWaitExpiry core slot => Sys2Proof.Machine.execGangWaitExpiry core slot s
  | .matrixOpStart core => Sys2Proof.Machine.execMatrixOpStart core s
  | .matrixOpEnd core => Sys2Proof.Machine.execMatrixOpEnd core s
  | .engineCommandStart core index => Sys2Proof.Machine.execEngineCommandStart core index s
  | .enginePiece core index id write piece => Sys2Proof.Machine.execEnginePiece core index id write piece s
  | .engineCommandComplete core index id => Sys2Proof.Machine.execEngineCommandComplete core index id s
  | .engineFault core index id => Sys2Proof.Machine.execEngineFault core index id s
  | .engineProgramEnd core index => Sys2Proof.Machine.execEngineProgramEnd core index s
  | .barrierPhaseLatch group dom => Sys2Proof.Machine.execBarrierPhaseLatch group dom s
  | .barrierCompletion group dom => Sys2Proof.Machine.execBarrierCompletion group dom s
  | .regionArrival region => Sys2Proof.Machine.execRegionArrival region s
  | .gaccPerform core id => Sys2Proof.Machine.execGaccPerform core id s
  | .arrival core id => Sys2Proof.Machine.execArrival core id s
  | .workingCopyEmpty job => Sys2Proof.Machine.execWorkingCopyEmpty job s
  | .commitWrites job => Sys2Proof.Machine.execCommitWrites job s
  | .commitFills job => Sys2Proof.Machine.execCommitFills job s
  | .commitEnd job => Sys2Proof.Machine.execCommitEnd job s
  | .pst2Writes job => Sys2Proof.Machine.execPst2Writes job s
  | .pst2Fills job => Sys2Proof.Machine.execPst2Fills job s
  | .pickup core slot => Sys2Proof.Machine.execPickup core slot s
  | .queueAgingPromotion cluster level n => Sys2Proof.Machine.execQueueAgingPromotion cluster level n s
  | .preemptRequest core => Sys2Proof.Machine.execPreemptRequest core s
  | .leaveAtCheckpoint core slot => Sys2Proof.Machine.execLeaveAtCheckpoint core slot s
  | .hardSave core slot => Sys2Proof.Machine.execHardSave core slot s
  | .dcacheLineExpiry core line => Sys2Proof.Machine.execDcacheLineExpiry core line s
  | .clusterCacheLineExpiry cluster line => Sys2Proof.Machine.execClusterCacheLineExpiry cluster line s
  | .hardwareWalk core va => Sys2Proof.Machine.execHardwareWalk core va s
  | .qtailDoorbell ctx t => Sys2Proof.Machine.execQtailDoorbell ctx t s
  | .qsizeWrite ctx v => Sys2Proof.Machine.execQsizeWrite ctx v s
  | .registerWrite off v => Sys2Proof.Machine.execRegisterWrite off v s
  | .queueNop ctx => Sys2Proof.Machine.execQueueNop ctx s
  | .launch ctx => Sys2Proof.Machine.execLaunch ctx s
  | .rules ctx => Sys2Proof.Machine.execRules ctx s
  | .signal ctx => Sys2Proof.Machine.execSignal ctx s
  | .launchCompletion ctx => Sys2Proof.Machine.execLaunchCompletion ctx s
  | .contextSwitch incoming => Sys2Proof.Machine.execContextSwitch incoming s
  | .switchSaveAndLoad => Sys2Proof.Machine.execSwitchSaveAndLoad s
  | .fwVersion => Sys2Proof.Machine.execFwVersion s
  | .linkStatus => Sys2Proof.Machine.execLinkStatus s
  | .powerNow => Sys2Proof.Machine.execPowerNow s
  | .attestationQuote => Sys2Proof.Machine.execAttestationQuote s
  | .abort => Sys2Proof.Machine.execAbort s
  | .pageIn => Sys2Proof.Machine.execPageIn s
  | .pageOut => Sys2Proof.Machine.execPageOut s
  | .powerLimit => Sys2Proof.Machine.execPowerLimit s
  | .firmwareUpdate => Sys2Proof.Machine.execFirmwareUpdate s
  | .mailboxAnswer v => Sys2Proof.Machine.execMailboxAnswer v s
  | .reset pcie => Sys2Proof.Machine.execReset pcie s
  | .bootFetch image => Sys2Proof.Machine.execBootFetch image s
  | .bootTimeout => Sys2Proof.Machine.execBootTimeout s
  | .bootVerify hbm dev trap => Sys2Proof.Machine.execBootVerify hbm dev trap s
  | .ulctlWrite port v => Sys2Proof.Machine.execUlctlWrite port v s
  | .linkUp port lanes => Sys2Proof.Machine.execLinkUp port lanes s
  | .linkTrainingTimeout port => Sys2Proof.Machine.execLinkTrainingTimeout port s
  | .linkPeerLoss port => Sys2Proof.Machine.execLinkPeerLoss port s
  | .remoteAccessTimeout core id => Sys2Proof.Machine.execRemoteAccessTimeout core id s
  | .remoteAccessArrival pa req => Sys2Proof.Machine.execRemoteAccessArrival pa req s
  | .hostAccess off len data => Sys2Proof.Machine.execHostAccess off len data s
  | .reductionBlockArrival port index block => Sys2Proof.Machine.execReductionBlockArrival port index block s
  | .rqrelWrite port v => Sys2Proof.Machine.execRqrelWrite port v s
  | .budgetPeriod plan => Sys2Proof.Machine.execBudgetPeriod plan s
  | .keeperTaperEnd row => Sys2Proof.Machine.execKeeperTaperEnd row s
  | .refresh pier => Sys2Proof.Machine.execRefresh pier s
  | .freeze => Sys2Proof.Machine.execFreeze s
  | .frzWrite v => Sys2Proof.Machine.execFrzWrite v s
  | .tapFreeze => Sys2Proof.Machine.execTapFreeze s
  | .frozenReadout region off => Sys2Proof.Machine.execFrozenReadout region off s
  | .eccUncorrectable site => Sys2Proof.Machine.execEccUncorrectable site s
  | .eccCorrected sram => Sys2Proof.Machine.execEccCorrected sram s
  | .crepClear cluster v => Sys2Proof.Machine.execCrepClear cluster v s
  | .cstopClear cluster v => Sys2Proof.Machine.execCstopClear cluster v s
  | .referenceTick => Sys2Proof.Machine.execReferenceTick s

end Sys2Proof.Machine
end

