-- ==== Sys2Proof/Machine/Issue.lean ====
section
/-! DEFINITION. Issue slots (R13, R14, R103, R105, R125): which context issues, what it issues, and what an issue slot leaves. -/

namespace Sys2Proof.Machine

open Sys2Proof

/-- Is the instruction tried by an issue slot, rather than ended by an event? A held TSPILL, TFILL, converting VLD, JOIN, ERDV or SSEND is. -/
def Ctx.tried (c : Ctx) : Bool :=
  match c.wait, c.held with
  | .none, _ => true
  | .access _, _ => true
  | .erdv, _ => true
  | .barw _ _, some (.ssend _) => true
  | _, _ => false

/-- Is a restore still to be made that finds the slots or accumulators of its checkpoint taken (R317, R361), or a part of its frame held by a commit (R81)? -/
def State.noRoom (s : State) (k : Nat) : Bool :=
  let c := s.ctx k
  match c.unrestored with
  | some id =>
    let w := s.entryWords (k / 8) c id
    !c.super && c.wait == .none && !((s.core (k / 8)).roomFor w && s.partsFree (k / 8) c.trans (frameParts c w))
  | none => false

/-- Does nothing but its next instruction itself keep a context from issuing (R13, R105, R125)? A context asked to leave does not issue at a
checkpoint (R359), unless its restore there is still to be made (R361) or it has an ECC trap to take (R390), and one of a launch that is being aborted does not issue (R398). [DESIGN CHOICE, log 27] -/
def State.offers (s : State) (k : Nat) : Bool :=
  let c := s.ctx k
  c.occ && !c.stopped && c.trap.isNone && !(c.sw && !c.drained) && c.yld.isNone && c.tried && !(s.dctx c.dc).aborting
  && !(c.preempt && !c.pmTrap && c.ecc.isNone && c.unrestored.isNone && c.wait == .none && (s.checkpoint (k / 8) c c.pc).isSome) && !s.noRoom k

/-- The instruction that a context issues, or the trap of its fetch (R102, R103). An instruction held back goes on. -/
def State.nextInstr (s : State) (k : Nat) : Except Trap Instr :=
  let c := s.ctx k
  match c.wait, c.held with
  | .none, _ => (match s.fetch (k / 8) c c.pc with
    | .error t => .error t
    | .ok (.instr i _) => .ok i
    | .ok (.ill r _) => .error (ill r)
    | .ok .more => .error (ill 1))
  | _, some i => .ok i
  | _, none => .error (ill 1)

/-- What comes first at an instruction boundary: an ECC trap (R390), a PREEMPT trap in user mode (R359), a restore still to be made, with
its acquire (R317, R361), and at the first chain of a handler the stop of a context that cannot fetch it (R353). [DEDUCED, log 61] -/
def State.atBoundary (s : State) (k : Nat) : Option State :=
  let c := s.ctx k
  if c.wait ≠ .none then none
  else match c.ecc with
    | some t => some ((s.setCtx k { c with ecc := none }).trapCtx k t)
    | none =>
      if c.pmTrap = true ∧ c.super = false then some ((s.setCtx k { c with pmTrap := false }).trapCtx k { cause := 17 })
      else if c.entered = true ∧ s.cannotFetch k = true then some (s.stopAt k)
      else match c.unrestored with
        | none => none
        | some id =>
          if c.super then none
          else some (match s.restoreContext k id with
            | .ok t => t.acquire (k / 8) 3
            | .error t => s.trapCtx k t)

/-- What a context does in an issue slot; none when it is not ready. -/
def State.attempt (s : State) (k : Nat) : Option (Host.Outcome State Fault Refusal) :=
  if s.offers k = false then none
  else match s.atBoundary k with
    | some t => some (.next t)
    | none =>
      let s := { s with cur := k, stall := false }
      match s.nextInstr k with
      | .error t => some (.next (s.raise t))
      | .ok i => match exec i s with
        | .next t => if t.stall then none else some (.next t)
        | r => some r

/-- The slots of a core in the order of R14, with the priority whose pointer moves when the slot is chosen. -/
def State.slotOrder (s : State) (core : Nat) : List (Nat × Option Nat) :=
  let c := s.core core
  let prio (p : Nat) : List (Nat × Option Nat) := ((List.range 8).map (fun i => ((vget c.rot p 0).toNat + i) % 8)).filterMap (fun j =>
    if (s.ctx (8 * core + j)).prio.toNat = p then some (j, some p) else none)
  (c.slotNo % 8, none) :: (prio 3 ++ prio 2 ++ prio 1 ++ prio 0)

/-- The first slot of an order that is ready, its pointer, and what it does. -/
def State.choose (s : State) (core : Nat) : List (Nat × Option Nat) → Option (Nat × Option Nat × Host.Outcome State Fault Refusal)
  | [] => none
  | (j, p) :: r => match s.attempt (8 * core + j) with
    | some o => some (j, p, o)
    | none => s.choose core r

/-- The waits of YIELD after an issue slot in which slot `by_` issued, or none did (R125). A YIELD that has just issued waits for those of the other
contexts that were ready in the slot, as state `s` before it shows. [DEDUCED, log 41] -/
def State.yields (s t : State) (core : Nat) (by_ : Option Nat) : State :=
  (State.slotsOf core).foldl (fun t k =>
    let c := t.ctx k
    match c.yld with
    | none => t
    | some (n, l) =>
      let y : Option (Nat × List Nat) :=
        if by_ = some k then some (n, l.filter (fun q => (s.attempt q).isSome)) else some (n - 1, l.filter (fun q => some q != by_))
      let y := y.filter (fun e => decide (0 < e.1) && !e.2.isEmpty)
      t.setCtx k { c with yld := y }) t

/-- What an issue slot leaves in its core: the next slot number, and the pointer past the slot chosen (R14). [DEDUCED, log 41] -/
def Core.afterSlot (c : Core) (j : Nat) (p : Option Nat) : Core :=
  { c with slotNo := c.slotNo + 1, rot := match p with | some q => c.rot.setIfInBounds q (BitVec.ofNat 3 (j + 1)) | none => c.rot }

/-- The model's own fields between two steps. -/
def State.tidy (s : State) : State := { s with cur := 0, stall := false }

/-- Maps the next state of an outcome. -/
def onNext (f : State → State) : Host.Outcome State Fault Refusal → Host.Outcome State Fault Refusal
  | .next s => .next (f s)
  | r => r

/-- One issue slot of a core (R14). [DESIGN CHOICE, log 2] -/
def State.issueSlot (s : State) (core : Nat) : Host.Outcome State Fault Refusal :=
  match s.choose core (s.slotOrder core) with
  | none => .next ((s.yields (s.setCore core ((s.core core).afterSlot 0 none)) core none).tidy)
  | some (j, p, o) => onNext (fun t => ((s.yields (t.setCore core ((t.core core).afterSlot j p)) core (some (8 * core + j))).tidy)) o

/-- The management cores as cores 0 to 3 of a machine of their own (R371), whose memory is theirs and which has no page tables, save area or park table:
what reaches further does not translate. [DEDUCED, log 51] -/
def State.mgmtView (s : State) : State :=
  let m := s.mgmt
  let r : State := State.reset
  { r with
    ctxs := m.ctxs.map (fun (e : Nat × Ctx) => (e.1, { e.2 with sr := { e.2.sr with parkctl := 0 } }))
    cores := m.cores, mem := m.mem, lineMeta := m.lineMeta, jobs := m.jobs, nextJob := m.nextJob
    devctxs := [(0, { svbase := 2 ^ 55, ptroot := 2 ^ 38 })], resident := some 0
    regs := { r.regs with bstat := 5 }, now := s.now, freeNo := s.freeNo }

/-- What a turn of the management cores leaves; a trap before Cethen has reached state 5 fails the boot (R370, R371). [DEDUCED, log 51] -/
def State.mgmtBack (s t : State) : State :=
  let u : State := { s with
    mgmt := { ctxs := t.ctxs, cores := t.cores, mem := t.mem, lineMeta := t.lineMeta, jobs := t.jobs, nextJob := t.nextJob }, freeNo := t.freeNo }
  if s.bootState = 4 ∧ t.ctxs.any (fun e => e.2.entered || e.2.trap.isSome) = true then u.bootFail 7 else u

/-- The reason of the ILL trap of an instruction that a management core does not execute (R102, R371): of another page, or of another op of page 10. [DESIGN CHOICE, log 108] -/
def mgmtIll (i : Instr) : Nat := if i.spec.any (fun sp => sp.page == 10) then 4 else 3

/-- An issue slot of a management core: an instruction outside its subset traps ILL (R371). [DEDUCED, log 51] -/
def State.mgmtSlot (v : State) (core : Nat) : Host.Outcome State Fault Refusal :=
  let k := 8 * core
  match v.nextInstr k with
  | .ok i => if onMgmt i = false ∧ v.offers k = true then .next ({ v with cur := k }.raise (ill (mgmtIll i))) else v.issueSlot core
  | .error _ => v.issueSlot core

/-- Is a device event one of the units that a management core has: its registers, its memory with the full/empty evaluations, its data cache? [DEDUCED, log 51] -/
def ofMgmt : Instr → Bool
  | .resultWriteback core _ => decide (core < 4)
  | .trapEntry core _ => decide (core < 4)
  | .pierAccess core _ _ => decide (core < 4)
  | .feEvaluation core _ => decide (core < 4)
  | .feBackoffExpiry core _ => decide (core < 4)
  | .waitcProbe core _ _ => decide (core < 4)
  | .waitcTimeout core _ => decide (core < 4)
  | .dcacheLineExpiry core _ => decide (core < 4)
  | .workingCopyEmpty _ => true
  | .pst2Writes _ => true
  | .pst2Fills _ => true
  | _ => false

/-- Do the management cores run: from the jump to the body's entry on, while no boot has failed and the device is not frozen (R371, R384)? [DEDUCED, log 51] -/
def State.mgmtOn (s : State) : Bool := s.bootState == 4 || s.bootState == 5

/-- One turn: an issue slot of a core whose clocks run (R384), or a device event; the same of the management cores (R371). [DESIGN CHOICE, log 2; DEDUCED, log 51] -/
def runTurn (t : Turn) (s : State) : Host.Outcome State Fault Refusal :=
  match t with
  | .issue core => if core < 1536 ∧ s.still = false then s.issueSlot core else .next s
  | .event i => if i.ops.isNone then onNext State.tidy (exec i s) else .next s
  | .mgmtIssue core => if core < 4 ∧ s.mgmtOn = true then onNext s.mgmtBack (s.mgmtView.mgmtSlot core) else .next s
  | .mgmtEvent i => if ofMgmt i = true ∧ s.mgmtOn = true then onNext s.mgmtBack (exec i s.mgmtView) else .next s

/-- The context in which the instruction of `withFetchWord` stands: slot 0 of core 0, its heap [0, 2^39) at physical address 0. [DESIGN CHOICE, log 13] -/
def Ctx.placed (c : Ctx) : Ctx :=
  { c with
    occ := true, pc := 0, wait := .none, held := none, trap := none, sw := false, stopped := false, yld := none, preempt := false, pmTrap := false, ecc := none, unrestored := none,
    sr := { c.sr with hbase := 0, hlimit := 0x8000000000, hoffset := 0 } }

/-- The device ready, with a run of bytes where core 0 fetches next, and its issue slot the next turn. [DESIGN CHOICE, log 13] -/
def State.placeBytes (s : State) (bs : List Byte) : State :=
  let s := s.setCtx 0 (s.ctx 0).placed
  let s := s.setCore 0 { s.core 0 with slotNo := 0 }
  let s := s.setBoot 5
  { s with mem := mblit s.mem 0 (bs.map (fun b => b.toNat)), resident := some (s.resident.getD 0), turns := .issue 0 :: s.turns }

end Sys2Proof.Machine
end

