-- ==== Sys2Proof/Machine/Step.lean ====
section
/-! DEFINITION. The step of the device, and the state in which it runs a given instruction next. -/

namespace Sys2Proof.Machine

open Sys2Proof

/-- One step: the turn that stands first in the state's list, or else the schedule's next one. [DESIGN CHOICE, log 2] -/
def step (s : State) : Host.Outcome State Fault Refusal :=
  match s.turns with
  | t :: r => runTurn t { s with turns := r }
  | [] => runTurn (Config.nextTurn s.turnNo) { s with turnNo := s.turnNo + 1 }

/-- `s` with the instruction of a table row's bits where the next step fetches. [DESIGN CHOICE, log 13] -/
def State.withFetchWord (s : State) (nbits w : Nat) : State := s.placeBytes (tableBytes nbits w)

end Sys2Proof.Machine
end

