-- ==== Sys2Proof/Safety.lean ====
section
/-! DEFINITION. The terms in which claims about runs and instructions are stated: when a run is safe, the canonical form of the device's byte
memories, when an instruction of the current context issues, and what a step leaves alone. -/

namespace Sys2Proof.Machine

open Sys2Proof

/-- A run of n steps is safe when no step of it ends in a fault or a refusal. -/
def Safe (n : Nat) (s : State) : Prop := ∃ t, core.run n s = .next t

/-- The memories of the device, of its neighbours and of the management cores are in canonical form. -/
def State.memWf (s : State) : Bool := Mem.wf s.mem && Mem.wf s.rmem && Mem.wf s.mgmt.mem

/-- The memories of every core, the L-memory, both tile buffers and the S-memory, are in canonical form. -/
def State.buffersWf (s : State) : Prop :=
  ∀ k, Mem.wf (s.core k).lmem = true ∧ Mem.wf (s.core k).abuf = true ∧ Mem.wf (s.core k).wbuf = true ∧ Mem.wf (s.core k).smem = true

/-- The current context holds no wait and none of the registers `touch` is pending: nothing keeps its instruction back (R106). -/
abbrev State.free (s : State) (touch : List Nat) : Prop := s.cx.occ = true ∧ s.cx.wait = .none ∧ s.cx.dep touch = none

/-- An instruction of pages 0 to 3 or 8 to 10 issues and its guard holds (R97, R106). -/
abbrev State.canIssue (s : State) (o : Ops) (touch : List Nat) : Prop := s.free (rp o.pred :: touch) ∧ s.cx.guard o = true

/-- An instruction of pages 4 to 7 issues; its masks are touched unless they are `vm0` (R97, R106). -/
abbrev State.canIssueV (s : State) (o : Ops) (masks : Nat) (touch : List Nat) : Prop :=
  s.free ((if o.pred = 0 then [] else grp rm o.pred masks) ++ touch)

/-- The state once the row of the current core has given the token of a page 5 instruction (R382). -/
def State.paid (s : State) : State :=
  s.setRow (s.coreNo / 8) { s.row (s.coreNo / 8) with balance := (s.row (s.coreNo / 8)).balance - 1, taper := none }

/-- The outcome of an instruction that has completed in state `t`: the current context goes on to the next chain, or loops back (R89, R127). -/
def retired (i : Instr) (t : State) : Host.Outcome State Fault Refusal := .next (t.setCx (t.cx.retire i (Instr.marker i)))

/-- The outcome of an instruction that has transferred control (R124, R127). -/
def jumped (i : Instr) (t : State) (pc : Word) : Host.Outcome State Fault Refusal := .next (t.setCx (t.cx.jump (Instr.marker i) pc))

/-- The outcome of an instruction that has begun and whose context waits for the rest of it; a switch marker before it has had its effect (R105). -/
def waits (i : Instr) (w : Wait) (t : State) : Host.Outcome State Fault Refusal := .next (t.setCx { t.cx with wait := w, held := some i, sw := false, entered := false })

/-- Two states have the same bytes in every memory, the same full/empty and other line metadata, and the same poison marks. -/
def sameMemory (s t : State) : Prop := t.mem = s.mem ∧ t.rmem = s.rmem ∧ t.lineMeta = s.lineMeta ∧ t.poison = s.poison

/-- What an instruction that performs no access, traps among its ends, does to memory: nothing, unless its context stops at a handler that it cannot
fetch. Then it writes that context's hard-save image and no other byte (R353, R360), and its row may begin its taper (R383). -/
def memoryStays (s t : State) : Prop :=
  (t.cx.stopped = false → sameMemory s t ∧ t.rows = s.rows)
  ∧ (∀ a, a < s.savedAt s.cur ∨ s.savedAt s.cur + 0x4000 ≤ a → mget t.mem a = mget s.mem a)
  ∧ t.rmem = s.rmem ∧ ∀ a, t.fe a = s.fe a ∧ t.waitBit a = s.waitBit a

/-- What the rules give of registers in every state (R6, R245, R246, R381, R382): the reserved bits of `xstat` and `xenable` are 0 in every context, in a
slot or kept by a switch; a core's duty lies from 1 to 16; a row's token balance is at most 256. -/
def State.regsWf (s : State) : Prop :=
  (∀ e ∈ s.ctxs, e.2.sr.xstat.toNat < 64 ∧ e.2.sr.xenable.toNat < 64)
  ∧ (∀ d ∈ s.devctxs, ∀ v, d.2.saved = some v → ∀ e ∈ v.ctxs, e.2.sr.xstat.toNat < 64 ∧ e.2.sr.xenable.toNat < 64)
  ∧ (∀ e ∈ s.cores, 1 ≤ e.2.fduty.toNat ∧ e.2.fduty.toNat ≤ 16)
  ∧ ∀ e ∈ s.rows, e.2.balance ≤ 256

/-- Two states have the same contexts but for one. -/
def sameContexts (s t : State) (k : Nat) : Prop := ∀ j, j ≠ k → t.ctx j = s.ctx j

/-- Two contexts have the same vector, predicate, mask, loop and seed registers, and general registers but for those named. -/
def sameRegisters (c d : Ctx) (except : List Nat) : Prop :=
  (∀ n, n ∉ except → d.getG n = c.getG n) ∧ d.v = c.v ∧ d.p = c.p ∧ d.vm = c.vm ∧ d.sd = c.sd

end Sys2Proof.Machine
end

