-- ==== Sys2Proof/Certificates/Slice0/Obligations.lean ====
section
/-! DEFINITION. The statements about the X4. -/

namespace Sys2Proof.Machine

open Sys2Proof

/-- The ALU instructions of R115 whose result follows at once, but for SEL and the pointer forms, with their results on 64-bit words. -/
def aluTable : List ((Ops → Instr) × (Word → Word → Word)) := [
  (.add, fun x y => x + y), (.sub, fun x y => x - y), (.and, fun x y => x &&& y), (.or, fun x y => x ||| y), (.xor, fun x y => x ^^^ y),
  (.andn, fun x y => x &&& ~~~y), (.shl, fun x y => x <<< (y.toNat % 64)), (.shr, fun x y => x >>> (y.toNat % 64)),
  (.sar, fun x y => x.sshiftRight (y.toNat % 64)), (.rol, fun x y => x.rotateLeft (y.toNat % 64)), (.ror, fun x y => x.rotateRight (y.toNat % 64)),
  (.mul, fun x y => BitVec.ofNat 64 (x.toNat * y.toNat)), (.mulh, fun x y => BitVec.ofInt 64 (x.toInt * y.toInt / 2 ^ 64)),
  (.mulhn, fun x y => BitVec.ofNat 64 (x.toNat * y.toNat / 2 ^ 64)), (.min, fun x y => if x.toInt ≤ y.toInt then x else y),
  (.max, fun x y => if x.toInt ≤ y.toInt then y else x), (.minn, fun x y => if x.toNat ≤ y.toNat then x else y),
  (.maxn, fun x y => if x.toNat ≤ y.toNat then y else x)]

/-- The divides of R115, with their quotients and remainders. -/
def divTable : List ((Ops → Instr) × (Word → Word → Word)) := [
  (.div, fun x y => BitVec.ofInt 64 (x.toInt.tdiv y.toInt)), (.divn, fun x y => BitVec.ofNat 64 (x.toNat / y.toNat)),
  (.rem, fun x y => BitVec.ofInt 64 (x.toInt.tmod y.toInt)), (.remn, fun x y => BitVec.ofNat 64 (x.toNat % y.toNat))]

/-- The number of leading zero bits of a 64-bit word: of the bits from 63 down, as many as are 0 before the first 1. -/
def leadingZeros (x : Word) : Nat := ((List.range 64).takeWhile (fun i => !x.getLsbD (63 - i))).length

/-- The number of trailing zero bits of a 64-bit word. -/
def trailingZeros (x : Word) : Nat := ((List.range 64).takeWhile (fun i => !x.getLsbD i)).length

/-- The one-operand instructions of R117 with their results. -/
def oneTable : List ((Ops → Instr) × (Word → Word)) := [
  (.mov, fun x => x), (.clz, fun x => BitVec.ofNat 64 (leadingZeros x)), (.ctz, fun x => BitVec.ofNat 64 (trailingZeros x)),
  (.popc, fun x => BitVec.ofNat 64 ((List.range 64).filter (fun i => x.getLsbD i)).length),
  (.abs, fun x => BitVec.ofInt 64 |x.toInt|), (.fatx, fun x => BitVec.ofNat 64 (x.toNat / 2 ^ 56))]

/-- The registers that an instruction names, its guard predicate among them (R97, R106). -/
def guarded (regs : Ops → List Nat) (o : Ops) : List Nat := rp o.pred :: regs o

/-- The registers that an instruction of pages 4 to 7 names, the registers of its lane mask among them unless it is `vm0` (R97, R106). -/
def masked (n : Ops → Nat) (regs : Ops → List Nat) (o : Ops) : List Nat := (if o.pred = 0 then [] else grp rm o.pred (n o)) ++ regs o

/-- Instructions of pages 4 to 10 with the registers that they name (R161 to R166, R193, R216, R244). -/
def pendTable : List ((Ops → Instr) × (Ops → List Nat)) :=
  let dab (o : Ops) : List Nat := [rv o.dNum, rv o.aNum, rv o.bNum]
  let group (o : Ops) : List Nat := grp rv o.dNum (groupSize o)
  let value (o : Ops) : List Nat := if o.hasImm then [] else [rg o.aNum]
  [(.vld, masked (fun _ => 1) (fun o => group o ++ addrRegs o)), (.vst, masked (fun _ => 1) (fun o => group o ++ addrRegs o)),
   (.vlds, masked (fun _ => 1) (fun o => group o ++ [rg o.aNum, rg o.bNum])), (.vsct, masked (fun _ => 1) (fun o => group o ++ [rg o.aNum, rv o.bNum])),
   (.vldl, masked (fun _ => 1) (fun o => group o ++ addrRegs o)), (.vstt, masked (fun _ => 1) group), (.vldc, masked (fun _ => 1) group),
   (.vmov, masked (fun _ => 1) (fun o => group o ++ grp rv o.aNum (groupSize o))), (.vperm, masked (fun _ => 1) dab), (.vmpop, masked (fun _ => 1) (fun o => [rg o.dNum, rm o.aNum])),
   (.vfadd, masked vfMaskRegs (fun o => vxyRegs o 1)), (.vfma, masked vfMaskRegs dab), (.vfdiv, masked vfMaskRegs (fun o => vxyRegs o 1)), (.vfred, masked vfMaskRegs (fun o => [rg o.dNum, rv o.aNum])),
   (.vadd, masked viMaskRegs (fun o => vxyRegs o (viRegs o))), (.vdot4, masked (fun _ => 1) dab),
   (.vcvtf, masked vfMaskRegs (fun o => rv o.dNum :: grp rv o.aNum (wideRegs o))), (.vqdb, masked (fun _ => 1) (fun o => [rv o.dNum, rv o.aNum, rg o.bNum])), (.baddrq, masked (fun _ => 1) dab),
   (.tscl, guarded (fun o => [rg o.dNum])), (.tnorm, guarded (fun o => [rv o.dNum])), (.tstat, guarded (fun o => [rv o.dNum])), (.tcvt, guarded (fun o => [rg o.aNum])),
   (.tspill, guarded (fun o => [rg o.aNum])), (.tfill, guarded (fun o => [rg o.aNum])), (.sdset, guarded value), (.sdget, guarded (fun o => [rg o.dNum])),
   (.xcopy, guarded (fun o => [rg o.aNum])), (.igath, guarded (fun o => [rg o.aNum])), (.ego, guarded (fun o => [rg o.aNum])), (.ecset, guarded value), (.ecadd, guarded value),
   (.barmx, guarded (fun o => [rg o.dNum, rg o.aNum])), (.barx, guarded value), (.fork, guarded (fun o => [rg o.aNum, rg o.bNum])), (.join, guarded (fun o => [rg o.aNum])),
   (.dqpush, guarded (fun o => [rg o.aNum])), (.dqpop, guarded (fun o => [rg o.dNum])), (.handoff, guarded (fun o => [rg o.aNum, rg o.bNum])), (.capq, guarded (fun o => [rg o.dNum, rg o.aNum])),
   (.ssend, guarded (fun o => [rg o.aNum])), (.msgsend, guarded (fun o => [rg o.aNum, rg o.bNum])), (.msgrecv, guarded (fun o => [rg o.dNum])),
   (.mfs, guarded (fun o => if o.aNum = 10 then [rg o.dNum, rg (o.dNum + 1)] else [rg o.dNum])), (.mts, guarded (fun o => if o.dNum = 10 then [rg o.aNum, rg (o.aNum + 1)] else [rg o.aNum])),
   (.fwcall, guarded (fun o => [rg o.dNum, rg o.bNum])), (.tlbinv, guarded (fun o => [rg o.aNum])), (.cinv, guarded (fun o => [rg o.aNum, rg o.bNum])), (.idle, guarded (fun o => [rg o.aNum])),
   (.pglob, guarded (fun o => [rg o.dNum, rg o.aNum]))]

/-- How many ops each page uses (R101). -/
def opsOnPage : List Nat := [28, 30, 19, 16, 20, 17, 18, 10, 15, 22, 10]

/-- The words of a list that are prefixes of a kind: 1 OPND, 2 PAGE, 3 MOD (R91). -/
def prefixesOf (kind : Nat) (ps : List (BitVec 16)) : List (BitVec 16) := ps.filter (fun p => p.toNat / 2 ^ 10 % 4 == kind)

end Sys2Proof.Machine

open Sys2Proof Sys2Proof.Machine

/-- R89 to R101: every well-formed instruction is read back from the words that encode it, whatever words follow. -/
def Obligations.DecodeReadsEncodedChain : Prop :=
  ∀ (i : Instr) (rest : List (BitVec 16)), i.wf = true → decode (encode i ++ rest) = .instr i i.words

/-- R92, R102: what the decoder accepts is well-formed and at most five words long, and its length is that of its encoding. A fifth prefix, a prefix
that comes twice, a reserved page, a reserved op: each is refused with its reason, the lowest that applies, and every other chain that is no
instruction with a reason from 5 to 8; the ALU forms and LD show the order of those. -/
def Obligations.DecodedChainIsWellFormed : Prop :=
  (∀ (ws : List (BitVec 16)) (i : Instr) (n : Nat), decode ws = .instr i n → i.wf = true ∧ n = i.words ∧ n ≤ 5 ∧ n ≤ ws.length)
  ∧ (∀ ps rest : List (BitVec 16), (∀ p ∈ ps, p.toNat / 2 ^ 12 = 15) → ps.length = 5 → decode (ps ++ rest) = .ill 1 5)
  ∧ (∀ (ps rest : List (BitVec 16)) (w : BitVec 16), (∀ p ∈ ps, p.toNat / 2 ^ 12 = 15) → ps.length ≤ 4 → w.toNat / 2 ^ 12 ≠ 15 →
    let n := ps.length + 1
    let data := (prefixesOf 2 ps).map (fun p => p.toNat % 2 ^ 10)
    let twice := ∃ k ∈ [1, 2, 3], 2 ≤ (prefixesOf k ps).length
    let page := data.headD 0 / 4
    let noPage := ∃ v ∈ data, v % 4 ≠ 0 ∨ v / 4 = 0 ∨ 10 < v / 4
    (twice → decode (ps ++ w :: rest) = .ill 2 n)
    ∧ (¬ twice → noPage → decode (ps ++ w :: rest) = .ill 3 n)
    ∧ (¬ twice → ¬ noPage → opsOnPage.getD page 0 ≤ w.toNat / 2 ^ 11 → decode (ps ++ w :: rest) = .ill 4 n)
    ∧ (¬ twice → ¬ noPage → w.toNat / 2 ^ 11 < opsOnPage.getD page 0 → (∃ i, decode (ps ++ w :: rest) = .instr i n) ∨ ∃ r, 5 ≤ r ∧ r ≤ 8 ∧ decode (ps ++ w :: rest) = .ill r n))
  ∧ (∀ (mk : Ops → Instr) (f : Word → Word → Word) (o : Ops) (sp : Spec), (mk, f) ∈ aluTable → (mk o).spec = some sp → o.plainWords + (if sp.page = 0 then 0 else 1) ≤ 5 →
    let ws := o.words sp.page sp.op
    decode ws = if o.clsOr 0 ≠ 0 then .ill 5 ws.length else if o.hasImm = true ∧ o.ahBit = true then .ill 7 ws.length else if o.width ≠ 0 then .ill 8 ws.length else .instr (mk o) ws.length)
  ∧ ∀ o : Ops, o.plainWords ≤ 5 →
    let ws := o.words 0 15
    decode ws = if 5 ≤ fld (o.clsOr 6) 1 3 then .ill 5 ws.length else if 2 ≤ fld (o.clsOr 6) 4 2 then .ill 6 ws.length else if o.hasImm = true ∧ o.ahBit = true then .ill 7 ws.length
      else if 2 ≤ o.width ∨ o.dNum % 2 ^ o.width ≠ 0 then .ill 8 ws.length else .instr (.ld o) ws.length

/-- R89 to R103: words written out from the encoding tables, and what they stand for: `ADD g4, g5, #100`, `LDW.acq.dev` with four prefixes,
`MOV g1, g2`, and chains that are none: a fifth prefix, a second OPND, an op that page 0 does not use. -/
def Obligations.WrittenWordsDecode : Prop :=
  decode [0xF4A0, 0xF003, 0x1908] = .instr (.add { imms := [3], opnd := some { b := 5, dh := false, ah := false, bh := false, width := 0 }, d := 4, a := 4 }) 3
  ∧ decode [0x0844] = .instr (.mov { d := 1, a := 2 }) 1
  ∧ decode [0xF808, 0xF520, 0xFED6, 0xF000, 0x4960] = .instr (.ldw { imms := [0], opnd := some { b := 9, dh := false, ah := false, bh := false, width := 0 }, mod := some { sense := true, pred := 3, cls := 0x16 }, d := 5, a := 16 }) 5
  ∧ decode [0xF000, 0xF000, 0xF000, 0xF000, 0xF000] = .ill 1 5
  ∧ decode [0xF4A0, 0xF4A0, 0x1908] = .ill 2 3
  ∧ decode [0xE000] = .ill 4 1

/-- R14, R103, R125: an issue slot whose own context is ready runs the chain that its fetch decodes. The step takes the slot from the head of the
state's turns (the model's choice, log 2); around the instruction it advances the slot number and counts the slot for every YIELD (R125, as log 41 reads
it), and nothing else. When that context is not ready, a ready one of the greatest priority runs its chain, the first at or after the pointer of its
priority, and the pointer moves past it; when none is ready the slot passes. -/
def Obligations.StepRunsDecodedChain : Prop :=
  (∀ (s t : State) (core n : Nat) (i : Instr),
    let k := 8 * core + (s.core core).slotNo % 8
    core < 1536 → s.still = false → s.offers k = true → s.atBoundary k = none → (s.ctx k).wait = .none →
    s.fetch core (s.ctx k) (s.ctx k).pc = .ok (.instr i n) →
    exec i { s with cur := k, stall := false } = .next t → t.stall = false →
    step { s with turns := .issue core :: s.turns } = .next ((s.yields (t.setCore core ((t.core core).afterSlot ((s.core core).slotNo % 8) none)) core (some k)).tidy))
  ∧ ∀ (s : State) (core : Nat),
    let ready (j : Nat) : Prop := (s.attempt (8 * core + j)).isSome = true
    let prio (j : Nat) : Nat := (s.ctx (8 * core + j)).prio.toNat
    let distance (j : Nat) : Nat := (j + 8 - (vget (s.core core).rot (prio j) 0).toNat) % 8
    core < 1536 → s.still = false → ¬ ready ((s.core core).slotNo % 8) →
    (∀ (t : State) (j n : Nat) (i : Instr),
      let k := 8 * core + j
      j < 8 → (∀ q, q < 8 → ready q → prio q < prio j ∨ (prio q = prio j ∧ distance j ≤ distance q)) →
      j ≠ (s.core core).slotNo % 8 → s.offers k = true → s.atBoundary k = none → (s.ctx k).wait = .none → s.fetch core (s.ctx k) (s.ctx k).pc = .ok (.instr i n) →
      exec i { s with cur := k, stall := false } = .next t → t.stall = false →
      step { s with turns := .issue core :: s.turns } = .next ((s.yields (t.setCore core ((t.core core).afterSlot j (some (prio j)))) core (some k)).tidy))
    ∧ ((∀ q, q < 8 → ¬ ready q) → step { s with turns := .issue core :: s.turns } = .next ((s.yields (s.setCore core ((s.core core).afterSlot 0 none)) core none).tidy))

/-- The state after reset: `bstat` 0, `now` 0, `devid` 0xFFF, every core's barrier groups, deque and engines empty, its duty 16; every line full with no
wait bit (R62); `mctl` the reset value of R194; no context, launch or park. The registers of a slot that holds no context at 0 (log 3), event counters
at 0 (log 5), accumulators of +0 with a zero header (log 4) are the model's choices. -/
def Obligations.ResetValues : Prop :=
  let s := State.reset
  s.regs.bstat = 0 ∧ s.now = 0 ∧ s.regs.devid = 0xFFF ∧ s.regs.frz = 0 ∧ s.resident = none ∧ s.parked = [] ∧ s.jobs = []
  ∧ (∀ k, (s.core k).ec = Vector.replicate 16 0 ∧ (s.core k).bars = Vector.replicate 8 {} ∧ (s.core k).deque = [] ∧ (s.core k).copy = {} ∧ (s.core k).index = {}
      ∧ (s.core k).fduty = 16 ∧ (s.core k).fenced = false ∧ (s.core k).slotNo = 0)
  ∧ (∀ k n, (s.core k).acc n = {})
  ∧ (∀ pa, s.fe pa = true ∧ s.waitBit pa = false ∧ s.wl pa = false)
  ∧ (∀ k, (s.ctx k).occ = false ∧ (∀ n, (s.ctx k).getG n = 0 ∧ (s.ctx k).getV n = 0 ∧ (s.ctx k).getSd n = 0) ∧ (s.ctx k).l0.lc = 0 ∧ (s.ctx k).l1.lc = 0
      ∧ (s.ctx k).sr.xstat = 0 ∧ (s.ctx k).sr.xflags = 0 ∧ (s.ctx k).sr.xenable = 0 ∧ (s.ctx k).sr.mctl = 0x0000000000000000000001010000_0820#128)
  ∧ (∀ n, (s.dctx n).qstat = 0 ∧ (s.dctx n).launch = none)

/-- The memories that reset leaves list nothing out of order and no zero: device memory, that of the other devices, and every core's own. -/
def Obligations.ResetMemoryCanonical : Prop := State.reset.memWf = true ∧ State.reset.buffersWf

/-- Every step, of an instruction or of an event, from every state keeps the memories of the device in canonical form, and so the L-memory, the tile buffers
and the S-memory of every core. -/
def Obligations.StepKeepsMemoryCanonical : Prop :=
  (∀ s t : State, s.memWf = true → step s = .next t → t.memWf = true) ∧ ∀ s t : State, s.buffersWf → step s = .next t → t.buffersWf

/-- No run of the device, from any state and of any length, ends in a fault or a refusal. That an event whose condition does not hold leaves the state
alone is the model's choice (log 2). -/
def Obligations.EveryRunIsSafe : Prop := ∀ (n : Nat) (s : State), Safe n s

/-- R371, R384, R385: while the device is frozen or its boot has failed, no issue slot and no event but a reset changes anything. That the freeze is
looked at before an event's own condition is the model's choice (log 54). -/
def Obligations.FrozenDeviceStandsStill : Prop :=
  ∀ s : State, s.still = true →
    (∀ core, runTurn (.issue core) s = .next s)
    ∧ ∀ i : Instr, i.ops = none → (∀ pcie, i ≠ .reset pcie) → exec i s = .next s

/-- R97, R106, R127: with a false guard, and no register pending that the instruction names, the guard among them, every instruction of pages 0 to 3
and 8 to 10 changes nothing but the place in the program; its switch marker still takes effect, and the loop-back decision is made. A pending register
that it does not name does not hold it back: stated for the ALU, one-operand and load forms. -/
def Obligations.FalseGuardOnlyRetires : Prop :=
  ∀ (i : Instr) (o : Ops) (sp : Spec) (s : State), i.ops = some o → i.spec = some sp → sp.page ≤ 3 ∨ 8 ≤ sp.page →
    s.cx.occ = true → s.cx.wait = .none → s.cx.guard o = false →
      (s.cx.drained = true → exec i s = retired i s)
      ∧ (∀ regs, ((∃ mk f, (mk, f) ∈ aluTable ∧ i = mk o) ∧ regs = aluRegs o) ∨ ((∃ mk f, (mk, f) ∈ oneTable ∧ i = mk o) ∧ regs = [rg o.dNum, rg o.aNum])
          ∨ (i = .ld o ∧ regs = grp rg o.dNum (groupSize o) ++ addrRegs o) →
        (∀ r ∈ rp o.pred :: regs, s.cx.pending r = false) → exec i s = retired i s)

/-- R104, R106, R351: an instruction of any page that names a pending register, its guard or its lane mask among them, traps DEP with the lowest pending one
in `xinfo`, whether or not its guard holds. Stated for the ALU, one-operand, load and store forms, and for those that `pendTable` lists of pages 4 to 10. -/
def Obligations.PendingRegisterTrapsDep : Prop :=
  ∀ (mk : Ops → Instr) (regs : Ops → List Nat),
    ((∃ f, (mk, f) ∈ aluTable) ∧ regs = guarded aluRegs) ∨ ((∃ f, (mk, f) ∈ oneTable) ∧ regs = guarded (fun o => [rg o.dNum, rg o.aNum]))
      ∨ (mk ∈ [Instr.ld, Instr.st] ∧ regs = guarded (fun o => grp rg o.dNum (groupSize o) ++ addrRegs o)) ∨ (mk, regs) ∈ pendTable →
    ∀ (o : Ops) (s : State) (r : Nat), s.cx.occ = true → s.cx.wait = .none → r ∈ regs o → s.cx.pending r = true →
      ∃ q ∈ regs o, s.cx.pending q = true ∧ (∀ r' ∈ regs o, s.cx.pending r' = true → q ≤ r') ∧ exec (mk o) s = .next (s.raise { cause := 2, xinfo := BitVec.ofNat 64 q })

/-- R352: the registers that taking a trap writes, and those it leaves. The context takes it at once when no result is pending. No memory changes,
unless the handler cannot be fetched and the context stops (R353). -/
def Obligations.TrapEntryWrites : Prop :=
  ∀ (s : State) (t : Trap), s.cx.drained = true →
    let u := s.raise t
    let c := s.cx
    let d := u.cx
    d.sr.xpc = BitVec.ofNat 64 (fld (t.xpc.getD c.pc).toNat 0 56) ∧ d.sr.xcause = BitVec.ofNat 64 t.cause ∧ d.sr.xaddr = t.xaddr ∧ d.sr.xinfo = t.xinfo
    ∧ d.sr.xstat.getLsbD 1 = c.sr.xstat.getLsbD 0 ∧ d.sr.xstat.getLsbD 0 = true
    ∧ d.sr.xstat.getLsbD 4 = c.sr.xstat.getLsbD 2 ∧ d.sr.xstat.getLsbD 5 = c.sr.xstat.getLsbD 3
    ∧ d.sr.xstat.getLsbD 2 = (c.sr.xstat.getLsbD 2 || c.l0.lc != 0) ∧ d.sr.xstat.getLsbD 3 = (c.sr.xstat.getLsbD 3 || c.l1.lc != 0)
    ∧ d.pc = c.sr.tvec
    ∧ sameRegisters c d [] ∧ d.l0 = c.l0 ∧ d.l1 = c.l1 ∧ d.tc = c.tc
    ∧ d.sr = { c.sr with xpc := d.sr.xpc, xcause := d.sr.xcause, xaddr := t.xaddr, xinfo := t.xinfo, xstat := d.sr.xstat }
    ∧ memoryStays s u ∧ u.cores = s.cores ∧ sameContexts s u s.cur

/-- R114, R115: each of the ALU instructions writes its result on X and Y to G[D] and goes on to the next chain; nothing else changes. A write to
`g0` is discarded. -/
def Obligations.AluWritesResult : Prop :=
  ∀ (mk : Ops → Instr) (f : Word → Word → Word), (mk, f) ∈ aluTable → ∀ (o : Ops) (s : State), s.canIssue o (aluRegs o) →
    let x := if o.hasImm then s.cx.getG (if o.hasOpnd then o.bNum else o.dNum) else if o.hasOpnd then s.cx.getG o.aNum else s.cx.getG o.dNum
    let y := if o.hasImm then wordOf o.imm else if o.hasOpnd then s.cx.getG o.bNum else s.cx.getG o.aNum
    exec (mk o) s = retired (mk o) (s.setCx (s.cx.setG o.dNum (f x y)))

/-- What a register-only scalar instruction leaves alone, however it ends, a trap among the ways: every memory, but for the image of a context that
stops at its handler; every core, every other context, and in its own context every register file but the one register that it writes. -/
def Obligations.ScalarFrame : Prop :=
  ∀ (mk : Ops → Instr), (∃ f, (mk, f) ∈ aluTable) ∨ (∃ f, (mk, f) ∈ oneTable)
      ∨ mk ∈ [Instr.sel, .movi, .ext, .extn, .ins, .lea, .addp, .fats, .lcr, .sdget, .call] →
    ∀ (o : Ops) (s t : State), exec (mk o) s = .next t →
      memoryStays s t ∧ t.cores = s.cores ∧ t.devctxs = s.devctxs ∧ t.regs = s.regs ∧ sameContexts s t s.cur
      ∧ sameRegisters s.cx t.cx [o.dNum]
      ∧ t.cx.sr.mctl = s.cx.sr.mctl ∧ t.cx.sr.xflags = s.cx.sr.xflags ∧ t.cx.sr.xenable = s.cx.sr.xenable

/-- R104, R115, R116, R119, R121: SEL, CMP and the pointer instructions. LEA is stated where its format is not reserved and its index even in DB4, ADDP and LEA
where the sum stays in [0, 2^56); where it does not, they trap PROT with the sum modulo 2^64. A divide with a non-zero Y leaves G[D] pending and its quotient
or remainder on its way to G[D]; a zero Y traps DIVZ. -/
def Obligations.SelectComparePointerDivide : Prop :=
  (∀ (o : Ops) (s : State),
    (s.canIssue o (aluRegs o) →
      exec (.sel o) s = retired (.sel o) (s.setCx (s.cx.setG o.dNum (if s.cx.getG o.dNum = 0 then (aluXY o s.cx).2 else (aluXY o s.cx).1)))
      ∧ exec (.fats o) s = retired (.fats o) (s.setCx (s.cx.setG o.dNum (BitVec.ofNat 64 ((aluXY o s.cx).2.toNat % 256 * 2 ^ 56 + (aluXY o s.cx).1.toNat % 2 ^ 56))))
      ∧ (∀ (p : Bool) (es2 : Nat), es2 = (if p then 2 else elemSize2 ((aluXY o s.cx).1.toNat / 2 ^ 59)) → es2 ≠ 0 → (es2 = 1 → (aluXY o s.cx).2.toNat % 2 = 0) →
          let i := if p then Instr.addp o else .lea o
          let sum : Int := ((aluXY o s.cx).1.toNat % 2 ^ 56 : Nat) + (aluXY o s.cx).2.toInt * es2 / 2
          exec i s = if 0 ≤ sum ∧ sum < 2 ^ 56 then retired i (s.setCx (s.cx.setG o.dNum (BitVec.ofNat 64 ((aluXY o s.cx).1.toNat / 2 ^ 56 * 2 ^ 56 + sum.toNat))))
            else .next (s.raise { cause := 5, xaddr := BitVec.ofInt 64 sum, xinfo := BitVec.ofNat 64 (15 * 4096 + 15 * 256 + 4) })))
    ∧ (s.canIssue o (if o.hasImm then [rp o.dNum, rg o.moved] else [rp o.dNum, rg o.aNum, rg o.bNum]) →
        let x := if o.hasImm then s.cx.getG o.moved else s.cx.getG o.aNum
        let y := if o.hasImm then wordOf o.imm else s.cx.getG o.bNum
        let r := match o.clsOr 0 with
          | 0 => x == y | 1 => x != y | 2 => x.slt y | 3 => x.sle y | 4 => y.slt x | 5 => y.sle x | 6 => x.ult y | 7 => x.ule y | 8 => y.ult x | 9 => y.ule x
          | 10 => x &&& y != 0 | _ => x &&& y == 0
        exec (.cmp o) s = retired (.cmp o) (s.setCx (s.cx.setP o.dNum r))))
  ∧ ∀ (mk : Ops → Instr) (f : Word → Word → Word), (mk, f) ∈ divTable → ∀ (o : Ops) (s : State), s.canIssue o (aluRegs o) →
    ((aluXY o s.cx).2 ≠ 0 →
      exec (mk o) s = retired (mk o) ((s.setCx (s.cx.mark true (rg o.dNum))).setCo
        { s.co with results := s.co.results ++ [{ slot := s.cur % 8, g := [(o.dNum, f (aluXY o s.cx).1 (aluXY o s.cx).2)] }] }))
    ∧ ((aluXY o s.cx).2 = 0 → exec (mk o) s = .next (s.raise { cause := 11 }))

/-- R117, R120: the one-operand instructions write their result on G[A] to G[D]. MOVI writes the immediate, sign-extended; with no IMM prefix
it lies from −16 to 15, with four from −2^44 to 2^44 − 1. -/
def Obligations.OneOperandResults : Prop :=
  (∀ (mk : Ops → Instr) (f : Word → Word), (mk, f) ∈ oneTable → ∀ (o : Ops) (s : State), s.canIssue o [rg o.dNum, rg o.aNum] →
    exec (mk o) s = retired (mk o) (s.setCx (s.cx.setG o.dNum (f (s.cx.getG o.aNum)))))
  ∧ (∀ (o : Ops) (s : State), s.canIssue o [rg o.dNum] → exec (.movi o) s = retired (.movi o) (s.setCx (s.cx.setG o.dNum (BitVec.ofInt 64 o.imm))))
  ∧ (∀ o : Ops, o.imms = [] → -16 ≤ o.imm ∧ o.imm ≤ 15)
  ∧ (∀ o : Ops, o.imms.length = 4 → -2 ^ 44 ≤ o.imm ∧ o.imm ≤ 2 ^ 44 - 1)

/-- R118: EXT and EXTN read the field of X that starts at pos and is len bits long, signed or unsigned; INS replaces that field of G[D] by the
low len bits of X and keeps the other bits. X is G[B] with OPND and G[D] without it. A chain whose immediate gives a len of 0, a len above 64, a field
that passes bit 63, or has bits above 12 set, is no instruction: it is refused with reason 7, or with reason 5 where that applies too (R102). -/
def Obligations.BitFieldResults : Prop :=
  (∀ (mk : Ops → Instr) (n : Nat) (o : Ops), (mk, n) ∈ [(Instr.ext, 11), (.extn, 12), (.ins, 13)] → o.plainWords ≤ 4 →
    let ws := o.words 1 n
    let pos := o.imm.toNat % 64
    let len := o.imm.toNat / 64
    decode ws = if o.clsOr 0 ≠ 0 then .ill 5 ws.length
      else if o.imm < 0 ∨ len = 0 ∨ 64 < pos + len ∨ o.ahBit = true then .ill 7 ws.length
      else if o.width ≠ 0 then .ill 8 ws.length else .instr (mk o) ws.length)
  ∧ ∀ (o : Ops) (s : State), s.canIssue o [rg o.dNum, rg o.moved] →
    let pos := o.imm.toNat % 64
    let len := o.imm.toNat / 64 % 128
    let x := s.cx.getG (if o.hasOpnd then o.bNum else o.dNum)
    let d := s.cx.getG o.dNum
    (1 ≤ len → pos + len ≤ 64 →
      exec (.extn o) s = retired (.extn o) (s.setCx (s.cx.setG o.dNum (BitVec.ofNat 64 (x.toNat / 2 ^ pos % 2 ^ len))))
      ∧ exec (.ext o) s = retired (.ext o) (s.setCx (s.cx.setG o.dNum ((BitVec.ofNat len (x.toNat / 2 ^ pos)).signExtend 64)))
      ∧ ∃ r : Word, exec (.ins o) s = retired (.ins o) (s.setCx (s.cx.setG o.dNum r))
          ∧ ∀ i, i < 64 → r.getLsbD i = if pos ≤ i ∧ i < pos + len then x.getLsbD (i - pos) else d.getLsbD i)

/-- R122, R123: PAND, POR, PXOR write P[X] op P[Y] to P[D], PNOT writes NOT P[A]; `p0` reads true and writes to it are discarded. MOVP moves
between a predicate and a register, or between all predicates and a register. -/
def Obligations.PredicateResults : Prop :=
  (∀ (o : Ops) (s : State),
    (∀ (mk : Ops → Instr) (f : Bool → Bool → Bool), (mk, f) ∈ [(Instr.pand, (· && ·)), (Instr.por, (· || ·)), (Instr.pxor, (· ^^ ·))] →
      ∀ x y, (x, y) = (if o.hasOpnd then (o.aNum, o.bNum) else (o.dNum, o.aNum)) → s.canIssue o [rp o.dNum, rp x, rp y] →
        exec (mk o) s = retired (mk o) (s.setCx (s.cx.setP o.dNum (f (s.cx.getP x) (s.cx.getP y)))))
    ∧ (s.canIssue o [rp o.dNum, rp o.aNum] → exec (.pnot o) s = retired (.pnot o) (s.setCx (s.cx.setP o.dNum (!s.cx.getP o.aNum))))
    ∧ (∀ (c : Ctx) (b : Bool), c.getP 0 = true ∧ c.setP 0 b = c)
    ∧ (∀ (c : Ctx) (n m : Nat) (b : Bool), 0 < n → n < 8 → m < 8 → (c.setP n b).getP m = if m = n then b else c.getP m))
  ∧ ∀ (o : Ops) (s : State), s.cx.occ = true → s.cx.wait = .none → s.cx.drained = true → s.cx.guard o = true →
    let src := if o.hasOpnd then o.bNum else o.dNum
    (o.imm = 0 → exec (.movp o) s = retired (.movp o) (s.setCx (s.cx.setP o.dNum (s.cx.getP src))))
    ∧ (o.imm = 1 → exec (.movp o) s = retired (.movp o) (s.setCx (s.cx.setG o.dNum (if s.cx.getP src then 1 else 0))))
    ∧ (o.imm = 2 → exec (.movp o) s = retired (.movp o) (s.setCx (s.cx.setP o.dNum (s.cx.getG src != 0))))
    ∧ (o.imm = 3 → ∃ r : Word, exec (.movp o) s = retired (.movp o) (s.setCx (s.cx.setG o.dNum r)) ∧ (∀ i, i < 8 → r.getLsbD i = s.cx.getP i) ∧ r.toNat < 256)
    ∧ (o.imm = 4 → ∃ c : Ctx, exec (.movp o) s = retired (.movp o) (s.setCx c) ∧ c = { s.cx with p := c.p } ∧ ∀ i, 1 ≤ i → i < 8 → c.getP i = (s.cx.getG src).getLsbD i)

/-- R128, R130, R214: LCR reads the value last written to a loop register; LCW writes one: the count at once, a start or end at once while its
level is inactive and held while it is active; an odd start or end traps ALIGN, and bits 55:0 of the value are the address it reports, which is the
model's reading (log 58). SDSET writes the low 32 bits of G[A] or of the immediate to a seed
register; SDGET reads one, zero-extended. -/
def Obligations.LoopAndSeedRegisterMoves : Prop :=
  (∀ (o : Ops) (s : State) (k : Nat), k < 2 →
    let l := s.cx.loop k
    (s.canIssue o [rg o.dNum] →
      (o.aNum = k → exec (.lcr o) s = retired (.lcr o) (s.setCx (s.cx.setG o.dNum l.lc)))
      ∧ (o.aNum = 2 + k → exec (.lcr o) s = retired (.lcr o) (s.setCx (s.cx.setG o.dNum (l.heldLs.getD l.ls))))
      ∧ (o.aNum = 4 + k → exec (.lcr o) s = retired (.lcr o) (s.setCx (s.cx.setG o.dNum (l.heldLe.getD l.le)))))
    ∧ (s.canIssue o (if o.hasImm then [] else [rg o.aNum]) →
        let x := if o.hasImm then wordOf o.imm else s.cx.getG o.aNum
        let y := BitVec.ofNat 64 (x.toNat % 2 ^ 56)
        (o.dNum = k → x ≠ 0 → exec (.lcw o) s = retired (.lcw o) (s.setCx (s.cx.setLoop k { l with lc := x })))
        ∧ (o.dNum = k → x = 0 → exec (.lcw o) s = retired (.lcw o) (s.setCx (s.cx.setLoop k { l with lc := 0 })))
        ∧ (o.dNum = 2 + k → x.getLsbD 0 = false → exec (.lcw o) s = retired (.lcw o) (s.setCx (s.cx.setLoop k (if l.lc = 0 then { l with ls := y, heldLs := none } else { l with heldLs := some y }))))
        ∧ (o.dNum = 4 + k → x.getLsbD 0 = false → exec (.lcw o) s = retired (.lcw o) (s.setCx (s.cx.setLoop k (if l.lc = 0 then { l with le := y, heldLe := none } else { l with heldLe := some y }))))
        ∧ (o.dNum = 2 + k ∨ o.dNum = 4 + k → x.getLsbD 0 = true → exec (.lcw o) s = .next (s.raise { cause := 3, xaddr := y, xinfo := BitVec.ofNat 64 (15 * 4096 + 15 * 256) }))))
  ∧ ∀ (o : Ops) (s : State),
    (s.canIssue o (if o.hasImm then [] else [rg o.aNum]) →
      exec (.sdset o) s = retired (.sdset o) (s.setCx (s.cx.setSd o.dNum (if o.hasImm then BitVec.ofInt 32 o.imm else BitVec.ofNat 32 (s.cx.getG o.aNum).toNat))))
    ∧ (s.canIssue o [rg o.dNum] → exec (.sdget o) s = retired (.sdget o) (s.setCx (s.cx.setG o.dNum (BitVec.ofNat 64 (s.cx.getSd o.aNum).toNat))))

/-- R125, R136, R253: NOP has no effect; YIELD makes its context not ready for 8 issue slots, or until the other occupied contexts of its core
that were ready have issued: the step that issues it keeps of them those that were ready (a choice of the model, log entry 41). TRAP enters the handler with
`xpc` at the next chain and bit 63 of `xinfo` set; BRK with `xpc` at itself and its words in `xinfo` bits 50:48. -/
def Obligations.NopYieldAndSoftwareTraps : Prop :=
  (∀ (o : Ops) (s : State), s.canIssue o [] →
    exec (.nop o) s = retired (.nop o) s
    ∧ exec (.yield o) s = retired (.yield o) (s.setCx { s.cx with yld := some (8, (State.slotsOf s.coreNo).filter (fun k => k != s.cur && (s.ctx k).occ)) }))
  ∧ ∀ (o : Ops) (s : State), s.canIssue o [] → 0 ≤ o.imm → o.imm < 2 ^ 14 →
    exec (.trap o) s = .next (s.raise { cause := 16, xinfo := BitVec.ofNat 64 (2 ^ 63 + o.imm.toNat), xpc := some (s.cx.pc + BitVec.ofNat 64 (2 * (Instr.trap o).words)) })
    ∧ exec (.brk o) s = .next (s.raise { cause := 16, xinfo := BitVec.ofNat 64 ((Instr.brk o).words * 2 ^ 48 + o.imm.toNat) })

/-- R124, R127, R129: a taken BR, RET or JMP with an even target goes there without a loop-back decision, and ends each active level, not suspended,
whose body does not hold the target. That the sum PC + IMM of a BR is cut to bits 55:0 is the model's reading (log 14). -/
def Obligations.BranchesTransfer : Prop :=
  ∀ (i : Instr) (o : Ops) (s : State) (target : Word) (regs : List Nat),
    (i = .br o ∧ target = BitVec.ofNat 64 ((s.cx.pc + wordOf o.imm).toNat % 2 ^ 56) ∧ regs = []) ∨ ((i = .ret o ∨ i = .jmp o) ∧ target = BitVec.ofNat 64 ((s.cx.getG o.aNum).toNat % 2 ^ 56) ∧ regs = [rg o.aNum]) →
    s.canIssue o regs →
    (target.getLsbD 0 = true → exec i s = .next (s.raise { cause := 3, xaddr := target, xinfo := BitVec.ofNat 64 (15 * 4096 + 15 * 256) }))
    ∧ (target.getLsbD 0 = false → ∃ u, exec i s = .next u ∧ u.cx.pc = target ∧ u.cx.sw = o.s
        ∧ (∀ k, k < 2 →
            let l := s.cx.loop k
            let out := l.lc ≠ 0 ∧ s.cx.suspended k = false ∧ (target.toNat < l.ls.toNat ∨ l.le.toNat < target.toNat)
            (u.cx.loop k).lc = (if out then 0 else l.lc) ∧ (u.cx.loop k).ls = l.ls ∧ (u.cx.loop k).le = l.le)
        ∧ sameRegisters s.cx u.cx [] ∧ u.cx.sr = s.cx.sr ∧ sameMemory s u ∧ u.cores = s.cores ∧ sameContexts s u s.cur)

/-- R124, R126, R128: CALL writes the address of the next chain to G[D], its register target read before, and an odd target traps ALIGN; LOOP sets up a level and
enters its body, or passes it by for a count of 0; neither ends a level, and what an inactive level whose end is the LOOP itself holds is discarded. LOOP traps ILL where the levels are in use. Two points are the model's readings: the
sum PC + IMM of a CALL is cut to bits 55:0 (log 14), and a LOOP without OPND takes `g0`, a count of 0 (log 15). -/
def Obligations.CallAndLoop : Prop :=
  ∀ (o : Ops) (s : State),
    (s.canIssue o (if o.hasImm then [rg o.dNum] else [rg o.dNum, rg o.aNum]) →
      let t := BitVec.ofNat 64 ((if o.hasImm then s.cx.pc + wordOf o.imm else s.cx.getG o.aNum).toNat % 2 ^ 56)
      (t.getLsbD 0 = false → exec (.call o) s = jumped (.call o) (s.setCx (s.cx.setG o.dNum (s.cx.pc + BitVec.ofNat 64 (2 * (Instr.call o).words)))) t)
      ∧ (t.getLsbD 0 = true → exec (.call o) s = .next (s.raise { cause := 3, xaddr := t, xinfo := BitVec.ofNat 64 (15 * 4096 + 15 * 256) })))
    ∧ (s.canIssue o [rg o.bNum] →
      let k := o.dNum
      let npc := s.cx.pc + BitVec.ofNat 64 (2 * (Instr.loop o).words)
      let b56 (x : Word) : Word := BitVec.ofNat 64 (x.toNat % 2 ^ 56)
      let le := b56 (npc + wordOf o.imm)
      let n := s.cx.getG o.bNum
      let here := npc - 2
      (s.cx.l0.lc = 0 → (s.cx.l1.lc = 0 ∨ (k = 0 ∧ npc.toNat + o.imm.toNat ≤ s.cx.l1.le.toNat ∧ s.cx.l1.le ≠ here)) →
        ∃ d : Ctx, exec (.loop o) s = jumped (.loop o) (s.setCx (d.setLoop k { lc := n, ls := b56 npc, le })) (if n = 0 then le + 2 else npc) ∧ d = { s.cx with l0 := d.l0, l1 := d.l1 }
          ∧ ∀ j, j < 2 → d.loop j = if (s.cx.loop j).lc = 0 ∧ s.cx.suspended j = false ∧ (s.cx.loop j).le = here then { s.cx.loop j with heldLs := none, heldLe := none } else s.cx.loop j)
      ∧ (s.cx.l0.lc ≠ 0 ∨ (k = 1 ∧ s.cx.l1.lc ≠ 0) ∨ (k = 0 ∧ s.cx.l1.lc ≠ 0 ∧ s.cx.l1.le.toNat < npc.toNat + o.imm.toNat) → exec (.loop o) s = .next (s.raise { cause := 1, xinfo := 7 })))

/-- R15, R107, R135: at a checkpoint and with no result pending, nor one of a BARMX to `g0` (the model's reading, log 25), HALT frees the context slot, its operand slots and accumulators, and its record is no
longer live; HALT.retain keeps them and a named L-memory range for the successor, whose record it pushes on its core's deque, once no commit is in progress
on the word that holds the record's priority (R81, log 25). Without a checkpoint
both trap CKMISS. That the successor's address is bits 55:0 of G[A] is the model's reading (log 62). -/
def Obligations.HaltEndsContext : Prop :=
  ∀ (o : Ops) (s : State),
    (s.canIssue o [] → s.atCheckpoint = true → s.cx.drained = false ∨ s.co.awaitsMx (s.cur % 8) = true → exec (.halt o) s = .next { s with stall := true })
    ∧ (s.canIssue o [] → s.atCheckpoint = true → s.cx.drained = true → s.co.awaitsMx (s.cur % 8) = false →
      ∃ u, exec (.halt o) s = .next u ∧ (u.ctx s.cur).occ = false ∧ (u.dctx s.cx.dc).live = (s.dctx s.cx.dc).live - 1
        ∧ (∀ n, n < 96 → (u.core s.coreNo).own n ≠ .ctx (s.cur % 8)) ∧ (∀ n, n < 32 → ((u.core s.coreNo).acc n).own ≠ .ctx (s.cur % 8))
        ∧ sameMemory s u ∧ sameContexts s u s.cur)
    ∧ (s.canIssue o [rg o.aNum, rg o.bNum] → s.atCheckpoint = true → s.cx.drained = true → s.co.awaitsMx (s.cur % 8) = false → (s.core s.coreNo).deque.length < 256 →
        let rcd := BitVec.ofNat 64 ((s.cx.getG o.aNum).toNat % 2 ^ 56)
        let r := (s.cx.getG o.bNum).toNat
        rcd.toNat % 64 = 0 → fld r 17 15 = 0 → fld r 49 15 = 0 → (fld r 32 17 = 0 ∨ fld r 0 17 + fld r 32 17 ≤ 0x18000) →
        (s.bytesFree s.coreNo s.cx.trans (rcd.toNat + 24) 8 = false → exec (.haltRetain o) s = .next { s with stall := true })
        ∧ (s.bytesFree s.coreNo s.cx.trans (rcd.toNat + 24) 8 = true → ∃ u, exec (.haltRetain o) s = .next u ∧ (u.ctx s.cur).occ = false
          ∧ (u.core s.coreNo).kept = s.co.kept ++ [{ rcd, uid := s.cx.uid, tc := (List.range 32).filterMap (fun n => (vget s.cx.tc n none).map (fun p => (n, p))), lo := fld r 0 17, len := fld r 32 17 }]
          ∧ (∃ e, (u.core s.coreNo).deque = s.co.deque ++ [e] ∧ e.rcd = rcd ∧ e.dc = s.cx.dc)
          ∧ (∀ n, n < 96 → s.co.own n = .ctx (s.cur % 8) → (u.core s.coreNo).own n = .kept rcd)
          ∧ (∀ n, n < 32 → (s.co.acc n).own = .ctx (s.cur % 8) → ((u.core s.coreNo).acc n).own = .kept rcd)))
    ∧ (s.poison = [] → s.canIssue o [] → s.atCheckpoint = false → exec (.halt o) s = .next (s.raise { cause := 10 }))
    ∧ (s.poison = [] → s.canIssue o [rg o.aNum, rg o.bNum] → s.atCheckpoint = false → exec (.haltRetain o) s = .next (s.raise { cause := 10 }))

namespace Sys2Proof.Machine

open Sys2Proof

/-- The loads of R143: registers, bytes of a register, and whether the bytes are sign-extended. -/
def loadTable : List ((Ops → Instr) × (Ops → Nat) × Nat × Bool) := [
  (.ld, groupSize, 8, false), (.ldI8, fun _ => 1, 1, true), (.ldN8, fun _ => 1, 1, false), (.ldI16, fun _ => 1, 2, true),
  (.ldN16, fun _ => 1, 2, false), (.ldI32, fun _ => 1, 4, true), (.ldN32, fun _ => 1, 4, false)]

/-- The stores of R143: registers and bytes. -/
def storeTable : List ((Ops → Instr) × (Ops → Nat) × (Ops → Nat)) := [
  (.st, groupSize, fun o => 8 * groupSize o), (.st8, fun _ => 1, fun _ => 1), (.st16, fun _ => 1, fun _ => 2), (.st32, fun _ => 1, fun _ => 4)]

/-- The atomics of R153 and R154 but for ACAS: the number that the model gives each, and op(old, y) on w-bit values. -/
def atomicTable : List ((Ops → Instr) × Nat × (Nat → Nat → Nat → Nat)) := [
  (.aadd, 0, fun _ x y => x + y), (.aand, 1, fun _ x y => x &&& y), (.aor, 2, fun _ x y => x ||| y), (.axor, 3, fun _ x y => x ^^^ y),
  (.amin, 4, fun w x y => if sgn x w ≤ sgn y w then x else y), (.amax, 5, fun w x y => if sgn x w ≤ sgn y w then y else x),
  (.aminn, 6, fun _ x y => min x y), (.amaxn, 7, fun _ x y => max x y), (.aswp, 8, fun _ _ y => y),
  (.afadd, 10, fun w x y => pack 32 (w / 32) (fun k => (fAdd .f32 RNE (Fmt.f32.decode (lane x 32 k)) (Fmt.f32.decode (lane y 32 k))).1)),
  (.afmax, 11, fun w x y => pack 32 (w / 32) (fun k => (fMinMax .f32 true (Fmt.f32.decode (lane x 32 k)) (Fmt.f32.decode (lane y 32 k))).1))]

/-- The full/empty instructions with their forms and the class default of R147. -/
def feTable : List ((Ops → Instr) × FeForm × Nat) := [
  (.ldw, .ldw, 22), (.ldc, .ldc, 22), (.stf, .stf, 38), (.ste, .ste, 6), (.feget, .feget, 6), (.feset, .feset, 6)]

/-- The fe bit of a word after a full/empty form has been performed on it (R64). -/
def feAfter (form : FeForm) (old : Bool) : Bool := match form with
  | .ldw => true
  | .ldc => false
  | .stf => true
  | .ste => false
  | .feget => old
  | .feset => true

/-- Two runs of bytes have none in common. -/
def apart (a n b m : Nat) : Prop := a + n ≤ b ∨ b + m ≤ a

/-- The records parked on a word, in the order of its bucket's chain (R68, R356). -/
def State.waitersOf (s : State) (pa : Nat) : List Parked :=
  ((s.chain 56 (s.parked.length + 1) (s.bucketAt pa)).filter (fun a => (s.badLine [] (a + 64) 8).isNone && s.rd (a + 64) 8 == pa)).filterMap (fun a => s.parked.find? (fun p => p.slot == a))

/-- A word lies apart from what the park table holds for its bucket: the table's head, the bucket, and the slots of the bucket's chain (R356). -/
def State.tableApart (s : State) (pa : Nat) : Prop :=
  apart pa 8 s.parkBase 4096 ∧ apart pa 8 (s.bucketAt pa) 8 ∧ ∀ a ∈ s.chain 56 (s.parked.length + 1) (s.bucketAt pa), apart pa 8 a 128

/-- The bit of a word goes to `v`, from state s to state t (R69): when that changes it, every record parked on the word leaves the table, in the order of
its chain, for the queues, and the word's wait bit is cleared, where no line is poisoned (R390); when it does not, no record leaves and the wait bit stays. -/
def wakes (s t : State) (pa : Nat) (v : Bool) : Prop :=
  t.fe pa = v ∧ (s.fe pa = v → t.waitBit pa = true ∧ t.wakes = s.wakes ∧ t.parked = s.parked)
  ∧ (s.fe pa ≠ v → s.poison = [] → (∀ q ∈ s.waitersOf pa, s.resident = some q.ctxid) →
      t.waitBit pa = false ∧ t.wakes = s.wakes ++ s.waitersOf pa ∧ t.parked = s.parked.filter (fun q => (s.waitersOf pa).all (fun p => p.slot != q.slot)))

/-- The pier can perform a piece of n bytes at once at physical address `pa`: no earlier access of its core, no barrier result to come, no block busy, no
poison (R81, R145, R278, R390). -/
def State.clearAt (s : State) (pa n : Nat) : Prop :=
  s.still = false ∧ s.co.flight = [] ∧ s.co.awaitsMx (s.cur % 8) = false ∧ s.co.results = [] ∧ s.blockBusy pa n = false ∧ s.wordHeld pa = false ∧ s.badLine [] pa n = none

/-- No byte of [pa, pa + n) is one that a parameter-record map reserves or keeps against stores: reserved bytes and words 3 to 7 of a header (R6, R74, R76). -/
def State.plain (s : State) (pa n : Nat) : Prop :=
  ∀ i, i < n → keptByte s.recordPages (pa + i) = false ∧ readMask s.recordPages (pa + i) = 0xFF ∧ s.headerByte (pa + i) = false

/-- The same whatever those bytes come to hold: the run is no part of a page table that maps a parameter-record page over it. -/
def State.plainFor (s : State) (pa n : Nat) : Prop :=
  ∀ m : Mem, Mem.wf m = true → (∀ x, x < pa ∨ pa + n ≤ x → mget m x = mget s.mem x) → ({ s with mem := m } : State).plain pa n

/-- Neither the core's data cache nor its cluster's cache holds a copy of the line of `pa` (R144, R282). -/
def State.noCopy (s : State) (core pa : Nat) : Prop :=
  (s.core core).dcache.find? (fun e => e.1 == pa / 64) = none ∧ (s.cluster (core / 32)).cache.find? (fun e => e.1 == pa / 64) = none

/-- Every piece of an access but the i-th has been performed, and no two pieces share a byte of it. -/
def Access.lastPiece (a : Access) (i : Nat) : Prop :=
  (∀ (j : Nat) (q : Piece), j ≠ i → a.pieces[j]? = some q → q.done = true)
  ∧ ∀ (j k : Nat) (q r : Piece), j ≠ k → a.pieces[j]? = some q → a.pieces[k]? = some r → q.off + q.n ≤ r.off ∨ r.off + r.n ≤ q.off

end Sys2Proof.Machine

open Sys2Proof Sys2Proof.Machine

/-- R138, R139, R143: a load or store whose checks pass goes on to the next chain, its access under way with the pieces of R141 and its
registers pending; one whose checks do not traps. A store reads its registers at issue. -/
def Obligations.LoadsAndStoresIssue : Prop :=
  ∀ (o : Ops) (s : State),
    (∀ mk w n sg, (mk, w, n, sg) ∈ loadTable → s.canIssue o (grp rg o.dNum (w o) ++ addrRegs o) →
      (∀ es, s.check .load (cutLdSt (effAddr o s.cx) (w o * n)) = .ok es →
        let a : Access := { id := 0, slot := s.cur % 8, kind := .load, ord := ordOf o 6, scope := scopeOf o 6, nc := bit0Of o 6, pieces := es.map pieceOf, dest := loadDest o.dNum (w o) n sg }
        exec (mk o) s = retired (mk o) ((s.setCx (s.cx.marks true a.regs)).startAccess s.coreNo a))
      ∧ ∀ t, s.check .load (cutLdSt (effAddr o s.cx) (w o * n)) = .error t → exec (mk o) s = .next (s.raise t))
    ∧ (∀ mk w n, (mk, w, n) ∈ storeTable → s.canIssue o (grp rg o.dNum (w o) ++ addrRegs o) →
      (∀ es, s.check .store (cutLdSt (effAddr o s.cx) (n o)) = .ok es →
        exec (mk o) s = retired (mk o) (s.startAccess s.coreNo
          { id := 0, slot := s.cur % 8, kind := .store, ord := ordOf o 6, scope := scopeOf o 6, nc := bit0Of o 6, pieces := es.map (fun e => withData (s.cx.getGs o.dNum (w o)) (pieceOf e)) }))
      ∧ ∀ t, s.check .store (cutLdSt (effAddr o s.cx) (n o)) = .error t → exec (mk o) s = .next (s.raise t))

/-- R143, R104, R141, R144: a load of one piece from this device's HBM5 delivers the bytes of memory, extended, to G[D], and writes nothing else; a load into
`g0` discards them. No cache holds a copy, or it is passed by; where the data cache holds the line, the load delivers the bytes of that copy. The last piece
of a load of several, in whatever order they are performed, hands on a result whose bytes are those that each piece has read; a piece in a register window
reads the register. -/
def Obligations.AlignedLoadDelivers : Prop :=
  (∀ mk w n sg, (mk, w, n, sg) ∈ loadTable → ∀ (o : Ops) (s : State) (p : Phys) (x : Nat), w o = 1 → s.canIssue o (grp rg o.dNum 1 ++ addrRegs o) →
    s.check .load (cutLdSt (effAddr o s.cx) n) = .ok [({ off := 0, va := effAddr o s.cx, n }, p)] → p.place = .here → p.pa % 64 + n ≤ 64 → s.clearAt p.pa n →
    ((s.noCopy s.coreNo p.pa ∨ bit0Of o 6 = true ∨ p.c = false) ∧ s.plain p.pa n ∧ x = mread s.mem p.pa n
      ∨ ∃ line, bit0Of o 6 = false ∧ p.c = true ∧ ordOf o 6 = 0 ∧ s.co.dcache.find? (fun e => e.1 == p.pa / 64) = some (p.pa / 64, line) ∧ x = fld line.toNat (8 * (p.pa % 64)) (8 * n)) →
    ∃ t u v, exec (mk o) s = .next t ∧ exec (.pierAccess s.coreNo s.co.nextId 0) t = .next u ∧ exec (.resultWriteback s.coreNo 0) u = .next v
      ∧ v.cx.getG o.dNum = (if o.dNum = 0 then 0 else if sg then sext x (8 * n) else zext x (8 * n))
      ∧ v.cx.pending (rg o.dNum) = false ∧ sameMemory s v ∧ sameRegisters s.cx v.cx [o.dNum] ∧ sameContexts s v s.cur)
  ∧ ∀ (core id i : Nat) (s : State) (a : Access) (p : Piece) (ws : List (Nat × Nat × Nat × Bool)),
    s.still = false → s.findPiece core id i = some (a, p) → a.kind = .load → a.dest = .gregs ws → s.pieceReady core a p = true → s.poisoned a p = none → a.lastPiece i →
    ∀ x, (p.place = .window ∧ x = s.winRead (p.pa - 2 ^ 40) p.n)
        ∨ (p.place = .here ∧ p.pa % 64 + p.n ≤ 64 ∧ (s.noCopy core p.pa ∨ a.nc = true ∨ p.cached = false) ∧ s.plain p.pa p.n ∧ x = mread s.mem p.pa p.n) →
      ∃ t b, exec (.pierAccess core id i) s = .next t
        ∧ (t.core core).results = (s.core core).results ++ [{ slot := a.slot, g := ws.map (fun w => (w.1, if w.2.2.2 then sext (fld b (8 * w.2.1) (8 * w.2.2.1)) (8 * w.2.2.1) else zext (fld b (8 * w.2.1) (8 * w.2.2.1)) (8 * w.2.2.1))) }]
        ∧ fld b (8 * p.off) (8 * p.n) = x % 2 ^ (8 * p.n) ∧ (∀ (j : Nat) (q : Piece), j ≠ i → a.pieces[j]? = some q → fld b (8 * q.off) (8 * q.n) = q.data % 2 ^ (8 * q.n))
        ∧ sameMemory s t ∧ t.ctxs = s.ctxs

/-- R143, R141, R63: a store of one piece to this device's HBM5 puts the low n bytes of its registers there; every other byte, every fe and wait bit,
every parked context and every register stays. Each piece of a store of several writes its own bytes, in a register window the register. A scalar access
is cut into single bytes and aligned pieces of 2, 4, 8 or 16 bytes that make it up without a gap or an overlap. -/
def Obligations.AlignedStoreWrites : Prop :=
  (∀ mk w n, (mk, w, n) ∈ storeTable → ∀ (o : Ops) (s : State) (p : Phys), s.canIssue o (grp rg o.dNum (w o) ++ addrRegs o) →
    s.check .store (cutLdSt (effAddr o s.cx) (n o)) = .ok [({ off := 0, va := effAddr o s.cx, n := n o }, p)] → p.place = .here → s.clearAt p.pa (n o) → s.plain p.pa (n o) → s.memWf = true →
    ∃ t u, exec (mk o) s = .next t ∧ exec (.pierAccess s.coreNo s.co.nextId 0) t = .next u
      ∧ mread u.mem p.pa (n o) = s.cx.getGs o.dNum (w o) % 256 ^ n o
      ∧ (∀ a, a < p.pa ∨ p.pa + n o ≤ a → mget u.mem a = mget s.mem a) ∧ u.rmem = s.rmem
      ∧ (∀ a, u.fe a = s.fe a ∧ u.waitBit a = s.waitBit a) ∧ u.parked = s.parked ∧ u.wakes = s.wakes
      ∧ sameRegisters s.cx u.cx [] ∧ sameContexts s u s.cur)
  ∧ (∀ (core id i : Nat) (s : State) (a : Access) (p : Piece), s.still = false → s.findPiece core id i = some (a, p) → a.kind = .store → s.pieceReady core a p = true → s.poisoned a p = none →
      (p.place = .here → s.plain p.pa p.n → s.memWf = true →
        ∃ t, exec (.pierAccess core id i) s = .next t ∧ mread t.mem p.pa p.n = p.data % 256 ^ p.n ∧ ∀ x, x < p.pa ∨ p.pa + p.n ≤ x → mget t.mem x = mget s.mem x)
      ∧ (p.place = .window → a.ord = 0 → a.pieces = [p] → a.dest = .nowhere →
        exec (.pierAccess core id i) s = .next ((s.winWrite (p.pa - 2 ^ 40) p.n p.data).dropAccess core a.id)))
  ∧ ∀ (va : Int) (n : Nat), n ≤ 16 →
    let ps := cutLdSt va n
    (∀ p ∈ ps, p.va = va + p.off ∧ p.n ∈ [1, 2, 4, 8, 16] ∧ p.va % (p.n : Int) = 0)
    ∧ ∀ i, i < n → ∃ p ∈ ps, p.off ≤ i ∧ i < p.off + p.n ∧ ∀ q ∈ ps, q.off ≤ i → i < q.off + q.n → q = p

/-- R153, R154: an atomic on this device's HBM5 reads the old value and stores op(old, y) in one piece, returns the old value zero-extended to
G[D], and changes no other byte. ACAS stores G[B+1] when the old value is that of G[B] and else writes nothing. -/
def Obligations.AtomicsReadModifyWrite : Prop :=
  ∀ (o : Ops) (s : State) (p : Phys),
    let n := if bit0Of o 6 then 4 else 8
    let ea := fld (s.cx.getG o.aNum).toNat 0 56
    let old := mread s.mem p.pa n
    ea % n = 0 → p.place = .here → s.clearAt p.pa n → s.plain p.pa n → s.memWf = true →
    (∀ mk op f, (mk, op, f) ∈ atomicTable → s.canIssue o [rg o.dNum, rg o.aNum, rg o.bNum] → s.check (.atomic op) [{ off := 0, va := ea, n }] = .ok [({ off := 0, va := ea, n }, p)] →
      ∃ t u v, exec (mk o) s = .next t ∧ exec (.pierAccess s.coreNo s.co.nextId 0) t = .next u ∧ exec (.resultWriteback s.coreNo 0) u = .next v
        ∧ v.cx.getG o.dNum = (if o.dNum = 0 then 0 else BitVec.ofNat 64 old)
        ∧ mread v.mem p.pa n = f (8 * n) old (fld (s.cx.getG o.bNum).toNat 0 (8 * n)) % 256 ^ n
        ∧ (∀ a, a < p.pa ∨ p.pa + n ≤ a → mget v.mem a = mget s.mem a) ∧ sameRegisters s.cx v.cx [o.dNum])
    ∧ (s.canIssue o [rg o.dNum, rg o.aNum, rg o.bNum, rg (o.bNum + 1)] → s.check (.atomic 9) [{ off := 0, va := ea, n }] = .ok [({ off := 0, va := ea, n }, p)] →
      ∃ t u v, exec (.acas o) s = .next t ∧ exec (.pierAccess s.coreNo s.co.nextId 0) t = .next u ∧ exec (.resultWriteback s.coreNo 0) u = .next v
        ∧ v.cx.getG o.dNum = (if o.dNum = 0 then 0 else BitVec.ofNat 64 old)
        ∧ (old = fld (s.cx.getG o.bNum).toNat 0 (8 * n) → mread v.mem p.pa n = fld (s.cx.getG (o.bNum + 1)).toNat 0 (8 * n))
        ∧ (old ≠ fld (s.cx.getG o.bNum).toNat 0 (8 * n) → v.mem = s.mem)
        ∧ (∀ a, a < p.pa ∨ p.pa + n ≤ a → mget v.mem a = mget s.mem a) ∧ sameRegisters s.cx v.cx [o.dNum])

/-- What the memory, full/empty, record and vector memory instructions leave alone as they issue, whatever way they end: memory changes only when a
pier performs their pieces, or by the image of a context that stops at its handler. A converting VLD whose flags may trap ends by writing its own vector
group. -/
def Obligations.MemoryIssueFrame : Prop :=
  (∀ mk : Ops → Instr,
    (∃ w n sg, (mk, w, n, sg) ∈ loadTable) ∨ (∃ w n, (mk, w, n) ∈ storeTable) ∨ (∃ op f, (mk, op, f) ∈ atomicTable) ∨ (∃ f d, (mk, f, d) ∈ feTable)
        ∨ mk ∈ [Instr.acas, .gacc, .garr, .gstat, .pref, .fence, .fencex, .pst2, .ldl, .vst, .vlds, .vsts, .vgth, .vsct] →
      ∀ (o : Ops) (s t : State), exec (mk o) s = .next t →
        memoryStays s t ∧ sameContexts s t s.cur ∧ sameRegisters s.cx t.cx [] ∧ t.devctxs = s.devctxs ∧ t.regs = s.regs ∧ t.parked = s.parked
        ∧ ∀ k, (t.core k).lmem = (s.core k).lmem ∧ (t.core k).ec = (s.core k).ec ∧ (t.core k).deque = (s.core k).deque)
  ∧ ∀ (o : Ops) (s t : State), exec (.vld o) s = .next t →
      memoryStays s t ∧ sameContexts s t s.cur ∧ (∀ n, t.cx.getG n = s.cx.getG n) ∧ t.cx.p = s.cx.p ∧ t.cx.vm = s.cx.vm ∧ t.cx.sd = s.cx.sd
      ∧ ∀ n, n < o.dNum ∨ o.dNum + groupSize o ≤ n → t.cx.getV n = s.cx.getV n

/-- R141, R63, R144: performing a piece changes no byte of memory but those of a storing piece, no fe or wait bit and no register. An atomic's piece
has the length of its operands; a piece in a register window is left out, since it acts on a register. -/
def Obligations.PieceChangesOnlyItsBytes : Prop :=
  ∀ (core id i : Nat) (s t : State) (a : Access) (p : Piece), s.memWf = true → s.findPiece core id i = some (a, p) → p.place ≠ .window →
    (∀ op n y c, a.kind = .atomic op n y c → n = p.n) → exec (.pierAccess core id i) s = .next t →
      (∀ x, a.kind.stores = false ∨ (p.place ≠ .here ∧ p.place ≠ .host) ∨ x < p.pa ∨ p.pa + p.n ≤ x → mget t.mem x = mget s.mem x)
      ∧ (∀ x, t.fe x = s.fe x ∧ t.waitBit x = s.waitBit x) ∧ t.parked = s.parked ∧ t.wakes = s.wakes
      ∧ ∀ k, sameRegisters (s.ctx k) (t.ctx k) []

/-- R139, R146, R104: LDL leaves its registers pending and delivers the words of L-memory at ea; STL stores its registers there and changes no other
byte of any memory. Both wait while a copy into the range is under way (R22). A misaligned address traps ALIGN, a byte outside L-memory PROT, and so does
an STL into a range retained for another context's successor, with the first such byte. -/
def Obligations.LocalMemoryMoves : Prop :=
  ∀ (o : Ops) (s : State),
    let w := groupSize o
    let ea := effLocal o s.cx
    s.canIssue o (grp rg o.dNum w ++ addrRegs o) →
    (0 ≤ ea → ea % (8 * w : Nat) = 0 → ea + (8 * w : Nat) ≤ 0x18000 →
      let held (i : Nat) : Bool := s.co.retained (ea.toNat + i) (ea.toNat + i + 1)
      (s.co.busy 2 ea.toNat (ea.toNat + 8 * w) = true → exec (.ldl o) s = .next { s with stall := true } ∧ ((∀ i, i < 8 * w → held i = false) → exec (.stl o) s = .next { s with stall := true }))
      ∧ (∀ j, j < 8 * w → held j = true → (∀ i, i < j → held i = false) →
        exec (.stl o) s = .next (s.raise { cause := 5, xaddr := BitVec.ofNat 64 (ea.toNat + j), xinfo := BitVec.ofNat 64 (15 * 4096 + 9 * 256 + 5) })))
    ∧ (0 ≤ ea → ea % (8 * w : Nat) = 0 → ea + (8 * w : Nat) ≤ 0x18000 → s.co.busy 2 ea.toNat (ea.toNat + 8 * w) = false →
      (s.still = false → s.co.results = [] → ∃ t u, exec (.ldl o) s = .next t ∧ exec (.resultWriteback s.coreNo 0) t = .next u
        ∧ (∀ i, i < w → t.cx.pending (rg (o.dNum + i)) = decide (o.dNum + i ≠ 0))
        ∧ (∀ i, i < w → o.dNum + i ≠ 0 → o.dNum + i < 64 → u.cx.getG (o.dNum + i) = BitVec.ofNat 64 (mread s.co.lmem (ea.toNat + 8 * i) 8))
        ∧ sameMemory s u ∧ u.co.lmem = s.co.lmem ∧ sameRegisters s.cx u.cx ((List.range w).map (o.dNum + ·)))
      ∧ ((∀ i, i < 8 * w → s.co.retained (ea.toNat + i) (ea.toNat + i + 1) = false) → Mem.wf s.co.lmem = true →
        ∃ t, exec (.stl o) s = .next t ∧ mread t.co.lmem ea.toNat (8 * w) = s.cx.getGs o.dNum w
          ∧ (∀ a, a < ea.toNat ∨ ea.toNat + 8 * w ≤ a → mget t.co.lmem a = mget s.co.lmem a)
          ∧ sameMemory s t ∧ sameRegisters s.cx t.cx [] ∧ sameContexts s t s.cur))
    ∧ (ea % (8 * w : Nat) ≠ 0 → ∀ i ∈ [Instr.ldl o, .stl o], exec i s = .next (s.raise { cause := 3, xaddr := BitVec.ofInt 64 ea, xinfo := BitVec.ofNat 64 (15 * 4096 + 9 * 256) }))
    ∧ (ea % (8 * w : Nat) = 0 → ea < 0 → ∀ i ∈ [Instr.ldl o, .stl o], exec i s = .next (s.raise { cause := 5, xaddr := BitVec.ofInt 64 ea, xinfo := BitVec.ofNat 64 (15 * 4096 + 9 * 256 + 4) }))
    ∧ (ea % (8 * w : Nat) = 0 → 0x18000 < ea + (8 * w : Nat) → 0 ≤ ea → ∀ i ∈ [Instr.ldl o, .stl o], exec i s = .next (s.raise { cause := 5, xaddr := BitVec.ofNat 64 (max ea.toNat 0x18000), xinfo := BitVec.ofNat 64 (15 * 4096 + 9 * 256 + 4) }))

/-- R64, R69, R147: each full/empty form, its checks passed and its condition true, is performed on its word in one evaluation: what it returns, the bit it
leaves, the data it stores; the context goes on to the next chain. With no waiter on the word every other byte stays; with records parked on it, a form
that changes the bit sends them to their queues in the order of their chain and clears the wait bit, and one that does not change it wakes none. -/
def Obligations.FullEmptyFormsPerform : Prop :=
  (∀ (core id : Nat) (s : State) (a : Access) (p : Piece) (form : FeForm), s.still = false → s.findPiece core id 0 = some (a, p) → a.kind = .fe form → s.evaluating core a = true →
    s.pieceReady core a p = true → s.feHeld form p.pa = false → s.poisoned a p = none → s.feHolds form p.pa = true → p.place = .here → p.pa % 8 = 0 → s.plain p.pa 8 → s.waitBit p.pa = true →
    s.memWf = true → s.tableApart p.pa → ∃ t, exec (.feEvaluation core id) s = .next t ∧ wakes s t p.pa (feAfter form (s.fe p.pa)))
  ∧ ∀ mk form dflt, (mk, form, dflt) ∈ feTable → ∀ (o : Ops) (s : State) (p : Phys), s.canIssue o (rg o.dNum :: addrRegs o) →
    (form ∈ [FeForm.ldw, .ldc, .stf] → s.atCheckpoint = true) → effAddr o s.cx % 8 = 0 →
    s.check form.kind [{ off := 0, va := effAddr o s.cx, n := 8 }] = .ok [({ off := 0, va := effAddr o s.cx, n := 8 }, p)] → p.place = .here →
    s.clearAt p.pa 8 → s.plain p.pa 8 → s.memWf = true → s.waitBit p.pa = false →
    (form = .ldw ∨ form = .ldc → s.fe p.pa = true) → (form = .stf → s.fe p.pa = false) →
    ∃ t u v, exec (mk o) s = .next t ∧ exec (.feEvaluation s.coreNo s.co.nextId) t = .next u ∧ exec (.resultWriteback s.coreNo 0) u = .next v
      ∧ v.cx.pc = (s.cx.retire (mk o) o.s).pc ∧ v.cx.wait = .none ∧ v.fe p.pa = feAfter form (s.fe p.pa)
      ∧ (∀ a, a / 8 ≠ p.pa / 8 → v.fe a = s.fe a) ∧ (∀ a, v.waitBit a = s.waitBit a)
      ∧ (form = .ldw ∨ form = .ldc → o.dNum ≠ 0 → v.cx.getG o.dNum = BitVec.ofNat 64 (mread s.mem p.pa 8))
      ∧ (form = .feget → o.dNum ≠ 0 → v.cx.getG o.dNum = if s.fe p.pa then 1 else 0)
      ∧ (form = .stf ∨ form = .ste → mread v.mem p.pa 8 = (s.cx.getG o.dNum).toNat)
      ∧ (∀ a, form ∉ [FeForm.stf, .ste] ∨ a < p.pa ∨ p.pa + 8 ≤ a → mget v.mem a = mget s.mem a)
      ∧ sameRegisters s.cx v.cx (if form ∈ [FeForm.ldw, .ldc, .feget] then [o.dNum] else [])

/-- R65 to R69, R275, R347, R357: an evaluation has read its word at the home, so its core's copy of the line goes (the model's choice, log 10); one whose condition fails backs off for min(2^j, 64) ticks while the count j is below the budget; then the context
asks to be parked, or traps FEBUDGET with reason 1 when it may not park. The end of a back-off sends evaluation j + 1. A park request whose save succeeds, whose page takes the
count and whose condition still fails links the record at the word: the slot is empty, the wait bit set. That the record is enqueued later under the address
where its context left it is the model's choice (log 88), and so is the aligned word of an unaligned physical address (log 97). No line is poisoned here. A change of the word's bit unlinks the record, takes its page's count
down by 1 and returns its slot to the pool, or, when its device context is not resident, puts it on that one's wake list. An unlinked record reaches the tail of its level in its
cluster's queue once those before it on its word have. -/
def Obligations.FailedEvaluationsBackOffAndPark : Prop :=
  (∀ (core slot id j : Nat) (s : State) (a : Access) (p : Piece) (form : FeForm),
    let k := 8 * core + slot
    let c := s.ctx k
    let f := s.forget core p.place p.pa 8
    s.still = false → s.findPiece core id 0 = some (a, p) → a.kind = .fe form → form ∈ [FeForm.ldw, .ldc, .stf] → a.slot = slot → (s.dctx c.dc).aborting = false →
    (c.wait = .fe id j .evaluating → s.pieceReady core a p = true → s.feHeld form p.pa = false → s.poisoned a p = none →
      s.fe p.pa = (form == .stf) → c.preempt = false →
      (j < c.budget → exec (.feEvaluation core id) s = .next (f.setCtx k { c with wait := .fe id j (.backoff (s.tick + min (2 ^ j) 64)) }))
      ∧ (c.budget ≤ j → c.parkEnable = true → exec (.feEvaluation core id) s = .next (f.setCtx k { c with wait := .fe id j .parking }))
      ∧ (c.budget ≤ j → c.parkEnable = false → exec (.feEvaluation core id) s = .next ((f.dropAccess core id).trapCtx k { cause := 7, xaddr := p.va, xinfo := 1 })))
    ∧ (∀ till, c.wait = .fe id j (.backoff till) → s.tick < till → exec (.feBackoffExpiry core slot) s = .next s)
    ∧ (∀ till q, c.wait = .fe id j (.backoff till) → till ≤ s.tick →
        s.checkAccess core c.trans (s.core core).capSuspended form.kind [{ off := 0, va := p.va.toNat, n := 8 }] = .ok [({ off := 0, va := p.va.toNat, n := 8 }, q)] →
        ∃ t, exec (.feBackoffExpiry core slot) s = .next t ∧ (t.ctx k).wait = .fe id (j + 1) .evaluating ∧ sameMemory s t ∧ sameContexts s t k ∧ sameRegisters c (t.ctx k) []))
  ∧ (∀ (core slot id j ckid : Nat) (s s1 s2 : State) (a : Access) (p : Piece) (form : FeForm),
    let k := 8 * core + slot
    slot < 8 → s.still = false → (s.dctx (s.ctx k).dc).aborting = false → (s.ctx k).wait = .fe id j .parking → s.findPiece core id 0 = some (a, p) → a.kind = .fe form → s.checkpoint core (s.ctx k) (s.ctx k).pc = some ckid →
    (s.dropAccess core id).leaveReady k (s.entryWords core (s.ctx k) ckid) = true → s.pieceReady core a p = true → s.feHeld form p.pa = false →
    s.saveContext k ckid = .ok s1 → s1.wcntUp a.leaf = .ok s2 → s2.feHolds form p.pa = false → s2.rd (s2.parkBase + 8) 8 ≠ 0 → s.poison = [] → (s.ctx k).ecc = none →
    ∃ t q, exec (.parkRequest core slot) s = .next t ∧ (t.ctx k).occ = false ∧ t.waitBit p.pa = true ∧ t.parked = s2.parked ++ [q]
      ∧ q.word = p.pa / 8 * 8 ∧ q.slot = s2.rd (s2.parkBase + 8) 8 ∧ q.ent.rcd = (s2.ctx k).rcd ∧ q.cluster = core / 32)
  ∧ (∀ (pa : Nat) (v : Bool) (s : State) (q : Parked),
    let b := s.bucketAt pa
    let list := s.parkBase + 64 + 16 * q.ctxid
    s.memWf = true → s.poison = [] → pa % 8 = 0 → s.waitBit pa = true → s.fe pa ≠ v → s.rd b 8 = q.slot → q.slot ≠ 0 → s.rd (q.slot + 56) 8 = 0 → s.rd (q.slot + 64) 8 = pa → q ∈ s.parked →
    (∀ x ∈ s.parked, x.slot = q.slot → x = q) → q.ctxid < 64 → q.leaf ≠ 0 → 1 ≤ s.rd (q.leaf + 7) 1 →
    apart b 8 s.parkBase 4096 → apart b 8 q.slot 128 → apart b 8 q.leaf 8 → apart s.parkBase 4096 q.slot 128 → apart s.parkBase 4096 q.leaf 8 → apart q.slot 128 q.leaf 8 →
    let t := s.setFe pa v
    t.fe pa = v ∧ t.waitBit pa = false ∧ t.rd b 8 = 0 ∧ t.rd (q.leaf + 7) 1 = s.rd (q.leaf + 7) 1 - 1
    ∧ (s.resident = some q.ctxid → t.wakes = s.wakes ++ [q] ∧ (∀ x, x ∈ t.parked ↔ x ∈ s.parked ∧ x ≠ q) ∧ t.rd (s.parkBase + 8) 8 = q.slot ∧ t.rd (q.slot + 88) 8 = s.rd (s.parkBase + 8) 8)
    ∧ (s.resident ≠ some q.ctxid → s.rd list 8 = 0 → t.rd list 8 = q.slot ∧ t.rd (list + 8) 8 = q.slot ∧ t.wakes = s.wakes ∧ t.parked = s.parked))
  ∧ ∀ (n : Nat) (s : State) (p : Parked), s.still = false → s.wakes[n]? = some p → (∀ q ∈ s.wakes.take n, q.word ≠ p.word) → p.ent.prio < 4 →
    ∃ t, exec (.wakeEnqueue n) s = .next t ∧ t.wakes = s.wakes.eraseIdx n
      ∧ vget (t.cluster p.cluster).queues p.ent.prio [] = vget (s.cluster p.cluster).queues p.ent.prio [] ++ [{ p.ent with tick := s.tick }]

/-- R145, R150, R151, R152: PREF changes no architectural state and never traps. A FENCE waits, at every scope, for the earlier accesses that it orders: an
acquire for those that read, every other kind for all; then it goes on with its acquire actions, which a release has none of. That a release at `grp` or
`core` scope waits for their performance too is the model's reading (logs 25 and 75). FENCEX empties the data cache unless it writes back only. -/
def Obligations.PrefetchAndFences : Prop :=
  ∀ (o : Ops) (s : State),
    (s.canIssue o (addrRegs o) → ∃ t, exec (.pref o) s = retired (.pref o) t ∧ sameMemory s t ∧ t.ctxs = s.ctxs ∧ t.devctxs = s.devctxs ∧ t.cur = s.cur
      ∧ (∀ k, t.core k = { s.core k with dcache := (t.core k).dcache }) ∧ ∀ n, t.cluster n = { s.cluster n with cache := (t.cluster n).cache })
    ∧ (s.canIssue o [] → s.performedAll s.coreNo (s.cur % 8) = true →
        ∃ t, exec (.fence o) s = retired (.fence o) t ∧ sameMemory s t ∧ t.ctxs = s.ctxs ∧ t.cur = s.cur
          ∧ (ordOf o 6 ≠ 2 → 2 ≤ scopeOf o 6 → t.co.dcache = []) ∧ (ordOf o 6 = 2 → t.clusters = s.clusters ∧ ∀ k, t.core k = s.core k))
    ∧ (s.canIssue o [] → ordOf o 6 = 1 → (∀ a ∈ s.co.flight, a.slot = s.cur % 8 → a.kind.reads = false) →
        ∃ t, exec (.fence o) s = retired (.fence o) t ∧ sameMemory s t ∧ t.ctxs = s.ctxs ∧ t.co.flight = s.co.flight ∧ (2 ≤ scopeOf o 6 → t.co.dcache = []))
    ∧ (∀ a ∈ s.co.flight, s.canIssue o [] → a.slot = s.cur % 8 → (ordOf o 6 ≠ 1 ∨ a.kind.reads = true) → exec (.fence o) s = .next { s with stall := true })
    ∧ (s.canIssue o [] → s.performedAll s.coreNo (s.cur % 8) = true →
        exec (.fencex o) s = retired (.fencex o) (if fld (o.clsOr 48) 4 2 = 1 then s else s.setCo { s.co with dcache := [] }))

/-- R85, R87, R149: PST2 holds its context while its job empties the words in address order, writes the first operand and then the second, and fills
the words; then the context goes on. Its words are the aligned ones that hold the first bytes (the model's choice where a physical address is unaligned, log 97). -/
def Obligations.Pst2RunsItsJob : Prop :=
  (∀ (o : Ops) (s : State) (p q : Phys),
    let a := fld (s.cx.getG o.aNum).toNat 0 56
    let b := fld (s.cx.getG o.bNum).toNat 0 56
    s.canIssue o [rg o.aNum, rg o.bNum, rg o.dNum, rg (o.dNum + 1)] → a % 8 = 0 → b % 8 = 0 → s.releaseReady s.coreNo (s.cur % 8) = true →
    s.check .feRmw [{ off := 0, va := a, n := 8 }, { off := 8, va := b, n := 8 }] = .ok [({ off := 0, va := a, n := 8 }, p), ({ off := 8, va := b, n := 8 }, q)] →
    let x := p.pa / 8 * 8
    let y := q.pa / 8 * 8
    exec (.pst2 o) s = waits (.pst2 o) (.pst2 s.nextJob)
      { s with
        jobs := tset s.jobs s.nextJob
          { kind := .pst2 s.coreNo (s.cur % 8) [(p.pa, (s.cx.getG o.dNum).toNat), (q.pa, (s.cx.getG (o.dNum + 1)).toNat)],
            words := if x = y then [x] else if x < y then [x, y] else [y, x], dc := s.cx.dc }
        nextJob := s.nextJob + 1 })
  ∧ (∀ (job : Nat) (s : State) (j : Job) (w : Nat), s.still = false → thas s.jobs job = true → tget s.jobs job { kind := .commit 0 0, words := [] } = j → j.stage = 0 →
      j.words[j.emptied]? = some w → s.fe w = true → s.heldByOther job w = false →
      ∃ t, exec (.workingCopyEmpty job) s = .next t ∧ t.fe w = false ∧ tget t.jobs job { kind := .commit 0 0, words := [] } = { j with emptied := j.emptied + 1 })
  ∧ (∀ (job core slot x y u v : Nat) (s : State) (j : Job), s.still = false → s.memWf = true → thas s.jobs job = true → tget s.jobs job { kind := .commit 0 0, words := [] } = j →
      j.kind = .pst2 core slot [(x, u), (y, v)] → j.stage = 0 → j.emptied = j.words.length → (x = y ∨ x + 8 ≤ y ∨ y + 8 ≤ x) → s.plain x 8 → s.plain y 8 →
      ∃ t, exec (.pst2Writes job) s = .next t ∧ mread t.mem y 8 = v % 2 ^ 64 ∧ (x ≠ y → mread t.mem x 8 = u % 2 ^ 64)
        ∧ (∀ a, (a < x ∨ x + 8 ≤ a) → (a < y ∨ y + 8 ≤ a) → mget t.mem a = mget s.mem a))
  ∧ ∀ (job core slot : Nat) (ws : List (Nat × Nat)) (s : State) (j : Job) (i : Instr), s.still = false → thas s.jobs job = true →
      tget s.jobs job { kind := .commit 0 0, words := [] } = j → j.kind = .pst2 core slot ws → j.stage = 1 → (s.ctx (8 * core + slot)).held = some i →
      ∃ t, exec (.pst2Fills job) s = .next t ∧ (∀ w ∈ j.words, t.fe w = true) ∧ (t.ctx (8 * core + slot)).wait = .none ∧ (t.ctx (8 * core + slot)).held = none

/-- R76 to R81, R156 to R159: the record instructions. GACC sends its lanes and goes on; GARR waits for its arrival; GSTAT delivers the header, its
reserved bits as 0, in bits 511:0 and zeros above; GARM writes the configuration, clears the round's counts and sums and changes no other byte. -/
def Obligations.RecordInstructionsRun : Prop :=
  ∀ (o : Ops) (s : State) (p : Phys) (hdr : Nat),
    let va := fld (s.cx.getG o.aNum).toNat 0 56
    s.recordBlock va = .ok (p, hdr) →
    (s.canIssue o [rg o.aNum, rv o.bNum, rm o.dNum] →
      exec (.gacc o) s = retired (.gacc o) (s.startAccess s.coreNo { id := 0, slot := s.cur % 8, hdr, pieces := [blockPiece va p 512], kind := .gacc ((List.range 16).map (fun j =>
        if (s.cx.getVm o.dNum).getLsbD j then some (lane (s.cx.getV o.bNum).toNat 32 j) else none)) }))
    ∧ (s.canIssue o [rg o.aNum] → s.releaseReady s.coreNo (s.cur % 8) = true →
        exec (.garr o) s = waits (.garr o) (.access s.co.nextId) (s.startAccess s.coreNo { id := 0, slot := s.cur % 8, hdr, kind := .garr, ord := 2, pieces := [blockPiece va p 512] }))
    ∧ (s.canIssue o [rg o.aNum, rv o.dNum] → s.clearAt p.pa 128 →
        ∃ t u v, exec (.gstat o) s = .next t ∧ exec (.pierAccess s.coreNo s.co.nextId 0) t = .next u ∧ exec (.resultWriteback s.coreNo 0) u = .next v
          ∧ (v.cx.getV o.dNum).toNat = s.readHome .here hdr 64 ∧ (∀ i, i < 64 → lane (s.readHome .here hdr 64) 8 i = (mget s.mem (hdr + i)).toNat &&& readMask s.recordPages (hdr + i)) ∧ sameMemory s v ∧ (∀ n, v.cx.getG n = s.cx.getG n) ∧ ∀ n, n ≠ o.dNum → v.cx.getV n = s.cx.getV n)
    ∧ (s.canIssue o [rg o.aNum, rg o.bNum] → s.blockBusy p.pa 512 = false → s.releaseReady s.coreNo (s.cur % 8) = true →
        s.memWf = true → (hdr + 64 ≤ p.pa ∨ p.pa + 512 ≤ hdr) →
        s.rd hdr 8 % 2 = 0 → s.rd (hdr + 8) 8 % 2 = 0 → s.rd (hdr + 16) 4 % 2 = 0 → s.rd (hdr + 20) 4 % 2 = 0 →
        (s.spanBase (fld (s.rd hdr 8) 0 56) (s.rd (hdr + 16) 4)).isSome = true → (s.spanBase (fld (s.rd (hdr + 8) 8) 0 56) (s.rd (hdr + 20) 4)).isSome = true →
        let cfg := (s.cx.getG o.bNum).toNat
        ∃ t, exec (.garm o) s = .next t
          ∧ mread t.mem (hdr + 24) 8 = fld cfg 0 16 * 2 ^ 16 + fld cfg 16 8 * 2 ^ 32 + fld cfg 24 4 * 2 ^ 40 + (if fld cfg 0 16 = 0 then 0 else 2 ^ 48)
          ∧ mread t.mem (hdr + 32) 8 = (if bitOf cfg 28 then 0 else mread s.mem (hdr + 32) 4)
          ∧ (∀ i, i < 24 → mget t.mem (hdr + 40 + i) = 0) ∧ (∀ i, i < 256 → mget t.mem (p.pa + 192 + i) = 0)
          ∧ (∀ a, (a < hdr + 24 ∨ hdr + 64 ≤ a) → (a < p.pa + 192 ∨ p.pa + 448 ≤ a) → mget t.mem a = mget s.mem a)
          ∧ sameRegisters s.cx t.cx [] ∧ sameContexts s t s.cur)

/-- R78, R80: a GACC at its pier counts once and adds each lane, on the grid 2^(e − 96), to its sum modulo 2^128; an arrival counts, frees its context,
and the last one of the round makes the block BUSY. On a block that is not armed it traps PRSPACE. -/
def Obligations.RecordAccessesPerform : Prop :=
  (∀ (e : Int) (g x m : Nat) (neg : Bool) (ex : Int), Fmt.f32.decode x = .fin neg m ex → e - 96 ≤ ex → m * 2 ^ (ex + 96 - e).toNat < 2 ^ 111 →
    gaccLane e g x = (wrap (sgn g 128 + (if neg then -((m * 2 ^ (ex + 96 - e).toNat : Nat) : Int) else (m * 2 ^ (ex + 96 - e).toNat : Nat))) 128, false, false))
  ∧ (∀ (core id : Nat) (s : State) (a : Access) (p : Piece) (lanes : List (Option Nat)),
    s.still = false → s.memWf = true → s.findPiece core id 0 = some (a, p) → a.kind = .gacc lanes → s.pieceReady core a p = true → s.poisoned a p = none →
    (a.hdr + 64 ≤ p.pa ∨ p.pa + 512 ≤ a.hdr) → s.hdrGet a.hdr 294 16 < 65535 →
    ∃ t, exec (.gaccPerform core id) s = .next t ∧ t.hdrGet a.hdr 294 16 = s.hdrGet a.hdr 294 16 + 1
      ∧ (∀ j x, j < 16 → lanes[j]? = some (some x) → mread t.mem (p.pa + 192 + 16 * j) 16 = (gaccLane (s.hdrExp a.hdr) (mread s.mem (p.pa + 192 + 16 * j) 16) x).1 % 2 ^ 128)
      ∧ (∀ j, j < 16 → lanes[j]? = some none → mread t.mem (p.pa + 192 + 16 * j) 16 = mread s.mem (p.pa + 192 + 16 * j) 16)
      ∧ (∀ i, i < 192 → mget t.mem (p.pa + i) = mget s.mem (p.pa + i)))
  ∧ ∀ (core id : Nat) (s : State) (a : Access) (p : Piece) (i : Instr),
    let k := 8 * core + a.slot
    s.still = false → s.memWf = true → s.findPiece core id 0 = some (a, p) → a.kind = .garr → s.pieceReady core a p = true → s.poisoned a p = none → p.pa % 512 = 0 →
    (s.hdrGet a.hdr 240 1 = 0 → exec (.arrival core id) s = .next ((s.dropAccess core id).trapCtx k { cause := 9, xaddr := BitVec.ofNat 64 p.va.toNat, xinfo := 2 }))
    ∧ (s.hdrGet a.hdr 240 1 = 1 → (s.ctx k).held = some i →
        let n := (s.hdrGet a.hdr 192 16 + 1) % 65536
        ∃ t, exec (.arrival core id) s = .next t ∧ t.hdrGet a.hdr 192 16 = n ∧ (t.ctx k).wait = .none ∧ (t.ctx k).pc = ((s.ctx k).retire i (Instr.marker i)).pc
          ∧ (n = s.hdrGet a.hdr 208 16 → t.blockBusy p.pa 512 = true ∧ t.hdrGet a.hdr 236 1 = 1))

/-- R84, R85: the later steps of a commit: the writes change no fe bit, the fills make every working-copy word full, the end clears the round, counts a
rule that was run, and frees the block. A write of the device's own that has waited for the block is made then, and keeps waiting for another one; that it waits
is the model's reading (log 25). -/
def Obligations.CommitStepsRun : Prop :=
  ∀ (job pa hdr : Nat) (s : State) (j : Job), s.still = false → s.memWf = true → thas s.jobs job = true → tget s.jobs job { kind := .commit 0 0, words := [] } = j → j.kind = .commit pa hdr →
    (j.stage = 0 → j.emptied = j.words.length →
      ∃ t, exec (.commitWrites job) s = .next t ∧ tget t.jobs job { kind := .commit 0 0, words := [] } = { j with stage := 1 } ∧ (∀ a, t.fe a = s.fe a ∧ t.waitBit a = s.waitBit a) ∧ t.ctxs = s.ctxs)
    ∧ (j.stage = 1 → ∃ t, exec (.commitFills job) s = .next t ∧ tget t.jobs job { kind := .commit 0 0, words := [] } = { j with stage := 2 } ∧ (∀ w ∈ j.words, t.fe w = true) ∧ t.ctxs = s.ctxs)
    ∧ (j.stage = 2 → (hdr + 64 ≤ pa ∨ pa + 512 ≤ hdr) → ∀ x n v, s.late = [(x, n, v)] →
      ∃ t, exec (.commitEnd job) s = .next t ∧ t.jobs = tdel s.jobs job ∧ (t.blockBusy x n = true → t.late = s.late) ∧ (t.blockBusy x n = false → t.late = [] ∧ mread t.mem x n = v % 256 ^ n))
    ∧ (j.stage = 2 → (hdr + 64 ≤ pa ∨ pa + 512 ≤ hdr) → s.late = [] →
      ∃ t, exec (.commitEnd job) s = .next t ∧ t.jobs = tdel s.jobs job ∧ (∀ i, i < 256 → mget t.mem (pa + 192 + i) = 0) ∧ (∀ i, i < 192 → mget t.mem (pa + i) = mget s.mem (pa + i))
        ∧ t.hdrGet hdr 192 16 = 0 ∧ t.hdrGet hdr 294 16 = 0 ∧ t.hdrGet hdr 237 2 = 0 ∧ t.hdrGet hdr 236 1 = 0
        ∧ t.hdrGet hdr 256 32 = (if s.hdrGet hdr 239 1 = 0 then (s.hdrGet hdr 256 32 + 1) % 2 ^ 32 else s.hdrGet hdr 256 32) ∧ t.hdrGet hdr 208 16 = s.hdrGet hdr 208 16)

/-- R162, R167 to R171: a vector access to device memory whose checks pass. A load, strided load or gather leaves its group pending and goes on; a
converting load delivers FP32 lanes, its masked-off units keeping theirs, and one that may raise an enabled flag waits for its bytes and then writes its lanes or traps FPX; a
store is under way with its registers' bytes, a scatter's overlapping elements carrying those of the higher lane. With every unit inactive and a relaxed
order nothing is accessed, and a load's group is pending for the values that it has. Two points are the model's readings: an element of a dual-exponent block of
2^128 or more is rounded, and the load waits for its flags (log 76), and a converting store takes the flags of its active lanes alone (log 77). -/
def Obligations.VectorMemoryAccesses : Prop :=
  (∀ (o : Ops) (s : State),
    let c := s.cx
    let w := groupSize o
    let v := vaddr o c
    let acc (kind : AccKind) (ps : List Piece) (dest : Dest) : Access := { id := 0, slot := s.cur % 8, kind, ord := ordOf o 6, scope := scopeOf o 6, nc := bit0Of o 6, pieces := ps, dest }
    (s.canIssueV o 1 (grp rv o.dNum w ++ addrRegs o) → noUnit c o = false →
      (v.trap w 1 = none → ∀ es, s.check (.vload (decide (v.fmt ≤ 1))) (v.parts c o w) = .ok es →
        let precise := converts v.fmt v.c = true ∧ (c.sr.xenable.getLsbD 2 = true ∨ c.sr.xenable.getLsbD 4 = true ∨ (v.fmt = 5 ∧ c.sr.xenable.getLsbD 0 = true))
        let a := acc .load (es.map pieceOf) (vldDest c o v w)
        (precise → exec (.vld o) s = waits (.vld o) (.access s.co.nextId) ((s.setCx (c.marks true (grp rv o.dNum w))).startAccess s.coreNo a))
        ∧ (¬ precise → exec (.vld o) s = retired (.vld o) ((s.setCx (c.marks true (grp rv o.dNum w))).startAccess s.coreNo a)))
      ∧ (v.trap w 2 = none → ∀ es, s.check (.vstore (decide (v.fmt ≤ 1))) (v.parts c o w) = .ok es →
        let r := if converts v.fmt v.c then convBytes c o v w (c.getVs o.dNum w) else (c.getVs o.dNum w, 0)
        exec (.vst o) s = if c.traps r.2 then .next (s.raise (fpx r.2))
          else retired (.vst o) ((s.setCx (c.addFlags r.2)).startAccess s.coreNo (acc .store (es.map (fun e => withData r.1 (pieceOf e))) .nowhere))))
    ∧ (∀ id a, c.occ = true → c.wait = .access id → s.waited = some a → a.complete = true →
        let r := convLanes (unitOn c o) v.fmt v.c w (a.bytes 0) (c.getVs o.dNum w)
        let d := c.marks false (grp rv o.dNum w)
        (c.traps r.2 = false → exec (.vld o) s = retired (.vld o) ((s.dropAccess s.coreNo a.id).setCx ((d.setVs o.dNum w r.1).addFlags r.2)))
        ∧ (c.traps r.2 = true → exec (.vld o) s = .next (((s.dropAccess s.coreNo a.id).setCx d).raise { cause := 12, xinfo := BitVec.ofNat 64 r.2 })))
    ∧ (∀ (ld st : Ops → Instr) (breg : Nat) (off : Nat → Int),
        (ld = Instr.vlds ∧ st = Instr.vsts ∧ breg = rg o.bNum ∧ off = fun (k : Nat) => (k : Int) * (c.getG o.bNum).toInt)
          ∨ (ld = Instr.vgth ∧ st = Instr.vsct ∧ breg = rv o.bNum ∧ off = fun (k : Nat) => sgn (lane (c.getV o.bNum).toNat 32 k) 32) →
        s.canIssueV o 1 (grp rv o.dNum w ++ [rg o.aNum, breg]) → fld (c.getG o.aNum).toNat 56 8 = 0 →
        (noUnit c o = false →
          (∀ es, s.check (.gather true (4 * w)) (elemParts c o (c.getG o.aNum).toNat (4 * w) off) = .ok es →
            exec (ld o) s = retired (ld o) ((s.setCx (c.marks true (grp rv o.dNum w))).startAccess s.coreNo (acc .load (es.map pieceOf) (.vregs o.dNum w))))
          ∧ (∀ es, s.check (.scatter true (4 * w)) (elemParts c o (c.getG o.aNum).toNat (4 * w) off) = .ok es →
            exec (st o) s = retired (st o) (s.startAccess s.coreNo (acc .store (scatterData (es.map (fun e => withData (c.getVs o.dNum w) (pieceOf e)))) .nowhere))))
        ∧ (noUnit c o = true → ordOf o 6 = 0 →
          exec (ld o) s = retired (ld o) (pendResult (vecResult o.dNum w (c.getVs o.dNum w) 0) (grp rv o.dNum w) s) ∧ exec (st o) s = retired (st o) s))
    ∧ (s.canIssueV o 1 (grp rv o.dNum w ++ addrRegs o) → noUnit c o = true → ordOf o 6 = 0 →
        exec (.vld o) s = retired (.vld o) (pendResult (vecResult o.dNum w (c.getVs o.dNum w) 0) (grp rv o.dNum w) s) ∧ exec (.vst o) s = retired (.vst o) s))
  ∧ ∀ (on : Nat → Bool) (fmt cc w buf old k : Nat), 0 < w → k < 32 * w →
    lane (convLanes on fmt cc w buf old).1 32 k = if on (k / w) = false then lane old 32 k
      else (convElem fmt cc (32 * w / blkElems fmt cc * blkBytes fmt cc) buf k).elim 0x7FC00000 (fun x => (convert .f32 RNE 0 false x).1 % 2 ^ 32)

/-- R172, R173, R174: the local vector forms. VLDL, VLDT and VLDC leave their group pending and deliver, for each active unit, the bytes of L-memory, of the
owned tile slot, or of the accumulator's row, the other units keeping theirs; VSTL and VSTT store the active units and no other byte. That the trap of a slot
that is not owned names the lowest byte accessed in its buffer is the model's reading (log 26). -/
def Obligations.LocalVectorMoves : Prop :=
  ∀ (o : Ops) (s : State),
    let c := s.cx
    let w := groupSize o
    let old := c.getVs o.dNum w
    let tile := tileAt o
    let r := slotRange tile.1
    (s.canIssueV o 1 (grp rv o.dNum w ++ addrRegs o) →
      let ea := effLocal o c
      0 ≤ ea → ea + (128 * w : Nat) ≤ 0x18000 → unitsBusy c s.co o 2 ea w = false →
      exec (.vldl o) s = retired (.vldl o) (pendResult (vecResult o.dNum w (mergeUnits c o w old (mread s.co.lmem ea.toNat (128 * w))) 0) (grp rv o.dNum w) s)
      ∧ (s.co.kept = [] → exec (.vstl o) s = retired (.vstl o) (s.setCo { s.co with lmem := unitsStore c o s.co.lmem ea w old })))
    ∧ (s.canIssueV o 1 (grp rv o.dNum w) → s.co.own tile.1 = .ctx (s.cur % 8) → unitsBusy c s.co o r.1 (r.2 + tile.2) w = false →
      exec (.vldt o) s = retired (.vldt o) (pendResult (vecResult o.dNum w (mergeUnits c o w old (mread (s.co.buf r.1) (r.2 + tile.2) (128 * w))) 0) (grp rv o.dNum w) s)
      ∧ (s.co.slotInUse tile.1 = false → ∃ t, exec (.vstt o) s = .next t ∧ t.co.buf r.1 = unitsStore c o (s.co.buf r.1) (r.2 + tile.2) w old
          ∧ t.co.lmem = s.co.lmem ∧ sameMemory s t ∧ sameRegisters c t.cx [] ∧ sameContexts s t s.cur))
    ∧ (s.canIssueV o 1 (grp rv o.dNum w) → s.co.own tile.1 ≠ .ctx (s.cur % 8) → ∀ i ∈ [Instr.vldt o, .vstt o], exec i s = .next (s.raise (localTrap (r.2 + tile.2) 5)))
    ∧ (s.canIssueV o 1 (grp rv o.dNum w) → w = 1 ∨ w = 2 → accBusy s o.bNum = false →
      ∃ x fl, exec (.vldc o) s = (if c.traps fl then .next (s.raise (fpx fl)) else retired (.vldc o) (pendResult (vecResult o.dNum w x fl) (grp rv o.dNum w) s))
        ∧ (w = 2 → fl = 0)
        ∧ ∀ k, k < 32 → lane x (32 * w) k =
            let e := (accRead s o.bNum).get o.imm.toNat k
            if unitOn c o k = false then lane old (32 * w) k else if w = 2 then e else (convert .f32 RNE 0 false (Fmt.a40.decode e)).1)
    ∧ (∀ new k, k < 32 → lane (mergeUnits c o w old new) (32 * w) k = if unitOn c o k then lane new (32 * w) k else lane old (32 * w) k)
    ∧ (∀ (m : Mem) (a v b : Nat), Mem.wf m = true →
        (∀ k, k < 32 → unitOn c o k = true → mread (unitsStore c o m a w v) (a + 4 * w * k) (4 * w) = fld v (32 * w * k) (32 * w))
        ∧ ((∀ k, k < 32 → unitOn c o k = true → b < a + 4 * w * k ∨ a + 4 * w * (k + 1) ≤ b) → mget (unitsStore c o m a w v) b = mget m b))

namespace Sys2Proof.Machine

open Sys2Proof

/-- The value of a finite number as a rational. -/
def numValue : Sys2Proof.Num → ℚ
  | .fin neg m e => (if neg then -1 else 1) * m * (2 : ℚ) ^ e
  | _ => 0

/-- Is a number finite? -/
def isFin : Sys2Proof.Num → Bool
  | .fin _ _ _ => true
  | _ => false

/-- Of the finite values of a format, the pattern p has the one nearest to a number, of two equally near the one whose last bit is 0 (R35). The number is given
by the rationals below it and those above it. -/
def nearest (f : Fmt) (below above : ℚ → Prop) (p : Nat) : Prop :=
  isFin (f.decode p) = true ∧ ∀ z, z < 2 ^ f.bits → isFin (f.decode z) = true →
    let x := numValue (f.decode p)
    let y := numValue (f.decode z)
    (x < y → ¬ below ((x + y) / 2) ∧ (¬ above ((x + y) / 2) → p % 2 = 0)) ∧ (y < x → ¬ above ((x + y) / 2) ∧ (¬ below ((x + y) / 2) → p % 2 = 0))

/-- A number v of sign `neg` rounds to the pattern and the flags r in `.rne` (R24 to R26, R35 to R37): past half a step above the greatest finite value it
overflows; else r is the nearest value, NX is raised when it is not v, and UF with it when v, rounded with an unbounded exponent, lies below the least normal
value. -/
def roundsTo (f : Fmt) (neg : Bool) (v : ℚ) (r : Nat × Nat) : Prop :=
  let top := numValue (f.decode f.maxPat)
  let limit := top + (top - numValue (f.decode (f.maxPat - 1))) / 2
  let tooBig : Prop := limit < |v| ∨ (limit = |v| ∧ f.maxPat % 2 = 1)
  (tooBig → r = (f.signBit neg + (if f.hasInf then f.infPat else f.canon), OF + NX))
  ∧ (¬ tooBig → r.1 < 2 ^ f.bits ∧ bitOf r.1 (f.eb + f.fb) = neg ∧ nearest f (· < v) (v < ·) r.1
    ∧ (numValue (f.decode r.1) = v → r.2 = 0) ∧ (numValue (f.decode r.1) ≠ v → r.2 = NX + if |v| < (2 : ℚ) ^ f.emin - (2 : ℚ) ^ (f.emin - f.fb - 2) then UF else 0))

/-- The formats of R24. -/
def formats : List Fmt := [.f32, .f16, .bf16, .e4m3, .e5m2, .a40]

/-- An integer that a number in units rounds to, to nearest with ties to even (R34). -/
def roundsToInt (x : ℚ) (n : Nat) : Prop := |x - n| < 1 / 2 ∨ (|x - n| = 1 / 2 ∧ n % 2 = 0)

/-- The lanewise floating-point instructions whose result follows at once: the registers they name and the result and flags of lane k. -/
def floatTable : List ((Ops → Instr) × (Ops → List Nat) × (Ops → Ctx → Nat → Nat × Nat)) := [
  (.vfadd, fun o => vxyRegs o 1, fun o c k => fAdd (vfFmt o) (vfMode o) (fLane (vfFmt o) c (xyNum o).1 k) (fLane (vfFmt o) c (xyNum o).2 k)),
  (.vfsub, fun o => vxyRegs o 1, fun o c k => fSub (vfFmt o) (vfMode o) (fLane (vfFmt o) c (xyNum o).1 k) (fLane (vfFmt o) c (xyNum o).2 k)),
  (.vfmul, fun o => vxyRegs o 1, fun o c k => fMul (vfFmt o) (vfMode o) (fLane (vfFmt o) c (xyNum o).1 k) (fLane (vfFmt o) c (xyNum o).2 k)),
  (.vfmin, fun o => vxyRegs o 1, fun o c k => fMinMax (vfFmt o) false (fLane (vfFmt o) c (xyNum o).1 k) (fLane (vfFmt o) c (xyNum o).2 k)),
  (.vfmax, fun o => vxyRegs o 1, fun o c k => fMinMax (vfFmt o) true (fLane (vfFmt o) c (xyNum o).1 k) (fLane (vfFmt o) c (xyNum o).2 k)),
  (.vfma, fun o => [rv o.dNum, rv o.aNum, rv o.bNum], fun o c k => fFma (vfFmt o) (vfMode o) false (fLane (vfFmt o) c o.aNum k) (fLane (vfFmt o) c o.bNum k) (fLane (vfFmt o) c o.dNum k)),
  (.vfnma, fun o => [rv o.dNum, rv o.aNum, rv o.bNum], fun o c k => fFma (vfFmt o) (vfMode o) true (fLane (vfFmt o) c o.aNum k) (fLane (vfFmt o) c o.bNum k) (fLane (vfFmt o) c o.dNum k)),
  (.vfabs, fun o => [rv o.dNum, rv o.aNum], fun o c k => (lane (c.getV o.aNum).toNat (vfFmt o).bits k % 2 ^ ((vfFmt o).bits - 1), 0)),
  (.vfneg, fun o => [rv o.dNum, rv o.aNum], fun o c k => (lane (c.getV o.aNum).toNat (vfFmt o).bits k ^^^ 2 ^ ((vfFmt o).bits - 1), 0)),
  (.vfscl, fun o => if o.hasOpnd then [rv o.dNum, rv o.aNum, rg o.bNum] else [rv o.dNum, rg o.aNum], fun o c k =>
    convert (vfFmt o) (vfMode o) 0 false ((fLane (vfFmt o) c (if o.hasOpnd then o.aNum else o.dNum) k).scale (c.getG (if o.hasOpnd then o.bNum else o.aNum)).toInt))]

/-- The lanewise floating-point instructions of variable latency. -/
def lateTable : List ((Ops → Instr) × (Ops → List Nat) × (Ops → Ctx → Nat → Nat × Nat)) := [
  (.vfdiv, fun o => vxyRegs o 1, fun o c k => fDiv (vfFmt o) (vfMode o) (fLane (vfFmt o) c (xyNum o).1 k) (fLane (vfFmt o) c (xyNum o).2 k)),
  (.vfsqrt, fun o => [rv o.dNum, rv o.aNum], fun o c k => fSqrt (vfFmt o) (vfMode o) (fLane (vfFmt o) c o.aNum k)),
  (.vfrsq, fun o => [rv o.dNum, rv o.aNum], fun o c k => fRsqrt (vfFmt o) (vfMode o) (fLane (vfFmt o) c o.aNum k))]

/-- The lanewise integer instructions of X and Y (R184): the exact result of two integers, which wraps or clamps. -/
def intTable : List ((Ops → Instr) × (Ops → Int → Int → Int)) := [
  (.vadd, fun _ x y => x + y), (.vsub, fun _ x y => x - y), (.vmul, fun _ x y => x * y), (.vmulh, fun o x y => x * y / (2 ^ viBits o : Nat)),
  (.vmin, fun _ x y => min x y), (.vmax, fun _ x y => max x y)]

/-- The lanewise bit instructions of X and Y on patterns of w bits (R184). -/
def bitTable : List ((Ops → Instr) × (Nat → Nat → Nat → Nat)) := [
  (.vand, fun _ x y => x &&& y), (.vor, fun _ x y => x ||| y), (.vxor, fun _ x y => x ^^^ y),
  (.vshr, fun w x y => if y < w then x / 2 ^ y else 0), (.vsar, fun w x y => wrap (sgn x w / (2 ^ min y w : Nat)) w)]

/-- A result of w bits under the wrap or clamp of R43, and whether it was clamped. -/
def clamped (sat signed : Bool) (w : Nat) (x : Int) : Nat × Bool :=
  let lo : Int := if signed then -(2 ^ (w - 1) : Nat) else 0
  let hi : Int := if signed then (2 ^ (w - 1) : Nat) - 1 else (2 ^ w : Nat) - 1
  if sat = true ∧ (x < lo ∨ hi < x) then (wrap (max lo (min hi x)) w, true) else (wrap x w, false)

/-- How an instruction ends that raises the flags `fl` (R46): it traps FPX, the flags in `xinfo`, when an enabled one is among them, and else goes as said. -/
def trapsOr (i : Instr) (s : State) (fl : Nat) (goes : Prop) : Prop :=
  (s.cx.traps fl = true → exec i s = .next (s.raise { cause := 12, xinfo := BitVec.ofNat 64 fl })) ∧ (s.cx.traps fl = false → goes)

/-- Context `d` is `c` but for group D of w vector registers, whose n lanes of b bits hold f where active and else their old values, and the flags
`fl` ORed into `xflags`. -/
def lanesWritten (c d : Ctx) (o : Ops) (w b n fl : Nat) (f : Nat → Nat) : Prop :=
  (∀ k, k < n → lane (d.getVs o.dNum w) b k = if laneOn c o k then f k % 2 ^ b else lane (c.getVs o.dNum w) b k)
  ∧ (∀ m, m < o.dNum ∨ o.dNum + w ≤ m → d.getV m = c.getV m)
  ∧ d = { c with v := d.v, sr := { c.sr with xflags := c.sr.xflags ||| BitVec.ofNat 64 fl } }

end Sys2Proof.Machine

open Sys2Proof Sys2Proof.Machine

/-- R162, R175, R176: lane movement and masks, unit by unit; a masked-off unit keeps its value. That a 64-bit lane of VEXT and VINS belongs to the unit of its
low byte is the model's choice (log 69). -/
def Obligations.LaneMovement : Prop :=
  ∀ (o : Ops) (s : State),
    let c := s.cx
    let w := groupSize o
    let size := 8 * 2 ^ fld o.imm.toNat 7 2
    let sel := fld o.imm.toNat 0 7
    (s.canIssueV o 1 (grp rv o.dNum w ++ grp rv o.aNum w) → o.dNum + w ≤ 64 →
      ∃ d : Ctx, exec (.vmov o) s = retired (.vmov o) (s.setCx d) ∧ d = { c with v := d.v }
        ∧ ∀ k, k < 32 → lane (d.getVs o.dNum w) (32 * w) k = lane (c.getVs (if unitOn c o k then o.aNum else o.dNum) w) (32 * w) k)
    ∧ (s.canIssueV o 1 [rv o.dNum, rg o.bNum] → 0 ≤ o.imm → o.imm ≤ 3 →
      let b := 8 * 2 ^ o.imm.toNat
      ∃ x : Vec, exec (.vbcast o) s = retired (.vbcast o) (s.setCx (c.setV o.dNum x))
        ∧ ∀ k, k < 1024 / b → lane x.toNat b k = if unitOn c o (b * k / 32) then (c.getG o.bNum).toNat % 2 ^ b else lane (c.getV o.dNum).toNat b k)
    ∧ (s.canIssueV o 1 [rg o.dNum, rv o.bNum] →
      exec (.vext o) s = retired (.vext o) (s.setCx (if unitOn c o (size * sel / 32) then c.setG o.dNum (BitVec.ofNat 64 (lane (c.getV o.bNum).toNat size sel)) else c)))
    ∧ (s.canIssueV o 1 [rv o.dNum, rg o.bNum] → size * (sel + 1) ≤ 1024 →
      ∃ d : Ctx, exec (.vins o) s = retired (.vins o) (s.setCx d) ∧ d = { c with v := d.v }
        ∧ ∀ k, k < 1024 / size → lane (d.getV o.dNum).toNat size k =
            if k = sel ∧ unitOn c o (size * sel / 32) = true then (c.getG o.bNum).toNat % 2 ^ size else lane (c.getV o.dNum).toNat size k)
    ∧ (s.canIssueV o 1 [rv o.dNum, rv o.aNum, rv o.bNum] →
      ∃ x : Vec, exec (.vperm o) s = retired (.vperm o) (s.setCx (c.setV o.dNum x))
        ∧ ∀ k, k < 32 → lane x.toNat 32 k = if unitOn c o k then lane (c.getV o.aNum).toNat 32 (lane (c.getV o.bNum).toNat 32 k % 32) else lane (c.getV o.dNum).toNat 32 k)
    ∧ (s.canIssueV o 1 [rv o.dNum, rv o.aNum] →
      ∃ x : Vec, exec (.vcompr o) s = retired (.vcompr o) (s.setCx (c.setV o.dNum x))
        ∧ ∀ k, k < 32 → lane x.toNat 32 k = ((((List.range 32).filter (unitOn c o))[k]?).map (fun j => lane (c.getV o.aNum).toNat 32 j)).getD 0)
    ∧ (s.canIssueV o 1 [rm o.dNum, rm o.bNum] →
      let d := c.getVm o.dNum
      let b := c.getVm o.bNum
      exec (.vmlog o) s = retired (.vmlog o) (s.setCx (c.setVm o.dNum (match o.imm with | 0 => d &&& b | 1 => d ||| b | 2 => d ^^^ b | 3 => d &&& ~~~b | 4 => ~~~b | _ => b))))
    ∧ (s.canIssueV o 1 [rg o.dNum, rm o.aNum] →
      exec (.vmpop o) s = retired (.vmpop o) (s.setCx (c.setG o.dNum (BitVec.ofNat 64 ((List.range 32).filter (fun i => (c.getVm o.aNum).getLsbD i)).length))))
    ∧ (o.imm = 0 → s.canIssueV o 1 [rg o.dNum, rm o.bNum] → exec (.vmget o) s = retired (.vmget o) (s.setCx (c.setG o.dNum ((c.getVm o.bNum).setWidth 64))))
    ∧ (o.imm ≠ 0 → s.canIssueV o 1 [rm o.dNum, rg o.bNum] → exec (.vmget o) s = retired (.vmget o) (s.setCx (c.setVm o.dNum ((c.getG o.bNum).setWidth 32))))

/-- R45, R46, R104, R162, R177, R179, R180, R183, R382: a lanewise floating-point instruction takes a token of its row, writes its result to each active
lane and ORs the flags of the active lanes into `xflags`; when one of them is enabled it traps FPX with all of them and writes nothing. VFDIV, VFSQRT and
VFRSQ leave their register pending and deliver lanes and flags together. Without a token the instruction waits. Of finite operands, a sum, a difference, a
product and a fused product are the exact value, rounded once as `LaneConversions` states of `convert`; a quotient, a root and a reciprocal root of them are
the nearest value in `.rne` (R35, R177, R180), and a minimum or maximum is that of the two values. -/
def Obligations.FloatLanes : Prop :=
  (∀ mk regs g, (mk, regs, g) ∈ floatTable ++ lateTable → ∀ (o : Ops) (s : State), s.canIssueV o (vfMaskRegs o) (regs o) → (s.row (s.coreNo / 8)).balance = 0 →
    exec (mk o) s = .next { s with stall := true })
  ∧ (∀ mk regs g, (mk, regs, g) ∈ floatTable → ∀ (o : Ops) (s : State), s.canIssueV o (vfMaskRegs o) (regs o) → 1 ≤ (s.row (s.coreNo / 8)).balance →
    let fl := laneFlags s.cx o (vfLanes o) (fun k => (g o s.cx k).2)
    (s.cx.traps fl = true → exec (mk o) s = .next (s.raise { cause := 12, xinfo := BitVec.ofNat 64 fl }))
    ∧ (s.cx.traps fl = false → ∃ d, exec (mk o) s = retired (mk o) (s.paid.setCx d) ∧ lanesWritten s.cx d o 1 (vfFmt o).bits (vfLanes o) fl (fun k => (g o s.cx k).1)))
  ∧ (∀ mk regs g, (mk, regs, g) ∈ lateTable → ∀ (o : Ops) (s : State), s.canIssueV o (vfMaskRegs o) (regs o) → 1 ≤ (s.row (s.coreNo / 8)).balance → s.co.results = [] → s.still = false →
    let fl := laneFlags s.cx o (vfLanes o) (fun k => (g o s.cx k).2)
    (s.cx.traps fl = true → exec (mk o) s = .next (s.raise { cause := 12, xinfo := BitVec.ofNat 64 fl }))
    ∧ (s.cx.traps fl = false → ∃ t u, exec (mk o) s = .next t ∧ t.cx.pending (rv o.dNum) = true ∧ (t.row (s.coreNo / 8)).balance = (s.row (s.coreNo / 8)).balance - 1 ∧ exec (.resultWriteback s.coreNo 0) t = .next u ∧ u.cx.pending (rv o.dNum) = false
        ∧ u.cx.sr.xflags = s.cx.sr.xflags ||| BitVec.ofNat 64 fl
        ∧ ∀ k, k < vfLanes o → lane (u.cx.getV o.dNum).toNat (vfFmt o).bits k =
            if laneOn s.cx o k then (g o s.cx k).1 % 2 ^ (vfFmt o).bits else lane (s.cx.getV o.dNum).toNat (vfFmt o).bits k))
  ∧ (∀ (f : Fmt) (mode : Nat) (a b c : Sys2Proof.Num), isFin a = true → isFin b = true → isFin c = true →
    let is (r : Nat × Nat) (v : ℚ) : Prop := ∃ z, isFin z = true ∧ numValue z = v ∧ r = convert f mode 0 false z
    is (fAdd f mode a b) (numValue a + numValue b) ∧ is (fSub f mode a b) (numValue a - numValue b) ∧ is (fMul f mode a b) (numValue a * numValue b)
    ∧ is (fFma f mode false a b c) (numValue a * numValue b + numValue c) ∧ is (fFma f mode true a b c) (-(numValue a * numValue b) + numValue c))
  ∧ ∀ f ∈ [Fmt.f32, .bf16, .f16], ∀ x y, x < 2 ^ f.bits → y < 2 ^ f.bits → isFin (f.decode x) = true → isFin (f.decode y) = true →
    let u := numValue (f.decode x)
    let w := numValue (f.decode y)
    (w ≠ 0 → roundsTo f (bitOf x (f.eb + f.fb) != bitOf y (f.eb + f.fb)) (u / w) (fDiv f RNE (f.decode x) (f.decode y)))
    ∧ (0 < u → nearest f (fun t => t < 0 ∨ t ^ 2 < u) (fun t => 0 < t ∧ u < t ^ 2) (fSqrt f RNE (f.decode x)).1
      ∧ nearest f (fun t => t < 0 ∨ t ^ 2 * u < 1) (fun t => 0 < t ∧ 1 < t ^ 2 * u) (fRsqrt f RNE (f.decode x)).1)
    ∧ numValue (f.decode (fMinMax f false (f.decode x) (f.decode y)).1) = min u w ∧ numValue (f.decode (fMinMax f true (f.decode x) (f.decode y)).1) = max u w

/-- R43, R162, R184: a lanewise integer instruction writes its exact result, wrapped or, under `.sat`, clamped with SAT, to each active lane; VABS takes the
absolute value, VSHL multiplies by 2^count, VIDX counts up; the bit instructions raise no flag. -/
def Obligations.IntegerLanes : Prop :=
  ∀ (o : Ops) (s : State),
    let c := s.cx
    let w := viBits o
    let n := viLanes o
    let ends (mk : Ops → Instr) (f : Nat → Nat × Bool) : Prop :=
      let fl := laneFlags c o n (fun k => if (f k).2 then SAT else 0)
      (c.traps fl = true → exec (mk o) s = .next (s.raise { cause := 12, xinfo := BitVec.ofNat 64 fl }))
      ∧ (c.traps fl = false → ∃ d, exec (mk o) s = retired (mk o) (s.setCx d) ∧ lanesWritten c d o (viRegs o) w n fl (fun k => (f k).1))
    o.dNum + viRegs o ≤ 64 →
    (s.canIssueV o (viMaskRegs o) (vxyRegs o (viRegs o)) →
      (∀ mk g, (mk, g) ∈ intTable → ends mk (fun k => clamped (viSat o) (viSigned o) w (g o (iVal o c (xyNum o).1 k) (iVal o c (xyNum o).2 k))))
      ∧ (∀ mk g, (mk, g) ∈ bitTable → ends mk (fun k => (g w (iLane o c (xyNum o).1 k) (iLane o c (xyNum o).2 k), false)))
      ∧ ends .vshl (fun k => clamped (viSat o) (viSigned o) w (iVal o c (xyNum o).1 k * (2 ^ min (iLane o c (xyNum o).2 k) w : Nat))))
    ∧ (s.canIssueV o (viMaskRegs o) (grp rv o.dNum (viRegs o) ++ grp rv o.aNum (viRegs o)) → ends .vabs (fun k => clamped (viSat o) (viSigned o) w |iVal o c o.aNum k|))
    ∧ (s.canIssueV o (viMaskRegs o) (grp rv o.dNum (viRegs o) ++ (if o.hasOpnd then [rg o.aNum, rg o.bNum] else [rg o.aNum])) →
      ends .vidx (fun k => ((c.getG o.aNum).toNat + k * (if o.hasOpnd then (c.getG o.bNum).toNat else 1), false)))

/-- R100, R162, R181, R185: VCMP and VFCMP write the truth of the condition to the mask bit of each active lane and keep the others; VSEL takes each lane
from A where the mask has it active and else from B. -/
def Obligations.ComparesAndSelect : Prop :=
  ∀ (o : Ops) (s : State),
    let c := s.cx
    let sz := fld (o.clsOr 0) 0 2
    let w := match sz with | 0 => 32 | 1 => 16 | 2 => 8 | _ => 64
    let r := if sz = 3 then 2 else 1
    let n := 1024 * r / w
    let f := Fmt.ofTy (fld (o.clsOr 0) 4 2)
    let m := 1024 / f.bits
    let g (k : Nat) : Bool × Nat := fCond (16 + fld (o.clsOr 0) 0 4) (fLane f c o.aNum k) (fLane f c o.bNum k)
    (s.canIssueV o (n / 32) (maskGroup o n ++ grp rv o.aNum r ++ grp rv o.bNum r) → 0 < o.dNum → o.dNum + n / 32 ≤ 8 →
      ∃ d : Ctx, exec (.vcmp o) s = retired (.vcmp o) (s.setCx d) ∧ d = { c with vm := d.vm }
        ∧ ∀ k, k < n → (d.getVm (o.dNum + k / 32)).getLsbD (k % 32) =
            if laneOn c o k then iCond (fld (o.clsOr 0) 2 4) (lane (c.getVs o.aNum r) w k) (lane (c.getVs o.bNum r) w k) w else (c.getVm (o.dNum + k / 32)).getLsbD (k % 32))
    ∧ (s.canIssueV o (m / 32) (maskGroup o m ++ [rv o.aNum, rv o.bNum]) → 1 ≤ (s.row (s.coreNo / 8)).balance → 0 < o.dNum → o.dNum + m / 32 ≤ 8 →
      let fl := laneFlags c o m (fun k => (g k).2)
      (c.traps fl = true → exec (.vfcmp o) s = .next (s.raise { cause := 12, xinfo := BitVec.ofNat 64 fl }))
      ∧ (c.traps fl = false → ∃ d : Ctx, exec (.vfcmp o) s = retired (.vfcmp o) (s.paid.setCx d) ∧ d.sr.xflags = c.sr.xflags ||| BitVec.ofNat 64 fl
        ∧ ∀ k, k < m → (d.getVm (o.dNum + k / 32)).getLsbD (k % 32) = if laneOn c o k then (g k).1 else (c.getVm (o.dNum + k / 32)).getLsbD (k % 32)))
    ∧ (s.canIssueV o (viMaskRegs o) (grp rv o.dNum (viRegs o) ++ grp rv o.aNum (viRegs o) ++ grp rv o.bNum (viRegs o)) → o.dNum + viRegs o ≤ 64 →
      ∃ d : Ctx, exec (.vsel o) s = retired (.vsel o) (s.setCx d) ∧ d = { c with v := d.v }
        ∧ ∀ k, k < viLanes o → lane (d.getVs o.dNum (viRegs o)) (viBits o) k = iLane o c (if laneOn c o k then o.aNum else o.bNum) k)

/-- R41, R43, R46, R178, R182, R186: the reductions and dot products. VRED sums the active lanes, under `.sat` in the tree of R41 with a clamp at every node; VFRED adds
in that tree; VFRMAX delivers the first greatest active lane, or the first NaN lane, as a witness 0x7F and −∞ for none; VFDOT and VDOT4 round or clamp each lane's
sum once. Each traps FPX with nothing written when it raises an enabled flag, and else raises its flags. -/
def Obligations.ReductionsAndDots : Prop :=
  ∀ (o : Ops) (s : State),
    let c := s.cx
    let n := vfLanes o
    let f := fLane (vfFmt o) c
    let vals := (List.range (viLanes o)).map (fun k => if laneOn c o k then iLane o c o.aNum k else 0)
    let value (x : Nat) : Int := if viSigned o then sgn x (viBits o) else x
    let add (x y : Nat) : Nat × Nat := let r := clamped true (viSigned o) (viBits o) (value x + value y); (r.1, if r.2 then SAT else 0)
    let whole (x : Nat) : Word := if viSigned o then sext x (viBits o) else zext x (viBits o)
    let part (k : Nat) : Nat × Nat := if laneOn c o k then convert .f32 RNE 0 false (f o.aNum k) else (if vfMode o = RDN then 0 else 2 ^ 31, 0)
    let on (k : Nat) : Prop := k < n ∧ laneOn c o k = true
    let dot (k : Nat) : Nat × Nat :=
      dotLane (vfMode o) (f o.aNum (2 * k)) (f o.bNum (2 * k)) (f o.aNum (2 * k + 1)) (f o.bNum (2 * k + 1)) (Fmt.f32.decode (lane (c.getV o.dNum).toNat 32 k))
    let elem (r w k : Nat) : Int := if viSigned o then sgn (lane (c.getV r).toNat w k) w else lane (c.getV r).toNat w k
    let dot4 (k : Nat) : Nat × Bool := clamped (viSat o) (viSigned o) 32 (elem o.dNum 32 k + elem o.aNum 8 (4 * k) * elem o.bNum 8 (4 * k)
      + elem o.aNum 8 (4 * k + 1) * elem o.bNum 8 (4 * k + 1) + elem o.aNum 8 (4 * k + 2) * elem o.bNum 8 (4 * k + 2) + elem o.aNum 8 (4 * k + 3) * elem o.bNum 8 (4 * k + 3))
    (s.canIssueV o (viMaskRegs o) (rg o.dNum :: grp rv o.aNum (viRegs o)) →
      (viSat o = false → exec (.vred o) s = retired (.vred o) (s.setCx (c.setG o.dNum (whole ((vals.foldl (· + ·) 0) % 2 ^ viBits o)))))
      ∧ (viSat o = true → let t := treeSum add (Nat.log2 (viLanes o)) vals
        trapsOr (.vred o) s t.2 (exec (.vred o) s = retired (.vred o) (s.setCx ((c.setG o.dNum (whole t.1)).addFlags t.2)))))
    ∧ (s.canIssueV o (vfMaskRegs o) [rg o.dNum, rv o.aNum] → 1 ≤ (s.row (s.coreNo / 8)).balance →
      (let t := treeSum (fun a b => fAdd .f32 (vfMode o) (Fmt.f32.decode a) (Fmt.f32.decode b)) (Nat.log2 n) ((List.range n).map (fun k => (part k).1))
        let fl := t.2 ||| laneFlags c o n (fun k => (part k).2)
        trapsOr (.vfred o) s fl (exec (.vfred o) s = retired (.vfred o) (s.paid.setCx ((c.setG o.dNum (BitVec.ofNat 64 t.1)).addFlags fl))))
      ∧ ((∀ k, ¬on k) → exec (.vfrmax o) s = retired (.vfrmax o) (s.paid.setCx (c.setG o.dNum 0x0000007F_FF800000)))
      ∧ ∀ k, on k →
        let d := c.setG o.dNum (BitVec.ofNat 64 (k * 2 ^ 32 + pat .f32 (f o.aNum k)))
        ((∀ j, on j → (f o.aNum j).isNan = false) → (∀ j, on j → (f o.aNum k).lt (f o.aNum j) = false) → (∀ j, j < k → on j → (f o.aNum j).lt (f o.aNum k) = true) →
          exec (.vfrmax o) s = retired (.vfrmax o) (s.paid.setCx d))
        ∧ ((f o.aNum k).isNan = true → (∀ j, j < k → on j → (f o.aNum j).isNan = false) →
          let fl := laneFlags c o n (fun j => if signals (f o.aNum j) then NV else 0)
          trapsOr (.vfrmax o) s fl (exec (.vfrmax o) s = retired (.vfrmax o) (s.paid.setCx (d.addFlags fl)))))
    ∧ (s.canIssueV o 1 [rv o.dNum, rv o.aNum, rv o.bNum] →
      (1 ≤ (s.row (s.coreNo / 8)).balance → let fl := laneFlags c o 32 (fun k => (dot k).2)
        trapsOr (.vfdot o) s fl (∃ d, exec (.vfdot o) s = retired (.vfdot o) (s.paid.setCx d) ∧ lanesWritten c d o 1 32 32 fl (fun k => (dot k).1)))
      ∧ let fl := laneFlags c o 32 (fun k => if (dot4 k).2 then SAT else 0)
        trapsOr (.vdot4 o) s fl (∃ d, exec (.vdot4 o) s = retired (.vdot4 o) (s.setCx d) ∧ lanesWritten c d o 1 32 32 fl (fun k => (dot4 k).1)))

/-- R35 to R38, R44, R46, R187, R188, R190: the lanewise conversions: each active lane takes the value rounded once to the format
of its type, or the integer of R44; `.rs` advances the seed. One that raises an enabled flag traps FPX with nothing written, and else raises its flags (R46). What `convert` gives for a finite value in each format of R24 is stated first: in `.rne` the
nearest value, ties to even, or the overflow, with the flags of R36; in the directed modes the neighbour on their side. -/
def Obligations.LaneConversions : Prop :=
  (∀ f ∈ formats, ∀ (neg : Bool) (m : Nat) (e : Int),
    let v := numValue (.fin neg m e)
    let r (mode : Nat) := convert f mode 0 false (.fin neg m e)
    let x (mode : Nat) := numValue (f.decode (r mode).1)
    roundsTo f neg v (r RNE)
    ∧ (|v| ≤ numValue (f.decode f.maxPat) → ∀ mode ∈ [RZ, RDN, RUP],
      isFin (f.decode (r mode).1) = true ∧ bitOf (r mode).1 (f.eb + f.fb) = neg ∧ ((r mode).2 &&& (NX + OF) = if x mode = v then 0 else NX)
      ∧ ∀ z, z < 2 ^ f.bits → isFin (f.decode z) = true →
        let y := numValue (f.decode z)
        (mode = RZ → |x mode| ≤ |v| ∧ (|y| ≤ |v| → |y| ≤ |x mode|)) ∧ (mode = RDN → x mode ≤ v ∧ (y ≤ v → y ≤ x mode)) ∧ (mode = RUP → v ≤ x mode ∧ (v ≤ y → x mode ≤ y))))
  ∧ ∀ (o : Ops) (s : State),
    let c := s.cx
    let f := vfFmt o
    let seed := (c.getSd o.bNum).toNat
    let e := fld (c.getG o.bNum).toNat 0 8
    let ends (i : Instr) (w b n : Nat) (g : Nat → Nat × Nat) (after : Ctx → Ctx) : Prop :=
      let fl := laneFlags c o n (fun k => (g k).2)
      trapsOr i s fl (∃ d, exec i s = retired i (s.setCx (after d)) ∧ lanesWritten c d o w b n fl (fun k => (g k).1))
    (s.canIssueV o (vfMaskRegs o) (rv o.dNum :: grp rv o.aNum (wideRegs o)) →
      ends (.vcvtf o) 1 f.bits (vfLanes o) (fun k => convert f (vfMode o) (mix seed k) false (Fmt.f32.decode (lane (c.getVs o.aNum (wideRegs o)) 32 k)))
        (fun d => if vfMode o = RS then d.setSd o.bNum (BitVec.ofNat 32 (seed + 0x85EBCA6B)) else d))
    ∧ (s.canIssueV o (vfMaskRegs o) (rv o.aNum :: grp rv o.dNum (wideRegs o)) → o.dNum + wideRegs o ≤ 64 →
      ends (.vunpk o) (wideRegs o) 32 (vfLanes o) (fun k => convert .f32 RNE 0 false (fLane f c o.aNum k)) id)
    ∧ (s.canIssueV o 1 [rv o.dNum, rv (if o.hasImm then o.bNum else o.aNum)] →
      let src (k : Nat) : Nat := lane (c.getV (if o.hasImm then o.bNum else o.aNum)).toNat 32 k
      ends (.vcvti o) 1 32 32 (fun k => convert .f32 (vfMode o) 0 false (Num.ofInt (if o.hasImm then (src k : Int) else sgn (src k) 32))) id
      ∧ ends (.vcvtfi o) 1 32 32 (fun k => let r := toInteger (vfMode o) 32 (!o.hasImm) (Fmt.f32.decode (src k)); (wrap r.1 32, r.2)) id)
    ∧ (∀ w, w = (if o.imm ≤ 1 then 8 else 16) → s.canIssueV o (32 / w) (rv o.dNum :: grp rv o.bNum (32 / w)) →
      ends (.vpack o) 1 w (1024 / w) (fun k => let r := clamped true (o.imm % 2 == 0) w (sgn (lane (c.getVs o.bNum (32 / w)) 32 k) 32); (r.1, if r.2 then SAT else 0)) id)
    ∧ (s.canIssueV o 4 (rv o.dNum :: rg o.bNum :: grp rv o.aNum 4) →
      ends (.vqf8 o) 1 8 128 (fun k => if e = 255 then (0, 0) else convert f (vfMode o) 0 true ((Fmt.f32.decode (lane (c.getVs o.aNum 4) 32 k)).scale (127 - (e : Int)))) id)

/-- R33, R34, R46, R189, R191: dual-exponent blocks. VQDB quantises 32 lanes under their greatest magnitude or a given one; VBMAX delivers that magnitude, and raises NV (R25) for a signalling NaN; VDQDB
reads a block back; BADDRQ quantises the exact sums of two DB8 blocks, and with no lane active writes nothing. What quantising gives is stated first, step by
step of R34: the scale bytes, the code and the flags of each element, and the value that an element reads back. One that raises an enabled flag traps FPX with nothing
written, and else raises its flags. Four points are the model's: the flags under an
agreed maximum of 0 (log 68), the rounding of an element of 2^128 or more (log 76), that BADDRQ raises the flags of its active lanes alone (log 77), and that VBMAX raises NV (log 96). -/
def Obligations.BlockConversions : Prop :=
  (∀ (db8 : Bool) (a : Sys2Proof.Num) (xs : List Sys2Proof.Num),
    let d := if db8 then 3 else 2
    let mb := if db8 then 6 else 2
    let top := 2 ^ mb - 1
    let step (e : Nat) : ℚ := (2 : ℚ) ^ ((e : Int) - 127) / 2 ^ (mb - 1)
    let most : ℚ := if db8 then 63 / 32 else 3 / 2
    let b := dbBlock db8 a xs
    b.codes.length = xs.length ∧ b.flags.length = xs.length
    ∧ (isFin a = false ∨ (∃ x ∈ xs, isFin x = false) → b.e0 = 255 ∧ b.e1 = 255 - d ∧ (∀ c ∈ b.codes, c = 0) ∧ ∀ f ∈ b.flags, f = 0)
    ∧ (isFin a = true → (∀ x ∈ xs, isFin x = true) → 0 ≤ numValue a →
      (numValue a = 0 → b.e0 = 0 ∧ b.e1 = 0 ∧ (∀ c ∈ b.codes, c = 0) ∧ ∀ (k : Nat) (x : Sys2Proof.Num), xs[k]? = some x → b.flags[k]? = some (if numValue x = 0 then 0 else NX))
      ∧ (numValue a ≠ 0 → d + 1 ≤ b.e0 ∧ b.e0 ≤ 254 ∧ b.e1 = b.e0 - d ∧ (numValue a ≤ most * (2 : ℚ) ^ ((b.e0 : Int) - 127) ∨ b.e0 = 254)
        ∧ (∀ e, d + 1 ≤ e → e < b.e0 → most * (2 : ℚ) ^ ((e : Int) - 127) < numValue a)
        ∧ ∀ (k : Nat) (neg : Bool) (m : Nat) (e : Int), xs[k]? = some (Sys2Proof.Num.fin neg m e) → ∃ m0 m1 c f, b.codes[k]? = some c ∧ b.flags[k]? = some f
          ∧ roundsToInt (numValue (.fin false m e) / step b.e0) m0 ∧ roundsToInt (numValue (.fin false m e) / step b.e1) m1
          ∧ (let sel := decide (m1 ≤ top)
            let mag := if sel then m1 else min m0 top
            c = (if mag = 0 then 0 else mag + (if neg then 2 ^ mb else 0) + (if sel then 2 ^ (mb + 1) else 0))
            ∧ f = (if mag * step (if sel then b.e1 else b.e0) = numValue (.fin false m e) then 0 else NX) + (if top < m1 ∧ top < m0 then SAT else 0)))))
  ∧ (∀ (buf k : Nat), k < 32 → fld buf 256 8 ≠ 255 →
    let x := fld buf (8 * k) 8
    let y := fld buf (4 * k) 4
    let e (sel : Bool) : Int := (fld buf (if sel then 264 else 256) 8 : Int) - 127
    (∃ z, convElem 6 2 32 buf k = some z ∧ numValue z = (if bitOf x 6 then -1 else 1) * ((fld x 0 6 : Nat) : ℚ) * (2 : ℚ) ^ e (bitOf x 7) / 32)
    ∧ ∃ z, convElem 7 2 32 buf k = some z ∧ numValue z = (if bitOf y 2 then -1 else 1) * ((fld y 0 2 : Nat) : ℚ) * (2 : ℚ) ^ e (bitOf y 3) / 2)
  ∧ ∀ (o : Ops) (s : State),
    let c := s.cx
    let db8 := vfTy o == 0
    let xs := (List.range 32).map (fun k => if laneOn c o k then fLane .f32 c o.aNum k else .fin false 0 0)
    let on := ((List.range 32).filter (laneOn c o)).map (fLane .f32 c o.aNum)
    let writes (i : Instr) (d : Ctx) (fl : Nat) : Prop := trapsOr i s fl (exec i s = retired i (s.setCx (d.addFlags fl)))
    (s.canIssueV o 1 [rv o.dNum, rv o.aNum, rg o.bNum] →
      let b := dbBlock db8 (if o.bNum = 0 then absMax (xs.filter (fun x => !x.isNan)) else magOf (Fmt.f32.decode (fld (c.getG o.bNum).toNat 0 32))) xs
      writes (.vqdb o) (c.setV o.dNum (dbRegister db8 b)) (b.raised (laneOn c o)))
    ∧ (s.canIssueV o 1 [rv o.dNum, rv o.aNum] →
      let x (k : Nat) := convElem (if db8 then 6 else 7) 2 32 (c.getV o.aNum).toNat k
      let back (k : Nat) : Nat × Nat := (x k).elim (0x7FC00000, 0) (convert .f32 RNE 0 false)
      let fl := laneFlags c o 32 (fun k => (back k).2)
      trapsOr (.vdqdb o) s fl (∃ d, exec (.vdqdb o) s = retired (.vdqdb o) (s.setCx d) ∧ lanesWritten c d o 1 32 32 fl (fun k => (back k).1))
      ∧ ∀ k z, k < 32 → x k = some z → |numValue z| < 2 ^ 128 → numValue (Fmt.f32.decode (back k).1) = numValue z ∧ (back k).2 = 0)
    ∧ (s.canIssueV o 1 [rg o.dNum, rv o.aNum] →
      writes (.vbmax o) (c.setG o.dNum (BitVec.ofNat 64 (if on.any (fun x => x.isNan) then 0x7FC00000 else pat .f32 (absMax on)))) (if on.any signals then NV else 0))
    ∧ (s.canIssueV o 1 [rv o.dNum, rv o.aNum, rv o.bNum] →
      let sums := (List.range 32).map (fun k => match convElem 6 2 32 (c.getV o.aNum).toNat k, convElem 6 2 32 (c.getV o.bNum).toNat k with
        | some x, some y => (exactSum RNE [x, y]).1
        | _, _ => .inf false)
      ((∀ k, k < 32 → laneOn c o k = false) → exec (.baddrq o) s = retired (.baddrq o) s)
      ∧ ((∃ k, k < 32 ∧ laneOn c o k = true) →
          let b := dbBlock true (absMax sums) sums
          writes (.baddrq o) (c.setV o.dNum (dbRegister true b)) (b.raised (laneOn c o))))

/-- R194, R195, R197, R198, R201: TCLAIM takes its run of free or owned slots with reset norm tables, and backs off when another owns one; TREL frees the owned
ones; TSCL copies 256 bytes of L-memory to a block of S-memory; MCFG writes an accepted `mctl`, reserved bits as 0, and traps ILL on another. -/
def Obligations.MatrixClaimsAndConfiguration : Prop :=
  (∀ (o : Ops) (s : State),
    let mine (n : Nat) : Prop := s.co.own n = .free ∨ s.co.own n = .ctx (s.cur % 8)
    (s.canIssue o [] → (∀ n ∈ runOf o, mine n ∧ s.co.slotBusy n = false) →
      ∃ t, exec (.tclaim o) s = .next t ∧ (∀ n, t.co.own n = if n ∈ runOf o then .ctx (s.cur % 8) else s.co.own n)
        ∧ (∀ n ∈ runOf o, t.co.norm n = BitVec.ofNat 320 (0xFF * 2 ^ 256)) ∧ sameMemory s t ∧ sameContexts s t s.cur)
    ∧ (s.canIssue o [] → (∃ n ∈ runOf o, ¬ mine n) →
      exec (.tclaim o) s = if 0 < s.cx.budget then waits (.tclaim o) (.retry 0 (s.tick + 1)) s else .next (s.raise { cause := 14, xinfo := 2 }))
    ∧ (s.canIssue o [] → fld (o.clsOr 0) 0 2 ≠ 2 → (∀ n ∈ runOf o, s.co.slotBusy n = false ∧ s.co.slotInUse n = false) →
      ∃ t, exec (.trel o) s = .next t ∧ (∀ n, t.co.own n = if n ∈ runOf o ∧ s.co.own n = .ctx (s.cur % 8) then .free else s.co.own n) ∧ sameMemory s t ∧ sameContexts s t s.cur)
    ∧ (s.canIssue o [] → fld (o.clsOr 0) 0 2 = 2 → o.aNum = 0 → ∀ p, o.dNum < 32 → vget s.cx.tc o.dNum none = some p → s.co.mat = [] →
      ∃ t, exec (.trel o) s = .next t ∧ vget t.cx.tc o.dNum none = none ∧ (t.co.acc p).own = .free ∧ sameMemory s t ∧ sameContexts s t s.cur)
    ∧ (s.canIssue o [rg o.dNum] →
      let a := (s.cx.getG o.dNum).toNat
      a % 16 = 0 → a + 256 ≤ 0x18000 → s.co.busy 2 a (a + 256) = false → s.co.smemInUse o.imm.toNat = false → Mem.wf s.co.smem = true →
      ∃ t, exec (.tscl o) s = .next t ∧ (∀ i, i < 256 → mget t.co.smem (256 * o.imm.toNat + i) = mget s.co.lmem (a + i))
        ∧ (∀ b, b < 256 * o.imm.toNat ∨ 256 * o.imm.toNat + 256 ≤ b → mget t.co.smem b = mget s.co.smem b) ∧ t.co.lmem = s.co.lmem ∧ sameMemory s t)
    ∧ (bit0Of o 0 = false → s.canIssue o [rg o.aNum, rg (o.aNum + 1)] →
      let x := (s.cx.getG o.aNum).toNat + 2 ^ 64 * (s.cx.getG (o.aNum + 1)).toNat
      exec (.mcfg o) s = if mctlBad s.coreNo x then .next (s.raise { cause := 1, xinfo := 9 }) else retired (.mcfg o) (s.setCx { s.cx with sr := { s.cx.sr with mctl := mctlOf x } }))
    ∧ (bit0Of o 0 = true → s.canIssue o [rg o.aNum] →
      let x := setFld s.cx.sr.mctl.toNat 64 32 (s.cx.getG o.aNum).toNat
      exec (.mcfg o) s = if mctlBad s.coreNo x then .next (s.raise { cause := 1, xinfo := 9 }) else retired (.mcfg o) (s.setCx { s.cx with sr := { s.cx.sr with mctl := mctlOf x } })))
  ∧ ∀ (core slot j till : Nat) (s : State) (o : Ops),
      let k := 8 * core + slot
      slot < 8 → s.still = false → (s.ctx k).occ = true → (s.ctx k).wait = .retry j till → till ≤ s.tick →
      ((s.ctx k).held = some (.tclaim o) → (∀ n ∈ runOf o, ((s.core core).own n = .free ∨ (s.core core).own n = .ctx slot) ∧ (s.core core).slotBusy n = false) →
        ∃ t, exec (.tclaimRetry core slot) s = .next t ∧ (t.ctx k).wait = .none ∧ ∀ n ∈ runOf o, (t.core core).own n = .ctx slot)
      ∧ (∀ p, o.dNum < 32 → (s.ctx k).held = some (.tzero o) → vget (s.ctx k).tc o.dNum none = none → (s.core core).freeAccs.head? = some p →
        ∃ t, exec (.accumulatorBindRetry core slot) s = .next t ∧ (t.ctx k).wait = .none ∧ vget (t.ctx k).tc o.dNum none = some p ∧ ((t.core core).acc p).own = .ctx slot)

/-- The dense sum of R207 at an element: one `RNE_A40` a slice, from a starting accumulator. -/
def productAt (lead c : Core) (o : MatOp) (x y start : Nat) : Nat :=
  (List.range (8 * mLen o.mctl)).foldl (fun v j => (sliceStep (sliceA lead o j x) (sliceB c o j y) v).1) start

/-- The sampled sum of R208 at an element, for the quantised weights `qs`: one `RNE_A40` a draw, of the drawn slice's exact sum times f. -/
def sampleAt (lead c : Core) (o : MatOp) (qs : List Nat) (x y : Nat) : Nat :=
  (List.range o.b).foldl (fun v i =>
    let j := pickSlice (draw o.seed (mf o.mctl 64 32) i * qs.sum / 2 ^ 32) qs 0 0
    let xs := sliceA lead o j x
    let ys := sliceB c o j y
    let p := ((firstNan (sliceOperands xs ys)).getD (sliceSum xs ys [])).1
    (add40 v (convert Fmt.a40 RNE 0 false (exactMul p (Fmt.f32.decode (rnDiv (natNum qs.sum) (natNum (o.b * (qs[j]?).getD 1))))).1).1).1) 0

/-- An accumulator's elements after an operation that computed `v` at the active ones (R207, R208): with `.acc` added to C, else in its place; inactive
elements are as they were. -/
def intoAcc (o : MatOp) (a b : Acc) (v : Nat → Nat → Nat) : Prop :=
  ∀ x y, x < 32 → y < 32 →
    b.get x y = if x < mM o.mctl ∧ y < mN o.mctl then (if o.acc then (add40 (a.get x y) (v x y)).1 else v x y) % 2 ^ 40 else a.get x y

/-- R22, R39, R42 and R203 to R209: a product of one core with an accepted `mctl`, owned slots, room in the slice and tokens in its row joins the slice with
its accumulator bound, and its context goes on; the first held one starts once the copies issued before
it have left its operand slots, MSAMP with its norms up to date. A slice adds its exact sum with one rounding;
a draw takes the first slice whose running total passes it. The end of a product writes every active element, the header and, when `ece` is set, its
event counter. With no rows or columns it completes at once. A member of a gang waits at the join, with R67's budget, which no longer runs out once the
conditions of a join that takes it in hold: every core of the mask has a member waiting, of which the one that has just come may have a budget of 0, and no
slice holds an earlier operation or the compared values differ; when every core of the mask waits with matching operations, all start and go on, on the leader's A chain, MSAMP with the gang's
norms. Five points are the model's: that a product waits for the copies issued before it alone (log 72), what the members of a gang read of the
leader's and when the conditions of a join are looked at (log 22), that a NaN operand comes before an invalid product (log 20), which of two contexts of a core is its member (log 91), and
that a gang product takes its accumulator when the join completes (log 92). -/
def Obligations.MatrixProducts : Prop :=
  (∀ (i : Instr) (o : Ops) (s : State) (op ta tb b : Nat),
    (i = .mma o ∧ op = (if bitOf (o.clsOr 0) 2 then 4 else 1) ∧ ta = o.aNum ∧ tb = o.bNum ∧ b = 0) ∨ (i = .msamp o ∧ op = 2 ∧ ta = fld o.imm.toNat 8 5 ∧ tb = o.bNum ∧ b = fld o.imm.toNat 0 8)
      ∨ (i = .msp24 o ∧ op = 3 ∧ ta = o.aNum ∧ tb = o.bNum ∧ b = 0) →
    s.canIssue o [] →
    let m := s.cx.sr.mctl
    let g := bitOf (o.clsOr 0) 1
    let ec := mf m 27 4
    productBad op g m ta tb = false → (∀ k, k < mLen m → (g = false ∨ (bitsOf (mGang m) 8).head? = some (s.coreNo % 8) → s.co.own (ta + k) = .ctx (s.cur % 8)) ∧ s.co.own (32 + tb + k) = .ctx (s.cur % 8)) →
    (mM m = 0 ∨ mN m = 0 → g = false →
      (bitOf m.toNat 31 = false → exec i s = retired i s)
      ∧ (bitOf m.toNat 31 = true → ∃ t, exec i s = .next t ∧ (∀ n, n < 16 → vget t.co.ec n 0 = if n = ec then vget s.co.ec n 0 + 1 else vget s.co.ec n 0) ∧ t.co.accs = s.co.accs ∧ t.co.mat = s.co.mat))
    ∧ (mM m ≠ 0 → mN m ≠ 0 → g = false → ∀ p, o.dNum < 32 → vget s.cx.tc o.dNum none = some p → s.co.mat.length < 4 → min (productCost op b m) 256 ≤ (s.row (s.coreNo / 8)).balance →
      ∃ t, exec i s = .next t ∧ t.co.mat = s.co.mat ++ [{ matOp op o ta tb b s.cx s.coreNo with tc := p, waits := s.co.covering (matOp op o ta tb b s.cx s.coreNo) }] ∧ (t.row (s.coreNo / 8)).balance = (s.row (s.coreNo / 8)).balance - productCost op b m
        ∧ sameMemory s t ∧ sameContexts s t s.cur ∧ sameRegisters s.cx t.cx [])
    ∧ (mM m ≠ 0 → mN m ≠ 0 → g = true → vget s.cx.tc o.dNum none ≠ none ∨ s.co.freeAccs ≠ [] →
      let u : State := s.setCx { s.cx with wait := .gang (s.tick + budgetTicks s.cx) false, held := some i }
      ∃ t met, exec i s = .next t ∧ t.cx.wait = .gang (s.tick + budgetTicks s.cx) met ∧ t.cx.held = some i ∧ t.cx.pc = s.cx.pc
        ∧ (met = true ↔ ∃ mask, gangMet u (s.coreNo / 8) mask (some s.cur) = true ∧ s.cur ∈ (gangWaiting u (s.coreNo / 8) mask).map (fun e => e.1))
        ∧ (∀ mask, gangMet u (s.coreNo / 8) mask (some s.cur) = true ↔
            let ms := gangWaiting u (s.coreNo / 8) mask
            (∃ e ∈ ms, mGang e.2.2.mctl = mask) ∧ ms.length = (bitsOf mask 8).length ∧ (∀ e ∈ ms, e.1 = s.cur ∨ gangOver u e.1 = false)
            ∧ ((∀ e ∈ ms, (u.ctx e.1).gangHeld = true) ∨ (∃ e ∈ ms, ∃ d ∈ ms, gangKey e.2.2 ≠ gangKey d.2.2) ∨ ∀ e ∈ ms, (u.core (e.1 / 8)).mat = []))
        ∧ t.cores = s.cores ∧ sameMemory s t ∧ sameRegisters s.cx t.cx []))
  ∧ (∀ (xs ys : List Sys2Proof.Num) (a : Nat),
    let c := Fmt.a40.decode a
    (xs.all isFin = true → ys.all isFin = true → isFin c = true →
      ∃ neg m e, (sliceStep xs ys a).1 = (convert Fmt.a40 RNE 0 false (.fin neg m e)).1 ∧ numValue (.fin neg m e) = (List.zipWith (fun x y => numValue x * numValue y) xs ys).sum + numValue c)
    ∧ (∀ pre neg pay sg post, (List.zipWith (fun x y => [x, y]) xs ys).flatten ++ [c] = pre ++ .nan neg pay sg :: post → (∀ x ∈ pre, x.isNan = false) →
      (sliceStep xs ys a).1 = Fmt.a40.nanPat neg pay)
    ∧ ((∀ x ∈ xs, x.isNan = false) → (∀ y ∈ ys, y.isNan = false) → c.isNan = false → (∃ e ∈ List.zip xs ys, (exactMul e.1 e.2).2 = NV) → (sliceStep xs ys a).1 = 0x7FC0000000))
  ∧ (∀ (qs : List Nat) (t : Nat), t < qs.sum → (qs.take (pickSlice t qs 0 0)).sum ≤ t ∧ t < (qs.take (pickSlice t qs 0 0 + 1)).sum)
  ∧ (∀ (core : Nat) (s : State) (m : MatOp) (rest : List MatOp), s.still = false → (s.core core).mat = m :: rest →
    let lead := s.core m.leader
    let c := s.core core
    let a := c.acc m.tc
    let ws := weights m
    let qs := ws.map (quantised (largest ws))
    let nz := (qs.filter (· != 0)).length
    (m.running = false → c.awaits m = false →
      ∃ t n, exec (.matrixOpStart core) s = .next t ∧ (t.core core).mat = n :: rest ∧ n = { m with running := true, na := n.na, nb := n.nb, stale := n.stale }
        ∧ (m.op = 2 → n.na = (t.core core).chainNorms m.ta (mLen m.mctl) ∧ n.nb = (t.core core).chainNorms (32 + m.tb) (mLen m.mctl)
          ∧ ∀ i, i < mLen m.mctl → (t.core core).toRenorm (m.ta + i) (mFmt m.mctl) = [] ∧ (t.core core).toRenorm (32 + m.tb + i) (mFmt m.mctl) = []))
    ∧ (m.running = true → m.gang = false → mM m.mctl ≤ 32 → mN m.mctl ≤ 32 →
      (m.op = 1 ∨ m.op = 3 ∨ m.op = 4 →
        ∃ t, exec (.matrixOpEnd core) s = .next t ∧ (t.core core).mat = rest
          ∧ (mLen m.mctl = 0 → intoAcc m a ((t.core core).acc m.tc) (fun _ _ => 0))
          ∧ (mLen m.mctl ≠ 0 → ∀ x y, x < 32 → y < 32 → ((t.core core).acc m.tc).get x y =
              if x < mM m.mctl ∧ y < mN m.mctl then productAt lead c m x y (if m.acc then a.get x y else 0) % 2 ^ 40 else a.get x y)
          ∧ (let h := ((t.core core).acc m.tc).hdr.toNat
            fld h 208 4 = m.op ∧ fld h 216 5 = mLen m.mctl ∧ fld h 0 192 = 0 ∧ fld h 200 8 = 0 ∧ fld h 224 8 = 0
              ∧ (mLen m.mctl ≠ 0 → fld h 192 5 = (active m.mctl).foldl (fun f e => f ||| (denseAt lead c m e.1 e.2 (if m.acc then a.get e.1 e.2 else 0)).2) 0 % 32))
          ∧ (∀ n, n ≠ m.tc → (t.core core).acc n = c.acc n)
          ∧ (bitOf m.mctl.toNat 31 = true → vget (t.core core).ec (mf m.mctl 27 4) 0 = vget c.ec (mf m.mctl 27 4) 0 + 1)
          ∧ (bitOf m.mctl.toNat 31 = false → (t.core core).ec = c.ec ∧ sameMemory s t ∧ t.ctxs = s.ctxs))
      ∧ (m.op = 2 → m.b < 256 → m.seed < 2 ^ 32 → m.stale ≤ 256 → qs.sum < 2 ^ 32 → 256 ≤ (s.row (core / 8)).balance →
        ∃ t, exec (.matrixOpEnd core) s = .next t ∧ (t.core core).mat = rest ∧ (∀ n, n ≠ m.tc → (t.core core).acc n = c.acc n)
          ∧ (let d := (t.core core).acc m.tc
            let h := d.hdr.toNat
            fld h 208 4 = 2 ∧ fld h 216 5 = mLen m.mctl ∧ fld h 160 8 = m.b ∧ fld h 64 32 = m.seed ∧ fld h 176 9 = m.stale ∧ fld h 96 32 = mf m.mctl 64 32 ∧ fld h 224 8 = 0
            ∧ (mLen m.mctl = 0 ∨ (∀ w ∈ ws, w = 0) → intoAcc m a d (fun _ _ => 0) ∧ fld h 200 4 = 1 ∧ fld h 0 32 = 0 ∧ fld h 128 32 = 0)
            ∧ (mLen m.mctl ≠ 0 → (∃ w ∈ ws, isFin (Fmt.f32.decode w) = false) → intoAcc m a d (fun x y => productAt lead c m x y 0) ∧ fld h 200 4 = 12 ∧ fld h 0 32 = 0)
            ∧ (mLen m.mctl ≠ 0 → (∀ w ∈ ws, isFin (Fmt.f32.decode w) = true) → (∃ w ∈ ws, w ≠ 0) →
              (nz ≤ m.b → intoAcc m a d (fun x y => productAt lead c m x y 0) ∧ fld h 200 4 = 4 ∧ fld h 0 32 = 0)
              ∧ (m.b < nz → fld h 128 32 = qs.sum
                ∧ (mf m.mctl 52 4 = 0 → (sampled lead c m qs).exceeds = false)
                ∧ (m.b = 1 → fld h 0 32 = 0x7F800000)
                ∧ ((sampled lead c m qs).exceeds = false → intoAcc m a d (sampleAt lead c m qs) ∧ fld h 200 4 = 0)
                ∧ ((sampled lead c m qs).exceeds = true → intoAcc m a d (fun x y => productAt lead c m x y 0) ∧ fld h 200 4 = 2))))
          ∧ (bitOf m.mctl.toNat 31 = true → vget (t.core core).ec (mf m.mctl 27 4) 0 = vget c.ec (mf m.mctl 27 4) 0 + 1)
          ∧ (bitOf m.mctl.toNat 31 = false → (t.core core).ec = c.ec ∧ sameMemory s t ∧ t.ctxs = s.ctxs))))
  ∧ (∀ (row : Nat) (mask : BitVec 8) (s : State) (ms : List (Nat × Nat × MatOp)) (key : List Nat), s.still = false → ms ≠ [] →
    (bitsOf mask.toNat 8).map (fun j => gangMember s (8 * row + j)) = ms.map some →
    (∀ e ∈ ms, mGang e.2.2.mctl = mask.toNat ∧ gangKey e.2.2 = key ∧ (s.core (e.1 / 8)).mat = [] ∧ (s.core (e.1 / 8)).operandsBusy e.2.2 = false ∧ (vget (s.ctx e.1).tc e.2.1 none).isSome = true
      ∧ ∀ till met, (s.ctx e.1).wait = .gang till met → met = true ∨ s.tick < till) →
    256 ≤ (s.row row).balance →
    let ta := (ms.map (fun e => e.2.2.ta)).headD 0
    ta + mLen ((ms.map (fun e => e.2.2.mctl)).headD 0) ≤ 32 →
    ∃ t na nb, exec (.gangJoin row mask) s = .next t
      ∧ (∀ e ∈ ms, (t.ctx e.1).wait = .none ∧ ∃ p stale, vget (s.ctx e.1).tc e.2.1 none = some p ∧ (t.core (e.1 / 8)).mat = [{ e.2.2 with tc := p, ta, running := true, na, nb, stale }])
      ∧ ∀ e, ms.head? = some e → e.2.2.op = 2 → na = (t.core (e.1 / 8)).chainNorms e.2.2.ta (mLen e.2.2.mctl) ∧ nb.length = 8 * mLen e.2.2.mctl
        ∧ ∀ i, i < 8 * mLen e.2.2.mctl →
          let xs := ms.map (fun d => Fmt.f32.decode (((t.core (d.1 / 8)).chainNorms (32 + d.2.2.tb) (mLen e.2.2.mctl))[i]?.getD 0))
          (∀ x ∈ xs, x.isNan = false) → nb[i]? = some (convert Fmt.f32 RNE 0 false (exactSum RNE xs).1).1)
  ∧ ∀ (core slot till : Nat) (met : Bool) (s : State) (d : Nat) (m : MatOp),
    let k := 8 * core + slot
    s.still = false → (s.ctx k).wait = .gang till met → gangOp s k = some (d, m) →
    (met = false → till ≤ s.tick → ∃ lead, exec (.gangWaitExpiry core slot) s = .next (s.trapCtx k { cause := 13, xinfo := 2, leader := some lead }))
    ∧ (met = true ∨ s.tick < till → exec (.gangWaitExpiry core slot) s = .next s)

/-- R210 to R213: TNORM and TSTAT deliver a norm table and a header; TZERO clears a bound accumulator; TCVT writes each active element, rounded once, to
L-memory and no other byte; TSPILL and TFILL move the image of an accumulator: at once for `.l`, else by an access that the context waits for. TFILL restores
the elements and the header, whose reserved bits read as 0 (R6, R57); that its bit 197, SAT, comes from the image is the model's reading (log 87). -/
def Obligations.TileTransfers : Prop :=
  let header (h : BitVec 512) (image : Nat) : Prop := ∀ i, i < 512 → h.getLsbD i =
    (image.testBit (40960 + i) && [(0, 147), (160, 185), (192, 198), (200, 204), (208, 212), (216, 221), (224, 232)].any (fun r : Nat × Nat => decide (r.1 ≤ i) && decide (i < r.2)))
  ∀ (o : Ops) (s : State),
    let c := s.cx
    let m := c.sr.mctl
    let x := (c.getG o.aNum).toNat
    let slot := o.aNum + (if bitOf (o.clsOr 0) 1 then 32 else 0)
    let es := (Fmt.ofTy (fld (o.clsOr 0) 0 3)).bits / 8
    (s.canIssue o [rv o.dNum] → bit0Of o 0 = false → s.co.own slot = .ctx (s.cur % 8) → s.co.slotBusy slot = false → s.co.slotInUse slot = false →
      exec (.tnorm o) s = retired (.tnorm o) (pendResult { slot := 0, v := [(o.dNum, (s.co.norm slot).setWidth 1024)] } [rv o.dNum] s))
    ∧ (s.canIssue o [rv o.dNum] → accBusy s o.aNum = false →
      exec (.tstat o) s = retired (.tstat o) (pendResult { slot := 0, v := [(o.dNum, (accRead s o.aNum).hdr.setWidth 1024)] } [rv o.dNum] s))
    ∧ (s.canIssue o [] → accBusy s o.dNum = false → ∀ p, vget c.tc o.dNum none = some p →
      ∃ t, exec (.tzero o) s = .next t ∧ (t.co.acc p).el = 0 ∧ (t.co.acc p).hdr = 0 ∧ (∀ n, n ≠ p → t.co.acc n = s.co.acc n) ∧ sameMemory s t ∧ sameRegisters c t.cx [])
    ∧ (s.canIssue o [rg o.aNum] → accBusy s o.dNum = false → s.co.kept = [] → s.co.scores = [] → Mem.wf s.co.lmem = true → mN m ≤ 32 → mM m ≤ 32 → x % es = 0 → x + 32 * es * 32 ≤ 0x18000 →
      ∃ t, exec (.tcvt o) s = .next t
        ∧ (∀ i j, i < mM m → j < mN m → mread t.co.lmem (x + 32 * es * i + es * j) es =
            (convert (Fmt.ofTy (fld (o.clsOr 0) 0 3)) (fld (o.clsOr 0) 3 3) (mix (c.getSd (mf m 48 4)).toNat (32 * i + j)) false (Fmt.a40.decode ((accRead s o.dNum).get i j))).1 % 256 ^ es)
        ∧ (∀ a, (∀ i j, i < mM m → j < mN m → a < x + 32 * es * i + es * j ∨ x + 32 * es * i + es * j + es ≤ a) → mget t.co.lmem a = mget s.co.lmem a)
        ∧ (∀ n, ((t.co.acc n).el, (t.co.acc n).own) = ((s.co.acc n).el, (s.co.acc n).own)) ∧ sameMemory s t)
    ∧ (s.canIssue o [rg o.aNum] → accBusy s o.dNum = false → bit0Of o 0 = true → x % 16 = 0 → x + 5184 ≤ 0x18000 → s.co.kept = [] → s.co.scores = [] →
      (∃ t, exec (.tspill o) s = .next t ∧ t.co.lmem = mwrite s.co.lmem x 5184 (accImage (accRead s o.dNum)) ∧ t.co.accs = s.co.accs ∧ sameMemory s t ∧ sameRegisters c t.cx [])
      ∧ ∀ p, vget c.tc o.dNum none = some p →
        ∃ t, exec (.tfill o) s = .next t ∧ (t.co.acc p).el = BitVec.ofNat 40960 (mread s.co.lmem x 5184) ∧ header (t.co.acc p).hdr (mread s.co.lmem x 5184) ∧ (∀ n, n ≠ p → t.co.acc n = s.co.acc n) ∧ t.co.lmem = s.co.lmem ∧ sameMemory s t ∧ sameRegisters c t.cx [])
    ∧ (s.canIssue o [rg o.aNum] → accBusy s o.dNum = false → bit0Of o 0 = false → fld x 0 56 % 64 = 0 →
      (∀ ps, s.check (.vstore false) (imageParts (fld x 0 56) 5184) = .ok ps →
        exec (.tspill o) s = waits (.tspill o) (.access s.co.nextId) (s.startAccess s.coreNo
          { id := 0, slot := s.cur % 8, kind := .store, pieces := ps.map (fun e => withData (accImage (accRead s o.dNum)) (pieceOf e)) }))
      ∧ ∀ ps p, s.check (.vload false) (imageParts (fld x 0 56) 5184) = .ok ps → vget c.tc o.dNum none = some p →
        exec (.tfill o) s = waits (.tfill o) (.access s.co.nextId) (s.startAccess s.coreNo { id := 0, slot := s.cur % 8, kind := .load, pieces := ps.map pieceOf, dest := .image none }))
    ∧ (∀ id, c.occ = true → c.wait = .access id →
      (s.waited = none → exec (.tspill o) s = retired (.tspill o) s)
      ∧ ∀ a p, s.waited = some a → a.complete = true → vget c.tc o.dNum none = some p →
        ∃ t, exec (.tfill o) s = .next t ∧ (t.co.acc p).el = BitVec.ofNat 40960 (a.bytes 0) ∧ header (t.co.acc p).hdr (a.bytes 0) ∧ (t.co.acc p).own = .ctx (s.cur % 8) ∧ t.cx.wait = .none)

namespace Sys2Proof.Machine

open Sys2Proof

/-- The engine commands of R222: engine (true for the index engine) and command code. -/
def engineTable : List ((Ops → Instr) × Bool × Nat) := [(.xcopy, false, 1), (.xcopym, false, 2), (.iwalk, true, 3), (.igath, true, 4)]

/-- The value that ECSET, ECADD and BARX take: the immediate, or G[A]. -/
def valueOf (o : Ops) (c : Ctx) : Word := if o.hasImm then wordOf o.imm else c.getG o.aNum

/-- The registers of that form. -/
def valueRegs (o : Ops) : List Nat := if o.hasImm then [] else [rg o.aNum]

/-- The current core has `r` as its newest result on the way, for the current context. -/
def resultSent (s t : State) (g : List (Nat × Word)) : Prop := t.co.results = s.co.results ++ [{ slot := s.cur % 8, g }]

end Sys2Proof.Machine

open Sys2Proof Sys2Proof.Machine

/-- R21, R22, R222, R226, R227, R229: an engine instruction whose descriptor lies in L-memory, under no copy, queues it, whole, with the translation and number of its
continuation and its entry on the scoreboard; a descriptor under a copy is waited for; EGO queues a program; EGO.resume puts the faulting command back at the head and clears its flag; ERDV at a checkpoint goes on when its engine is quiet;
ECSET and ECADD write their counter. -/
def Obligations.EngineInstructions : Prop :=
  ∀ (o : Ops) (s : State),
    let a := (s.cx.getG o.aNum).toNat
    (∀ mk index code, (mk, index, code) ∈ engineTable → s.canIssue o [rg o.aNum] → a % 64 = 0 → a + 64 ≤ 0x18000 → s.co.busy 2 a (a + 64) = false → (s.co.engine index).waiting < 16 → s.co.scores.length < 16 →
      ∃ t c, exec (mk o) s = .next t ∧ (t.co.engine index).queue = (s.co.engine index).queue ++ [.cmd c] ∧ c.addr = a ∧ c.trans = s.cx.trans ∧ c.uid = s.cx.uid ∧ c.index = 0xFFFF
        ∧ (fld (mread s.co.lmem a 8) 60 4 = code → c.w = (List.range 8).map (fun i => BitVec.ofNat 64 (mread s.co.lmem (a + 8 * i) 8))) ∧ (fld (mread s.co.lmem a 8) 60 4 ≠ code → c.malformed index = true)
        ∧ (∀ b lo hi, c.range index = some (b, lo, hi) → { eng := index, cmd := c.id, buf := b, lo, hi } ∈ t.co.scores)
        ∧ sameMemory s t ∧ sameContexts s t s.cur ∧ sameRegisters s.cx t.cx [] ∧ t.co.lmem = s.co.lmem ∧ t.co.ec = s.co.ec)
    ∧ (∀ mk index code, (mk, index, code) ∈ engineTable → s.canIssue o [rg o.aNum] → a % 64 = 0 → a + 64 ≤ 0x18000 → s.co.busy 2 a (a + 64) = true → exec (mk o) s = .next { s with stall := true })
    ∧ (s.canIssue o [rg o.aNum] → a % 64 ≠ 0 → ∀ mk ∈ [Instr.xcopy, .xcopym, .iwalk, .igath, .ego], exec (mk o) s = .next (s.raise { cause := 3, xaddr := BitVec.ofNat 64 a, xinfo := BitVec.ofNat 64 (15 * 4096 + 9 * 256) }))
    ∧ (s.canIssue o [rg o.aNum] → a % 64 = 0 → (s.co.engine (bit0Of o 0)).waiting < 16 →
      ∃ t, exec (.ego o) s = .next t ∧ (t.co.engine (bit0Of o 0)).queue = (s.co.engine (bit0Of o 0)).queue ++ [.prog a (if bitOf (o.clsOr 0) 2 then some o.dNum else none) s.cx.trans s.cx.uid] ∧ sameMemory s t ∧ t.co.ec = s.co.ec)
    ∧ (s.canIssue o [] → (s.co.engine (bit0Of o 0)).fault = none → exec (.egoResume o) s = retired (.egoResume o) s)
    ∧ (s.canIssue o [] → ∀ f, (s.co.engine (bit0Of o 0)).fault = some f →
      ∃ t c, exec (.egoResume o) s = .next t ∧ (t.co.engine (bit0Of o 0)).fault = none ∧ (t.co.engine (bit0Of o 0)).queue = .cmd c :: (s.co.engine (bit0Of o 0)).queue ∧ c.w = f.cmd.w ∧ c.id = f.cmd.id
        ∧ (∀ n, n < 16 → f.ec = some n → vget t.co.ecf n .raised = .clear))
    ∧ (s.canIssue o [] → s.atCheckpoint = true → (s.co.engine (bit0Of o 0)).fault = none → (s.co.engine (bit0Of o 0)).quiet = true → exec (.erdv o) s = retired (.erdv o) s)
    ∧ (s.canIssue o [] → s.atCheckpoint = true → ∀ f, (s.co.engine (bit0Of o 0)).fault = some f → exec (.erdv o) s = .next (s.raise (f.trap (bit0Of o 0))))
    ∧ (s.canIssue o (valueRegs o) → o.dNum < 16 →
      (∃ t, exec (.ecset o) s = .next t ∧ vget t.co.ec o.dNum 0 = BitVec.ofNat 32 (valueOf o s.cx).toNat ∧ (∀ n, n ≠ o.dNum → vget t.co.ec n 0 = vget s.co.ec n 0)
        ∧ (bit0Of o 0 = true → vget t.co.ecf o.dNum .raised = .clear) ∧ sameRegisters s.cx t.cx [])
      ∧ ∃ t, exec (.ecadd o) s = .next t ∧ vget t.co.ec o.dNum 0 = vget s.co.ec o.dNum 0 + BitVec.ofNat 32 (valueOf o s.cx).toNat ∧ (∀ n, n ≠ o.dNum → vget t.co.ec n 0 = vget s.co.ec n 0)
        ∧ sameRegisters s.cx t.cx [])

/-- R72, R223 to R227: the steps of an engine: a command that may start goes into flight with its scoreboard entry, its fault kept for later when it has one;
a source piece is read, a destination piece written with its fe bit; a command whose pieces are all performed leaves, frees its entry, takes its bytes off
its group's counter and adds 1 to its event counter; a fault stops the engine and raises its flag, and a command that faults after it goes back to the
queue; a program begins, reads its descriptors whole and in order, ends at the one whose code is 0, from when what is queued behind it may start (log 33), and when its
commands have completed adds 1 to its counter. A destination piece that changes the bit of a word with parked records sends them to their queues (R69). What becomes of a command that faults is in part
the model's choice: performing none of its pieces when its start has met the fault, and going back to the queue when another fault is kept (log 33); so is the
moment at which a malformed one is taken (log 18). -/
def Obligations.EngineStepsRun : Prop :=
  ∀ (core : Nat) (index : Bool) (s : State),
    let e := (s.core core).engine index
    s.still = false →
    (∀ c, (s.core core).starting index = some c → c.w ≠ [] → c.malformed index = false → s.listHeld core c = true → exec (.engineCommandStart core index) s = .next s)
    ∧ (∀ c, (s.core core).starting index = some c → c.w = [] ∨ c.malformed index = true ∨ s.listHeld core c = false →
      (∀ rd wr, s.build core index c = .ok (rd, wr) → c.bytes ≠ 0 →
        ∃ t, exec (.engineCommandStart core index) s = .next t ∧ ((t.core core).engine index).queue = e.queue.drop 1 ∧ ((t.core core).engine index).flight = e.flight ++ [{ c with rd, wr, lists := s.listPages core c }]
          ∧ ((c.range index).isSome = true → (t.core core).scored index c.id = true) ∧ sameMemory s t ∧ t.ctxs = s.ctxs)
      ∧ ∀ b, s.build core index c = .error b →
        ∃ t lists, exec (.engineCommandStart core index) s = .next t ∧ ((t.core core).engine index).queue = e.queue.drop 1 ∧ ((t.core core).engine index).flight = e.flight ++ [{ c with bad := some b, lists }]
          ∧ ((t.core core).engine index).fault = none ∧ ((c.range index).isSome = true → (t.core core).scored index c.id = true) ∧ sameMemory s t ∧ t.ctxs = s.ctxs)
    ∧ (∀ id c n p, s.findCmd core index id = some c → c.rd[n]? = some p → p.done = false → s.engReady c false p = true →
      exec (.enginePiece core index id false n) s = .next (s.setCmd core index (s.engRead core c n p)))
    ∧ (∀ id c n p, s.findCmd core index id = some c → c.wr[n]? = some p → p.done = false → s.engReady c true p = true → (∀ q ∈ c.rd, q.done = true) → p.space = 3 → p.place = .here →
      s.plain p.pa p.n → s.memWf = true → (c.fem = 0 ∨ s.waitBit p.pa = false) →
      ∃ t, exec (.enginePiece core index id true n) s = .next t ∧ mread t.mem p.pa p.n = mread c.buf p.off p.n ∧ (∀ a, a < p.pa ∨ p.pa + p.n ≤ a → mget t.mem a = mget s.mem a)
        ∧ t.fe p.pa = (if c.fem = 0 then s.fe p.pa else c.newFe p.off) ∧ (∀ a, a / 8 ≠ p.pa / 8 → t.fe a = s.fe a) ∧ t.ctxs = s.ctxs)
    ∧ (∀ id c n p, s.findCmd core index id = some c → c.wr[n]? = some p → p.done = false → s.engReady c true p = true → (∀ q ∈ c.rd, q.done = true) → p.space = 3 → p.place = .here →
      p.n = 8 → p.pa % 8 = 0 → s.plain p.pa p.n → s.memWf = true → c.fem ≠ 0 → s.waitBit p.pa = true → s.tableApart p.pa →
      ∃ t, exec (.enginePiece core index id true n) s = .next t ∧ wakes s t p.pa (c.newFe p.off))
    ∧ (∀ id c n p, s.findCmd core index id = some c → c.wr[n]? = some p → p.done = false → (∀ q ∈ c.rd, q.done = true) → p.space < 3 → Mem.wf ((s.core core).buf p.space) = true →
      ∃ t, exec (.enginePiece core index id true n) s = .next t ∧ mread ((t.core core).buf p.space) p.pa p.n = mread c.buf p.off p.n
        ∧ (∀ a, a < p.pa ∨ p.pa + p.n ≤ a → mget ((t.core core).buf p.space) a = mget ((s.core core).buf p.space) a) ∧ sameMemory s t ∧ t.ctxs = s.ctxs)
    ∧ (∀ id c, s.findCmd core index id = some c → c.bad = none → (∀ p ∈ c.rd ++ c.wr, p.done = true) →
      ∃ t, exec (.engineCommandComplete core index id) s = .next t ∧ (∀ d ∈ ((t.core core).engine index).flight, d.id ≠ id) ∧ (t.core core).scored index id = false
        ∧ (bitOf (c.word 0) 39 = true → s.isLatched core (c.f0 32 3) = false → (t.bar core (c.f0 32 3)).pc = BitVec.ofInt 64 ((s.bar core (c.f0 32 3)).pc.toInt - c.bytes))
        ∧ (∀ n, n < 16 → vget (t.core core).ec n 0 = if bitOf (c.word 0) 49 = true ∧ n = c.f0 45 4 then vget (s.core core).ec n 0 + 1 else vget (s.core core).ec n 0))
    ∧ (∀ id c b, s.faultOf core index id = some (c, b) →
      (e.fault = none →
        ∃ t f, exec (.engineFault core index id) s = .next t ∧ ((t.core core).engine index).fault = some f ∧ f.cause = b.1 ∧ f.xsp = b.2.1 ∧ f.addr = b.2.2 ∧ f.index = c.index ∧ f.cmd = c
          ∧ (t.core core).scores = (s.core core).scores ∧ (∀ n, n < 16 → c.flag = some n → vget (t.core core).ecf n .clear ≠ .clear) ∧ (t.core core).ec = (s.core core).ec)
      ∧ ∀ f, e.fault = some f →
        ∃ t d, exec (.engineFault core index id) s = .next t ∧ ((t.core core).engine index).fault = some f ∧ ((t.core core).engine index).queue = .cmd d :: e.queue ∧ d.w = c.w ∧ d.id = c.id)
    ∧ ((s.core core).starting index = none → e.fault = none →
      (∀ a ec tr u q, e.prog = none → e.queue = .prog a ec tr u :: q →
        ∃ t p, exec (.engineCommandStart core index) s = .next t ∧ ((t.core core).engine index).prog = some p ∧ ((t.core core).engine index).queue = q ∧ p.addr = a ∧ p.next = 0 ∧ p.ec = ec ∧ sameMemory s t)
      ∧ ∀ p, e.prog = some p → (∀ c, .cmd c ∈ e.queue → c.index = 0xFFFF ∧ c.back = false) →
        let a := p.addr + 64 * p.next
        a + 64 ≤ 0x18000 →
        (fld (mread (s.core core).lmem a 8) 60 4 ≠ 0 →
          ∃ t c, exec (.engineCommandStart core index) s = .next t ∧ ((t.core core).engine index).queue = .cmd c :: e.queue ∧ c.addr = a ∧ c.index = p.next ∧ c.ego = p.ec ∧ c.prog = some p.id
            ∧ c.w = (List.range 8).map (fun i => BitVec.ofNat 64 (mread (s.core core).lmem (a + 8 * i) 8)) ∧ ((t.core core).engine index).prog = some { p with next := p.next + 1 } ∧ sameMemory s t)
        ∧ (fld (mread (s.core core).lmem a 8) 60 4 = 0 → ∃ t, exec (.engineCommandStart core index) s = .next t ∧ ((t.core core).engine index).prog = none ∧ ((t.core core).engine index).queue = e.queue
            ∧ ((t.core core).engine index).ends = (if p.ec.isSome then e.ends ++ [p] else e.ends) ∧ (t.core core).ec = (s.core core).ec ∧ sameMemory s t))
    ∧ (∀ p m r, e.ends = p :: r → p.ec = some m → (∀ c ∈ e.flight, c.prog ≠ some p.id) → (∀ c, .cmd c ∈ e.queue → c.prog ≠ some p.id) → (∀ f, e.fault = some f → f.cmd.prog ≠ some p.id) → p ∉ r →
      ∃ t, exec (.engineProgramEnd core index) s = .next t ∧ ((t.core core).engine index).ends = r
        ∧ ∀ n, n < 16 → vget (t.core core).ec n 0 = if n = m then vget (s.core core).ec n 0 + 1 else vget (s.core core).ec n 0)
    ∧ (e.ends = [] → exec (.engineProgramEnd core index) s = .next s)

/-- R230 to R233: a member core's BARR arrives, and latches the phase in the same step when its conditions then hold; BARW goes on when its core has not
arrived, with the acquire, and else waits; BARMX arrives, contributes and leaves G[D] pending; BARX adds to the pending-byte counter. While a phase is
latched, arrivals and counts are kept aside. A core that is no member traps PROT. At the completion every member's count goes up by 1, its arrival and
maximum are cleared, every BARMX of the phase is sent the largest maximum of the members, its BARW waiters go on, both with an acquire, and every counter
of the span is 0. Until its result comes, a BARMX holds back, as an acquire, the accesses and the releases of its context (R145, R278); that it holds back the plain stores
too, and a barrier arrival of another group but not of its own, is the model's reading (log 25). -/
def Obligations.BarrierPhases : Prop :=
  (∀ (g core slot : Nat) (s : State) (a : Access) (p : Piece), g < 8 → (s.bar core g).awaited slot = true →
    s.releaseReady core slot = false ∧ (a.slot = slot → s.pieceReady core a p = false) ∧ ∀ n, n < 8 → n ≠ g → s.coreNo = core → s.cur % 8 = slot → s.barReady n = false)
  ∧   (∀ (o : Ops) (s : State),
    let b (g : Nat) : Bar := s.bar s.coreNo g
    let mem (g : Nat) : Prop := g < 8 ∧ (s.group g).member s.coreNo = true
    let on (g : Nat) : Prop := mem g ∧ s.isLatched s.coreNo g = false
    let no : Trap := { cause := 5, xinfo := BitVec.ofNat 64 (15 * 4096 + 15 * 256 + 7) }
    (s.canIssue o [] → on o.dNum → s.barReady o.dNum = true →
      ∃ t, exec (.barr o) s = .next t ∧ t.bar s.coreNo o.dNum = { b o.dNum with arrived := true } ∧ (∀ g, g ≠ o.dNum → t.bar s.coreNo g = b g) ∧ sameMemory s t ∧ sameRegisters s.cx t.cx []
        ∧ (let g := s.group o.dNum
          let dom := spanOf g.level s.coreNo
          s.coreNo < 1536 → (∀ c ∈ g.members dom, c ≠ s.coreNo → (s.bar c o.dNum).arrived = true ∨ (s.core c).fenced = true) →
            ((spanCores g.level dom).filter (fun c => !(s.core c).fenced)).foldl (fun (x : Int) c => x + (s.bar c o.dNum).pc.toInt) 0 = 0 → (o.dNum, dom) ∈ t.latched))
    ∧ (s.canIssue o [] → mem o.dNum → s.barReady o.dNum = false → exec (.barr o) s = .next { s with stall := true })
    ∧ (s.canIssue o [] → mem o.dNum → s.isLatched s.coreNo o.dNum = true → s.barReady o.dNum = true →
      ∃ t, exec (.barr o) s = .next t ∧ t.bar s.coreNo o.dNum = { b o.dNum with kept := if BarKept.arrive ∈ (b o.dNum).kept then (b o.dNum).kept else (b o.dNum).kept ++ [.arrive] } ∧ sameMemory s t ∧ sameRegisters s.cx t.cx [])
    ∧ (s.canIssue o [] → s.atCheckpoint = true → mem o.dNum →
      exec (.barw o) s = if (b o.dNum).arrived then waits (.barw o) (.barw o.dNum (b o.dNum).phase) s else retired (.barw o) (s.acquire s.coreNo (s.group o.dNum).scope))
    ∧ (s.canIssue o [rg o.dNum, rg o.aNum] → on o.bNum → s.barReady o.bNum = true →
      ∃ t, exec (.barmx o) s = .next t ∧ t.bar s.coreNo o.bNum = { b o.bNum with arrived := true, mx := if (b o.bNum).mx.toNat < (s.cx.getG o.aNum).toNat then s.cx.getG o.aNum else (b o.bNum).mx, waiters := (b o.bNum).waiters ++ [(s.cur % 8, o.dNum)] }
        ∧ t.cx.pending (rg o.dNum) = decide (o.dNum ≠ 0) ∧ sameMemory s t ∧ sameRegisters s.cx t.cx [])
    ∧ (s.canIssue o (valueRegs o) → mem o.dNum →
      ∃ t, exec (.barx o) s = .next t ∧ sameMemory s t ∧ sameRegisters s.cx t.cx []
        ∧ t.bar s.coreNo o.dNum = if s.isLatched s.coreNo o.dNum then { b o.dNum with kept := (b o.dNum).kept ++ [.pc (valueOf o s.cx).toInt] } else { b o.dNum with pc := (b o.dNum).pc + valueOf o s.cx })
    ∧ (s.canIssue o [] → (s.group o.dNum).member s.coreNo = false → exec (.barr o) s = .next (s.raise no) ∧ (s.atCheckpoint = true → exec (.barw o) s = .next (s.raise no)))
    ∧ (s.canIssue o [rg o.dNum, rg o.aNum] → (s.group o.bNum).member s.coreNo = false → exec (.barmx o) s = .next (s.raise no))
    ∧ (s.canIssue o (valueRegs o) → (s.group o.dNum).member s.coreNo = false → exec (.barx o) s = .next (s.raise no)))
  ∧ ∀ (group dom : Nat) (s : State),
    let g := s.group group
    s.still = false → group < 8 →
    (g.level ≠ 0 → g.members dom ≠ [] → (group, dom) ∉ s.latched → (∀ c ∈ g.members dom, (s.bar c group).arrived = true ∨ (s.core c).fenced = true) →
      ((spanCores g.level dom).filter (fun c => !(s.core c).fenced)).foldl (fun (x : Int) c => x + (s.bar c group).pc.toInt) 0 = 0 →
      exec (.barrierPhaseLatch group dom) s = .next { s with latched := s.latched ++ [(group, dom)] })
    ∧ ((group, dom) ∈ s.latched → (∀ c ∈ spanCores g.level dom, (s.bar c group).kept = []) →
      ∃ t, exec (.barrierCompletion group dom) s = .next t ∧ (group, dom) ∉ t.latched
        ∧ (∀ c ∈ g.members dom, (t.bar c group).phase = (s.bar c group).phase + 1 ∧ (t.bar c group).arrived = false ∧ (t.bar c group).mx = 0 ∧ (t.bar c group).waiters = [])
        ∧ (∀ c ∈ g.members dom, ∀ w ∈ (s.bar c group).waiters,
          (∃ x : Word, { slot := w.1, g := [(w.2, x)] } ∈ (t.core c).results ∧ (∀ d ∈ g.members dom, (s.bar d group).mx.toNat ≤ x.toNat) ∧ ∃ d ∈ g.members dom, (s.bar d group).mx = x) ∧ (t.core c).dcache = [])
        ∧ (∀ c ∈ g.members dom, ∀ slot ph o, slot < 8 → (s.ctx (8 * c + slot)).wait = .barw group ph → (s.ctx (8 * c + slot)).held = some (.barw o) →
          (t.ctx (8 * c + slot)).wait = .none ∧ (t.core c).dcache = [])
        ∧ (∀ c ∈ spanCores g.level dom, (t.bar c group).pc = 0) ∧ (group ≠ 7 → sameMemory s t))

namespace Sys2Proof.Machine

open Sys2Proof

/-- The state once a thread of the current core has stored 8 bytes at a translated place (R144). -/
def State.stored (s : State) (p : Phys) (v : Nat) : State := (s.storeHome p.place p.pa 8 v).afterStore s.coreNo true p.place p.pa 8

/-- The control word that R11 and R234 give the child of a context: its priority, group, park enable and retry budget; ckid and the reserved bits are 0;
the superstep flags are 0 (R234, R318). -/
def childWord (c : Ctx) (x : Nat) : Prop :=
  fld x 0 2 = c.prio.toNat ∧ fld x 2 16 = c.group.toNat ∧ fld x 18 17 = 0 ∧ bitOf x 35 = c.parkEnable ∧ fld x 36 2 = 0 ∧ fld x 38 2 = 0 ∧ fld x 40 8 = c.budget ∧ x < 2 ^ 48

/-- A fork's child: the record's address in its context's device context, at its parent's priority. -/
def childOf (c : Ctx) (a : Nat) : QEnt := { rcd := BitVec.ofNat 64 a, dc := c.dc, prio := c.prio.toNat }

end Sys2Proof.Machine

open Sys2Proof Sys2Proof.Machine

/-- R11, R16, R234 to R237: FORK writes the PC and control words of a record, adds 1 to the counter that its join word names, and pushes the record, live;
JOIN takes 1 from its counter in one step, and ends its context while the result is positive, when its results have come, goes on when it is 0 and counts an
error when it is negative; DQPUSH pushes; DQPOP delivers the newest record of its own deque, DQSTEAL the oldest unpinned one of another core's, DQPOP.lq the
head of a port's queue, or 0. That the child's superstep flags are 0, where R11 speaks of its parent's, and that a halting JOIN subtracts before its results have
come, are the model's readings (logs 29 and 38). -/
def Obligations.ForkJoinAndDeques : Prop :=
  ∀ (o : Ops) (s : State),
    let c := s.cx
    let a := fld (c.getG o.aNum).toNat 0 56
    (s.canIssue o [rg o.aNum, rg o.bNum] → a % 64 = 0 → (c.getG o.bNum).getLsbD 0 = false → s.releaseReady s.coreNo (s.cur % 8) = true → s.co.deque.length < 256 → s.memWf = true →
      ∀ e0 e1 e2, s.check .store [{ off := 0, va := a, n := 8 }, { off := 16, va := (a + 16 : Nat), n := 8 }, { off := 24, va := (a + 24 : Nat), n := 8 }] = .ok [e0, e1, e2] →
        s.homesFree [e0, e1, e2] = true → e0.2.place = .here → e2.2.place = .here → e0.2.pa + 8 ≤ e2.2.pa ∨ e2.2.pa + 8 ≤ e0.2.pa → s.plain e0.2.pa 8 →
        let j := s.readHome e1.2.place e1.2.pa 8
        let u1 := s.stored e0.2 (fld (c.getG o.bNum).toNat 0 56)
        u1.plain e2.2.pa 8 →
        ∃ ctl u2, childWord c ctl ∧ u2 = u1.stored e2.2 ctl ∧ mread u2.mem e0.2.pa 8 = fld (c.getG o.bNum).toNat 0 56 ∧ mread u2.mem e2.2.pa 8 = ctl
          ∧ (∀ x, (x < e0.2.pa ∨ e0.2.pa + 8 ≤ x) → (x < e2.2.pa ∨ e2.2.pa + 8 ≤ x) → mget u2.mem x = mget s.mem x)
          ∧ (j = 0 →
            ∃ t, exec (.fork o) s = .next t ∧ .next t = retired (.fork o) ((u2.setDctx c.dc ((u2.dctx c.dc).born 1)).pushDeque s.coreNo (childOf c a))
              ∧ t.co.deque = s.co.deque ++ [{ childOf c a with tick := s.tick }] ∧ (t.dctx c.dc).live = (s.dctx c.dc).live + 1 ∧ sameRegisters c t.cx [] ∧ sameContexts s t s.cur)
          ∧ (j ≠ 0 → j % 8 = 0 → ∀ q : Phys, s.check (.atomic 0) [{ off := 0, va := (fld j 0 56 : Nat), n := 8 }] = .ok [({ off := 0, va := (fld j 0 56 : Nat), n := 8 }, q)] →
            q.place = .here → s.blockBusy q.pa 8 = false → u2.plain q.pa 8 →
            ∃ (t u3 : State), exec (.fork o) s = .next t ∧ .next t = retired (.fork o) ((u3.setDctx c.dc ((u3.dctx c.dc).born 1)).pushDeque s.coreNo (childOf c a))
              ∧ mread u3.mem q.pa 8 = (BitVec.ofNat 64 (mread u2.mem q.pa 8) + 1).toNat ∧ (∀ x, x < q.pa ∨ q.pa + 8 ≤ x → mget u3.mem x = mget u2.mem x)
              ∧ t.co.deque = s.co.deque ++ [{ childOf c a with tick := s.tick }] ∧ (t.dctx c.dc).live = (s.dctx c.dc).live + 1 ∧ sameRegisters c t.cx [] ∧ sameContexts s t s.cur))
    ∧ (s.canIssue o [rg o.aNum] → s.atCheckpoint = true → c.getG o.aNum = 0 → exec (.join o) s = retired (.join o) s)
    ∧ (s.canIssue o [rg o.aNum] → s.atCheckpoint = true → c.getG o.aNum ≠ 0 → a % 8 = 0 → s.releaseReady s.coreNo (s.cur % 8) = true → s.memWf = true →
      ∀ p : Phys, s.check (.atomic 0) [{ off := 0, va := a, n := 8 }] = .ok [({ off := 0, va := a, n := 8 }, p)] → p.place = .here → s.blockBusy p.pa 8 = false → s.plain p.pa 8 →
        let old := BitVec.ofNat 64 (mread s.mem p.pa 8)
        ∃ t, exec (.join o) s = .next t ∧ mread t.mem p.pa 8 = (old - 1).toNat ∧ (∀ x, x < p.pa ∨ p.pa + 8 ≤ x → mget t.mem x = mget s.mem x)
          ∧ (0 < (old - 1).toInt → if c.drained then (t.ctx s.cur).occ = false ∧ (t.dctx c.dc).live = (s.dctx c.dc).live - 1 else t.cx.wait = .access (2 ^ 64) ∧ t.cx.held = some (.join o))
          ∧ ((old - 1).toInt ≤ 0 → t.cx.pc = (c.retire (.join o) o.s).pc ∧ sameRegisters c t.cx [])
          ∧ ((old - 1).toInt < 0 → t.regs = { s.regs with rasjoin := bump s.regs.rasjoin }) ∧ (0 ≤ (old - 1).toInt → t.regs = s.regs))
    ∧ (c.occ = true → c.wait = .access (2 ^ 64) → exec (.join o) s = .next (if c.drained then s.endContext s.cur else { s with stall := true }))
    ∧ (s.canIssue o [rg o.aNum] → a % 64 = 0 → s.releaseReady s.coreNo (s.cur % 8) = true → s.co.deque.length < 256 →
      ∀ e0, s.check .load [{ off := 0, va := (a + 24 : Nat), n := 8 }] = .ok [e0] → s.homesFree [e0] = true →
        ∃ t e, exec (.dqpush o) s = .next t ∧ t.co.deque = s.co.deque ++ [e] ∧ e.rcd = BitVec.ofNat 64 a ∧ e.prio = fld (s.readHome e0.2.place e0.2.pa 8) 0 2 ∧ e.pin = none ∧ sameRegisters c t.cx [])
    ∧ (s.canIssue o [rg o.dNum] →
      (s.co.deque = [] → ∃ t, exec (.dqpop o) s = .next t ∧ resultSent s t [(o.dNum, 0)] ∧ t.co.deque = [])
      ∧ ∀ l e, s.co.deque = l ++ [e] → ∃ t, exec (.dqpop o) s = .next t ∧ resultSent s t [(o.dNum, e.rcd)] ∧ t.co.deque = l ∧ t.co.dcache = [] ∧ sameMemory s t ∧ sameRegisters c t.cx [])
    ∧ (s.canIssue o [rg o.dNum, rg o.aNum] → (c.getG o.aNum).toNat ≤ 31 →
      let k := s.coreNo / 32 * 32 + (c.getG o.aNum).toNat
      ((∀ e ∈ (s.core k).deque, e.pin ≠ none) ∨ (s.core k).fenced = true ∨ s.co.fenced = true →
        ∃ t, exec (.dqsteal o) s = .next t ∧ resultSent s t [(o.dNum, 0)] ∧ (t.core k).deque = (s.core k).deque)
      ∧ ∀ l e r, (s.core k).fenced = false → s.co.fenced = false → (s.core k).deque = l ++ e :: r → (∀ x ∈ l, x.pin ≠ none) → e.pin = none →
        ∃ t, exec (.dqsteal o) s = .next t ∧ resultSent s t [(o.dNum, e.rcd)] ∧ (t.core k).deque = l ++ r ∧ t.co.dcache = [] ∧ sameMemory s t ∧ sameRegisters c t.cx [])
    ∧ (s.canIssue o [rg o.dNum, rg (o.dNum + 1), rg o.aNum] →
      let l := (c.getG o.aNum).toNat
      l ≤ 23 → s.coreNo / 32 = 2 * l →
      ((s.port l).queue = [] → ∃ t, exec (.dqpopLq o) s = .next t ∧ resultSent s t [(o.dNum, 0), (o.dNum + 1, 0)])
      ∧ ∀ e r, (s.port l).queue = e :: r →
        ∃ t, exec (.dqpopLq o) s = .next t ∧ resultSent s t [(o.dNum, BitVec.ofNat 64 (2 ^ 63 + e.1)), (o.dNum + 1, BitVec.ofNat 64 e.2)] ∧ (t.port l).queue = r ∧ t.co.dcache = [])

namespace Sys2Proof.Machine

open Sys2Proof

/-- The region numbered n of a device context, as HANDOFF and CAPQ find it. -/
def State.regionOf (s : State) (dc n : Nat) : Option Region := ((s.dctx dc).regions.find? (fun e => e.1 == n)).map (fun e => e.2)

/-- Where the region table of a device context has the owner word of region n (R358). -/
def State.ownerAt (s : State) (dc n : Nat) : Nat := fld (s.dctx dc).rtbase.toNat 16 40 * 2 ^ 16 + 16 * n + 8

/-- The owner word of region n in the region table of a device context (R358). -/
def State.ownerWord (s : State) (dc n : Nat) : Nat := mread s.mem (s.ownerAt dc n) 4

/-- The message of R240 that a send with words `a` and `b` has placed, from state s to state t, at offset `at_` of its ring: length, sender, tag and
payload; the ring's tail lies past it, and a pad marker stands at the old tail when one is needed. -/
def messagePlaced (s t : State) (a b at_ : Nat) (pad : Bool) : Prop :=
  let len := fld b 0 13
  let d := t.core (fld b 32 11)
  let r := (s.core (fld b 32 11)).ring (fld b 16 2)
  mread d.lmem (r.base + at_) 2 = len ∧ mread d.lmem (r.base + at_ + 2) 2 = s.coreNo % 2 ^ 16 ∧ mread d.lmem (r.base + at_ + 6) 2 = fld b 48 16
  ∧ (∀ j, j < len → mget d.lmem (r.base + at_ + 16 + j) = mget s.co.lmem (a + j))
  ∧ (pad = true → mread d.lmem (r.base + r.tail) 2 = 0xFFFF)
  ∧ (d.ring (fld b 16 2)).tail = (at_ + 16 + roundUp len 16) % r.size

/-- The words of a send that R241 accepts, its payload under no copy and its release over, and its ring's memory in canonical form. -/
def State.maySend (s : State) (a b : Nat) : Prop :=
  let len := fld b 0 13
  len ≤ 4096 ∧ fld b 13 3 = 0 ∧ fld b 18 14 = 0 ∧ fld b 43 5 = 0 ∧ fld b 32 11 ≤ 1535 ∧ ((s.core (fld b 32 11)).ring (fld b 16 2)).size ≠ 0 ∧ (len = 0 ∨ a + len ≤ 0x18000)
  ∧ s.co.busy 2 a (a + len) = false ∧ s.releaseReady s.coreNo (s.cur % 8) = true ∧ Mem.wf (s.core (fld b 32 11)).lmem = true

end Sys2Proof.Machine

open Sys2Proof Sys2Proof.Machine

/-- R238 to R242, R322, R358: in superstep mode HANDOFF of an owned region puts it in transit, behind the stores and accesses named in it, and its arrival
makes it the other core's; CAPQ delivers the owner; a shared-read-only region returns at the superstep boundary. SSEND takes its four steps, its exchange
unchecked between the two completions of group 7; one that has arrived for a phase, and is tried again, waits for that phase and does not arrive again (R326).
HANDOFF waits for the BARMX results of its context, and a write of the region table waits while a commit is in progress on its word, as log 25 reads R81 and R278.
Three points are the model's: HANDOFF behind every access of its context, and the value for no region, the same each time (log 42), the exchange and the
arrival kept for each continuation (log 64), and a ring whose pointers are out of range (log 35). MSGSEND places a message in a ring with room, or tries again; MSGRECV delivers the oldest message's address
past a pad marker, or 0, and frees it under `.ack`. A retried send that finds room completes. -/
def Obligations.RegionsAndMessages : Prop :=
  (∀ (o : Ops) (s : State),
    let c := s.cx
    let n := (c.getG o.aNum).toNat
    let to_ := (c.getG o.bNum).toNat
    let cap := c.sr.capmode.getLsbD 0
    let k := s.coreNo
    let mark := (s.co.ss.find? (fun e => e.1 == c.uid)).map (fun e => e.2)
    let arrives (t : State) (st : Nat) : Prop := t.cx.wait = .barw 7 (s.bar k 7).phase ∧ t.cx.sstep = BitVec.ofNat 2 st ∧ t.cx.held = some (.ssend o)
      ∧ (if s.isLatched k 7 then BarKept.arrive ∈ (t.bar k 7).kept else (t.bar k 7).arrived = true)
      ∧ tget t.co.ss c.uid .ended = if s.isLatched k 7 then .kept st else .arrived st
    (s.canIssue o [rg o.aNum, rg o.bNum] →
      (4095 < n ∨ (1535 < to_ ∧ to_ ≠ 0xFFFF) → exec (.handoff o) s = .next (s.raise { cause := 5, xinfo := BitVec.ofNat 64 (15 * 4096 + 15 * 256 + 7) }))
      ∧ (n ≤ 4095 → (to_ ≤ 1535 ∨ to_ = 0xFFFF) →
        (cap = false → exec (.handoff o) s = .next (s.raise { cause := 6, xinfo := BitVec.ofNat 64 (n + 0xFFFD * 2 ^ 32) }))
        ∧ (cap = true → s.regionOf c.dc n = none → exec (.handoff o) s = .next (s.raise { cause := 6, xinfo := BitVec.ofNat 64 (n + (Config.noRegion n).toNat * 2 ^ 32) }))
        ∧ (cap = true → ∀ r, s.regionOf c.dc n = some r →
          (r.shown ≠ k → exec (.handoff o) s = .next (s.raise { cause := 6, xinfo := BitVec.ofNat 64 (n + r.shown * 2 ^ 32) }))
          ∧ (r.shown = k → s.co.awaitsMx (s.cur % 8) = true → exec (.handoff o) s = .next { s with stall := true })
          ∧ (r.shown = k → s.co.awaitsMx (s.cur % 8) = false → s.memWf = true → ∃ t ids, exec (.handoff o) s = .next t ∧ tget (t.dctx c.dc).regions n r = { r with transit := some (to_, k, ids) } ∧ (∀ x ∈ s.co.flight, x.slot = s.cur % 8 → x.id ∈ ids)
            ∧ (s.blockBusy (s.ownerAt c.dc n) 4 = false → t.ownerWord c.dc n % 2 ^ 16 = 0xFFFE) ∧ (s.blockBusy (s.ownerAt c.dc n) 4 = true → sameMemory s t ∧ ∃ v, t.late = s.late ++ [(s.ownerAt c.dc n, 4, v)] ∧ v % 2 ^ 16 = 0xFFFE) ∧ t.ctxs = tset s.ctxs s.cur (c.retire (.handoff o) o.s)))))
    ∧ (s.canIssue o [rg o.dNum, rg o.aNum] →
      (cap = false → ∃ t, exec (.capq o) s = .next t ∧ resultSent s t [(o.dNum, 0xFFFD)])
      ∧ (cap = true → s.regionOf c.dc n = none → ∃ t, exec (.capq o) s = .next t ∧ resultSent s t [(o.dNum, BitVec.ofNat 64 (Config.noRegion n).toNat)])
      ∧ (cap = true → ∀ r, s.regionOf c.dc n = some r → ∃ t, exec (.capq o) s = .next t ∧ resultSent s t [(o.dNum, BitVec.ofNat 64 r.shown)] ∧ (r.shown = k → t.co.dcache = [])))
    ∧ (s.canIssue o [rg o.aNum] → s.atCheckpoint = true →
      (cap = false → exec (.ssend o) s = .next (s.raise { cause := 6, xinfo := BitVec.ofNat 64 (0x1FFF + 0xFFFD * 2 ^ 32) }))
      ∧ (cap = true → (s.group 7).member k = false → c.sstep ≠ 2 → exec (.ssend o) s = .next (s.raise { cause := 5, xinfo := BitVec.ofNat 64 (15 * 4096 + 15 * 256 + 7) }))
      ∧ (cap = true → (s.group 7).member k = true → c.sstep = 0 → s.barReady 7 = true → ∃ t, exec (.ssend o) s = .next t ∧ arrives t 1)
      ∧ (cap = true → (s.group 7).member k = true → c.sstep = 1 ∨ c.sstep = 3 → ∀ m, mark = some m → m ≠ .ended → exec (.ssend o) s = waits (.ssend o) (.barw 7 (s.bar k 7).phase) s))
    ∧ (∀ ph, c.occ = true → c.wait = .barw 7 ph → cap = true → (s.group 7).member k = true →
      (c.sstep = 1 ∨ c.sstep = 3 → (∃ m, mark = some m ∧ m ≠ .ended) ∨ (mark = none ∧ c.sstep = 1 ∧ (s.bar k 7).phase = ph) → exec (.ssend o) s = .next { s with stall := true })
      ∧ (c.sstep = 1 → mark = some .ended ∨ (mark = none ∧ (s.bar k 7).phase ≠ ph) →
        (n = 0 → ∃ t, exec (.ssend o) s = .next t ∧ t.cx.wait = .erdv ∧ t.cx.sstep = 2 ∧ thas t.co.ss c.uid = false ∧ t.co.copy.queue = s.co.copy.queue ∧ t.co.dcache = [])
        ∧ (n ≠ 0 → n % 64 = 0 → s.co.copy.waiting < 16 →
          ∃ t, exec (.ssend o) s = .next t ∧ t.cx.wait = .erdv ∧ t.cx.sstep = 2 ∧ thas t.co.ss c.uid = false ∧ t.co.copy.queue = s.co.copy.queue ++ [.prog n none c.trans c.uid] ∧ t.co.dcache = []))
      ∧ (c.sstep = 3 → mark = some .ended → ∃ t, exec (.ssend o) s = .next t ∧ t.cx.wait = .none ∧ t.cx.sstep = 0 ∧ t.cx.pc = (c.retire (.ssend o) o.s).pc ∧ thas t.co.ss c.uid = false ∧ t.co.dcache = []
          ∧ sameMemory s t ∧ sameRegisters c t.cx []))
    ∧ (c.occ = true → c.wait = .erdv → cap = true →
      (c.sstep = 2 → (∀ f, s.co.copy.fault = some f → exec (.ssend o) s = .next (s.raise (f.trap false)))
        ∧ (s.co.copy.fault = none → s.co.copy.quiet = true → ∃ t, exec (.ssend o) s = .next t ∧ t.cx.wait = .erdv ∧ t.cx.sstep = 3 ∧ sameMemory s t))
      ∧ (c.sstep = 3 → mark = none → (s.group 7).member k = true → s.barReady 7 = true → ∃ t, exec (.ssend o) s = .next t ∧ arrives t 3))
    ∧ (s.canIssue o [rg o.dNum] →
      let i := o.a.toNat
      let r := s.co.ring i
      let len (h : Nat) := mread s.co.lmem (r.base + h) 2
      s.co.busy 2 (ringAt i) (ringAt i + 16) = false → Mem.wf s.co.lmem = true →
      (r.size = 0 ∨ r.head = r.tail → len r.head ≠ 0xFFFF → ∃ t, exec (.msgrecv o) s = .next t ∧ resultSent s t [(o.dNum, 0)] ∧ t.co.lmem = s.co.lmem ∧ sameMemory s t)
      ∧ (r.size ≠ 0 → r.head ≠ r.tail → s.co.busy 2 (r.base + r.head) (r.base + r.head + 16) = false →
        (len r.head ≠ 0xFFFF →
          ∃ t, exec (.msgrecv o) s = .next t ∧ resultSent s t [(o.dNum, BitVec.ofNat 64 (2 ^ 63 + r.base + r.head))] ∧ t.co.dcache = []
            ∧ (bit0Of o 0 = false → t.co.lmem = s.co.lmem) ∧ (bit0Of o 0 = true → (t.co.ring i).head = (r.head + 16 + roundUp (len r.head) 16) % r.size))
        ∧ (len r.head = 0xFFFF → s.co.busy 2 r.base (r.base + 16) = false →
          (r.tail = 0 → ∃ t, exec (.msgrecv o) s = .next t ∧ resultSent s t [(o.dNum, 0)] ∧ (t.co.ring i).head = 0)
          ∧ (r.tail ≠ 0 → ∃ t, exec (.msgrecv o) s = .next t ∧ resultSent s t [(o.dNum, BitVec.ofNat 64 (2 ^ 63 + r.base))] ∧ t.co.dcache = []
            ∧ (t.co.ring i).head = if bit0Of o 0 then (16 + roundUp (len 0) 16) % r.size else 0)))))
  ∧ (∀ (o : Ops) (s : State),
    let a := (s.cx.getG o.aNum).toNat
    let b := (s.cx.getG o.bNum).toNat
    let r := (s.core (fld b 32 11)).ring (fld b 16 2)
    s.canIssue o [rg o.aNum, rg o.bNum] → s.maySend a b →
    (∀ x pad, r.place (16 + roundUp (fld b 0 13) 16) = some (x, pad) → ∃ t, exec (.msgsend o) s = .next t ∧ messagePlaced s t a b x pad ∧ sameMemory s t ∧ sameRegisters s.cx t.cx [])
    ∧ (r.place (16 + roundUp (fld b 0 13) 16) = none →
      exec (.msgsend o) s = if 0 < s.cx.budget then waits (.msgsend o) (.retry 0 (s.tick + 1)) s else .next (s.raise { cause := 7, xinfo := 4 })))
  ∧ (∀ (core slot j till : Nat) (o : Ops) (s : State),
    let k := 8 * core + slot
    let s' : State := { s with cur := k }
    let a := ((s.ctx k).getG o.aNum).toNat
    let b := ((s.ctx k).getG o.bNum).toNat
    let r := (s.core (fld b 32 11)).ring (fld b 16 2)
    s.still = false → (s.ctx k).occ = true → (s.ctx k).wait = .retry j till → till ≤ s.tick → (s.ctx k).held = some (.msgsend o) → s'.maySend a b →
    (∀ x pad, r.place (16 + roundUp (fld b 0 13) 16) = some (x, pad) → ∃ t, exec (.msgsendRetry core slot) s = .next t ∧ (t.ctx k).wait = .none ∧ messagePlaced s' t a b x pad ∧ sameMemory s t)
    ∧ (r.place (16 + roundUp (fld b 0 13) 16) = none → j + 1 < (s.ctx k).budget → ∃ t, exec (.msgsendRetry core slot) s = .next t ∧ (t.ctx k).wait = .retry (j + 1) (s.tick + backoff (j + 1))))
  ∧ (∀ (dc region to_ src : Nat) (ids : List Nat) (r : Region) (s : State), s.still = false → s.resident = some dc → s.regionOf dc region = some r → r.transit = some (to_, src, ids) →
    (∀ a ∈ (s.core src).flight, a.id ∉ ids) → s.memWf = true →
    let q : Region := { r with owner := to_, sharer := if to_ = 0xFFFF then src else 0, transit := none }
    ∃ t, exec (.regionArrival region) s = .next t ∧ tget (t.dctx dc).regions region r = q
      ∧ (s.blockBusy (s.ownerAt dc region) 4 = false → t.ownerWord dc region = to_ % 2 ^ 16 + q.sharer % 2 ^ 16 * 2 ^ 16)
      ∧ (s.blockBusy (s.ownerAt dc region) 4 = true → sameMemory s t ∧ t.late = s.late ++ [(s.ownerAt dc region, 4, to_ % 2 ^ 16 + q.sharer % 2 ^ 16 * 2 ^ 16)]))
  ∧ ∀ (dom : Nat) (s : State),
    let ms := (s.group 7).members dom
    s.still = false → (7, dom) ∈ s.latched →
    ((∀ c ∈ ms, (s.core c).ssends 3 = []) → ∃ t, exec (.barrierCompletion 7 dom) s = .next t ∧ ∀ c ∈ ms, (∀ u ∈ (s.core c).ssends 1, u ∈ (t.core c).exch)
      ∧ (t.core c).ss = (s.core c).ss.map (fun (e : Nat × SsMark) => (e.1, match e.2 with | .kept n => .arrived n | _ => .ended)))
    ∧ ((∃ c ∈ ms, (s.core c).ssends 3 ≠ []) → ∀ dc, s.resident = some dc → ((s.dctx dc).regions.map (fun e => e.1)).Nodup →
      ∃ t, exec (.barrierCompletion 7 dom) s = .next t ∧ (∀ c ∈ ms, (t.core c).exch = [])
        ∧ ∀ n r, s.regionOf dc n = some r → tget (t.dctx dc).regions n r = if r.transit = none ∧ r.owner = 0xFFFF then { r with owner := r.sharer, sharer := 0 } else r)

namespace Sys2Proof.Machine

open Sys2Proof

/-- The status registers of R245 that a context holds, but for `xstat` and `mctl`: number, value, and the bits that are not reserved. -/
def statusTable : List (Nat × (SRegs → Word) × Nat) := [
  (1, SRegs.xcause, 2 ^ 8 - 1), (2, SRegs.xpc, 2 ^ 56 - 1), (3, SRegs.xaddr, 2 ^ 64 - 1), (4, SRegs.xinfo, 2 ^ 64 - 1), (5, SRegs.tvec, 2 ^ 56 - 1), (6, SRegs.rbudget, 2 ^ 8 - 1),
  (7, SRegs.parkctl, 1), (8, SRegs.xflags, 2 ^ 6 - 1), (9, SRegs.xenable, 2 ^ 6 - 1), (11, SRegs.qbase, 2 ^ 56 - 1), (12, SRegs.ckbase, 2 ^ 56 - 1), (13, SRegs.prvbase, 2 ^ 56 - 1),
  (14, SRegs.hbase, 2 ^ 56 - 1), (15, SRegs.hlimit, 2 ^ 56 - 1), (16, SRegs.hoffset, 2 ^ 64 - 1), (17, SRegs.ctxid, 2 ^ 16 - 1), (21, SRegs.capmode, 1)]

/-- The value of each status register but `mctl`. -/
def State.statusValues (s : State) : List (Nat × Word) :=
  statusTable.map (fun e => (e.1, e.2.1 s.cx.sr)) ++ [(0, s.cx.sr.xstat), (18, BitVec.ofNat 64 s.coreNo), (19, s.now), (20, BitVec.ofNat 64 s.co.fduty.toNat)]

/-- The privileged-instruction form of PROT (R244). -/
def privilegedTrap (n : Nat) : Trap := { cause := 5, xinfo := BitVec.ofNat 64 (2 ^ 62 + n) }

/-- Cethen has answered a request: its caller's FWCALL has completed with the status in G[D], and the request has left the queue (R250). -/
def answered (s t : State) (q : FwReq) (o : Ops) (status : Nat) : Prop :=
  (t.ctx (8 * q.core + q.slot)).getG o.dNum = (if o.dNum = 0 then 0 else BitVec.ofNat 64 status) ∧ (t.ctx (8 * q.core + q.slot)).wait = .none
    ∧ t.fwq = s.fwq.drop 1

/-- The request `q` of the FWCALL `o` stands at the head of Cethen's queue, for a service, and no page request waits for the driver. -/
def State.asked (s : State) (q : FwReq) (o : Ops) (svc : Nat) : Prop :=
  s.ready = true ∧ s.posted = none ∧ (∃ r, s.fwq = q :: r) ∧ q.svc = svc ∧ (s.ctx (8 * q.core + q.slot)).wait = .fw q.id ∧ (s.ctx (8 * q.core + q.slot)).held = some (.fwcall o)

end Sys2Proof.Machine

open Sys2Proof Sys2Proof.Machine

/-- R244, R245, R248, R249, R255: MFS delivers a status register's value where the mode permits it; MTS writes one, plain or by `.set` and `.clr`, but
for its reserved bits, and an odd `tvec` or an unaligned `ckbase` traps ALIGN; an access that the mode does not permit traps PROT. TRET returns to `xpc` with the mode and
suspensions that `xstat` kept, an odd `xpc` traps ALIGN. PGLOB turns a private address into the address it stands for. R6, R246, R381, R382: a step keeps the
reserved bits of `xstat` and `xenable` at 0, every duty from 1 to 16 and every balance at most 256; and but for TRET, and for SWITCH_SAVE_AND_LOAD, which puts saved
contexts back, nothing changes the mode or the suspensions of a context save taking a trap. The `xaddr` of an ALIGN trap, bits 55:0 of the value, is the model's
reading (log 58). -/
def Obligations.StatusRegistersAndTrapReturn : Prop :=
  (∀ s t : State, s.regsWf → step s = .next t → t.regsWf) ∧ State.reset.regsWf
  ∧ (∀ (i : Instr) (s t : State) (k : Nat), (∀ o, i ≠ .tret o) → i ≠ .switchSaveAndLoad → exec i s = .next t → (s.ctx k).occ = true → (t.ctx k).occ = true → (t.ctx k).uid = (s.ctx k).uid →
    (∀ b, b = 0 ∨ b = 2 ∨ b = 3 → (t.ctx k).sr.xstat.getLsbD b = (s.ctx k).sr.xstat.getLsbD b) ∨ ((t.ctx k).super = true ∧ (t.ctx k).pc = (t.ctx k).sr.tvec))
  ∧ ∀ (o : Ops) (s : State),
    let c := s.cx
    let readable (n : Nat) : Prop := c.super = true ∨ (6 ≤ n ∧ n ≠ 16)
    let writable (n : Nat) : Prop := (c.super = true ∧ n ≠ 18 ∧ n ≠ 19 ∧ n ≠ 20) ∨ (6 ≤ n ∧ n ≤ 11)
    (∀ v, (o.aNum, v) ∈ s.statusValues → readable o.aNum → s.canIssue o [rg o.dNum] →
      ∃ t, exec (.mfs o) s = .next t ∧ resultSent s t [(o.dNum, v)] ∧ t.cx.pending (rg o.dNum) = decide (o.dNum ≠ 0) ∧ sameMemory s t ∧ sameRegisters c t.cx [] ∧ t.cx.sr = c.sr)
    ∧ (o.aNum = 10 → s.canIssue o [rg o.dNum, rg (o.dNum + 1)] →
      ∃ t, exec (.mfs o) s = .next t ∧ resultSent s t [(o.dNum, BitVec.ofNat 64 c.sr.mctl.toNat), (o.dNum + 1, BitVec.ofNat 64 (c.sr.mctl.toNat / 2 ^ 64))] ∧ sameMemory s t ∧ sameRegisters c t.cx [])
    ∧ (∀ get mask, (o.dNum, get, mask) ∈ statusTable → writable o.dNum → s.canIssue o [rg o.aNum] →
      let g := c.getG o.aNum
      let x := match o.clsOr 0 % 4 with | 1 => get c.sr ||| g | 2 => get c.sr &&& ~~~g | _ => g
      let bad : Prop := (o.dNum = 5 ∧ x.toNat % 2 = 1) ∨ (o.dNum = 12 ∧ x.toNat % 64 ≠ 0)
      (bad → exec (.mts o) s = .next (s.raise { cause := 3, xaddr := x &&& BitVec.ofNat 64 (2 ^ 56 - 1), xinfo := BitVec.ofNat 64 (15 * 4096 + 15 * 256) }))
      ∧ (¬bad → ∃ t, exec (.mts o) s = .next t ∧ get t.cx.sr = x &&& BitVec.ofNat 64 mask ∧ t.cx.sr.xstat = c.sr.xstat ∧ t.cx.sr.mctl = c.sr.mctl
          ∧ (∀ m get' mask', (m, get', mask') ∈ statusTable → m ≠ o.dNum → get' t.cx.sr = get' c.sr) ∧ sameMemory s t ∧ sameRegisters c t.cx []))
    ∧ (o.dNum = 0 → c.super = true → s.canIssue o [rg o.aNum] →
      let g := c.getG o.aNum
      let x := match o.clsOr 0 % 4 with | 1 => c.sr.xstat ||| g | 2 => c.sr.xstat &&& ~~~g | _ => g
      ∃ t, exec (.mts o) s = .next t ∧ (∀ i, i < 64 → t.cx.sr.xstat.getLsbD i = if i = 1 ∨ i = 4 ∨ i = 5 then x.getLsbD i else c.sr.xstat.getLsbD i)
        ∧ t.cx.sr = { c.sr with xstat := t.cx.sr.xstat } ∧ sameMemory s t ∧ sameRegisters c t.cx [])
    ∧ (o.dNum = 10 → s.canIssue o [rg o.aNum, rg (o.aNum + 1)] →
      let g : BitVec 128 := c.getG (o.aNum + 1) ++ c.getG o.aNum
      let x := (match o.clsOr 0 % 4 with | 1 => c.sr.mctl ||| g | 2 => c.sr.mctl &&& ~~~g | _ => g).toNat
      (mctlBad s.coreNo x = true → exec (.mts o) s = .next (s.raise { cause := 1, xinfo := 9 }))
      ∧ (mctlBad s.coreNo x = false → ∃ t, exec (.mts o) s = .next t ∧ t.cx.sr = { c.sr with mctl := mctlOf x } ∧ sameMemory s t ∧ sameRegisters c t.cx []))
    ∧ (¬readable o.aNum → o.aNum ≠ 10 → s.canIssue o [rg o.dNum] → exec (.mfs o) s = .next (s.raise (privilegedTrap o.aNum)))
    ∧ (¬writable o.dNum → o.dNum ≠ 10 → s.canIssue o [rg o.aNum] → exec (.mts o) s = .next (s.raise (privilegedTrap o.dNum)))
    ∧ (c.super = false → s.canIssue o [] → exec (.tret o) s = .next (s.raise (privilegedTrap 0)))
    ∧ (c.super = true → c.drained = true → c.sr.xpc.getLsbD 0 = true → s.canIssue o [] → exec (.tret o) s = .next (s.raise { cause := 3, xaddr := c.sr.xpc &&& BitVec.ofNat 64 (2 ^ 56 - 1), xinfo := BitVec.ofNat 64 (15 * 4096 + 15 * 256) }))
    ∧ (c.super = true → c.drained = true → c.sr.xpc.getLsbD 0 = false → s.canIssue o [] →
      ∃ t, exec (.tret o) s = .next t ∧ t.cx.pc = BitVec.ofNat 64 (c.sr.xpc.toNat % 2 ^ 56) ∧ t.cx.sr.xstat.getLsbD 0 = c.sr.xstat.getLsbD 1 ∧ t.cx.sr.xstat.getLsbD 1 = c.sr.xstat.getLsbD 1
        ∧ t.cx.sr.xstat.getLsbD 2 = c.sr.xstat.getLsbD 4 ∧ t.cx.sr.xstat.getLsbD 3 = c.sr.xstat.getLsbD 5 ∧ t.cx.sr.xstat.getLsbD 4 = c.sr.xstat.getLsbD 4 ∧ t.cx.sr.xstat.getLsbD 5 = c.sr.xstat.getLsbD 5
        ∧ t.cx.sr = { c.sr with xstat := t.cx.sr.xstat } ∧ t.cx.l0 = c.l0 ∧ t.cx.l1 = c.l1 ∧ sameRegisters c t.cx [] ∧ sameMemory s t ∧ sameContexts s t s.cur)
    ∧ (s.canIssue o [rg o.dNum, rg o.aNum] →
      let x := (c.getG o.aNum).toNat
      let a := x % 2 ^ 56
      let g := c.sr.prvbase.toNat + (a - 0x00FF000000000000)
      (a < 0x00FF000000000000 → exec (.pglob o) s = retired (.pglob o) (s.setCx (c.setG o.dNum (c.getG o.aNum))))
      ∧ (0x00FF000000000000 ≤ a → g < 2 ^ 56 → exec (.pglob o) s = retired (.pglob o) (s.setCx (c.setG o.dNum (BitVec.ofNat 64 (x / 2 ^ 56 * 2 ^ 56 + g)))))
      ∧ (0x00FF000000000000 ≤ a → 2 ^ 56 ≤ g → exec (.pglob o) s = .next (s.raise { cause := 5, xaddr := BitVec.ofNat 64 g, xinfo := BitVec.ofNat 64 (15 * 4096 + 15 * 256 + 4) })))

/-- R47, R104, R107, R131 to R134, R254: the ways in which a wait ends. WAITC completes with 1 when its combination holds, with 0 when a counter that it names has a raised flag,
which becomes reported, traps ENGINE when one is reported already, and else waits with p[D] pending, or under `.park` leaves its core; a probe's answer completes it when the combination
then holds, but not after its deadline, and its core's copy of the word goes; its time-out writes 0. That nothing is evaluated after the deadline is the model's
reading (log 31); the model's choices are that the issuing context takes a raised flag (log 66), the counter and the engine that an ENGINE trap reports (log 81), and that the
copy of the word goes (log 10). IDLE completes when its tick has come, and else waits for it. A trap is entered when the last result has arrived. A result
is written back to its register with its flags. A report window closes with the trap of the lowest index. -/
def Obligations.WaitsEnd : Prop :=
  (∀ (o : Ops) (s : State),
    let c := s.cx
    let ws := condWords o c
    let holds := combination s.co (waitcAll o) ws (firstProbes c ws)
    let parks : Prop := bitOf (o.clsOr 0) 4 = true ∧ c.getG o.bNum = 0 ∧ ∀ w ∈ ws, condKind w ≤ 1
    (s.canIssue o (grp rg o.aNum (groupSize o) ++ [rg o.bNum, rp o.dNum] ++ condMasks ws) → s.atCheckpoint = true → ws.any condBad = false → waitcWords s ws = none →
      (∀ n, reportedCounter s.co ws = some n → exec (.waitc o) s = .next (s.raise (s.co.ecTrap n)))
      ∧ ((∀ n ∈ condCounters ws, vget s.co.ecf n .clear ≠ .reported) → (∃ n ∈ condCounters ws, vget s.co.ecf n .clear = .raised) →
        ∃ t, exec (.waitc o) s = .next t ∧ t.cx.p = (c.setP o.dNum false).p ∧ t.cx.wait = .none ∧ (∀ n ∈ condCounters ws, vget s.co.ecf n .clear = .raised → vget t.co.ecf n .clear = .reported) ∧ sameMemory s t ∧ sameContexts s t s.cur))
    ∧ (s.canIssue o (grp rg o.aNum (groupSize o) ++ [rg o.bNum, rp o.dNum] ++ condMasks ws) → s.atCheckpoint = true → ws.any condBad = false → waitcWords s ws = none → (∀ n ∈ condCounters ws, vget s.co.ecf n .clear = .clear) →
      (holds = true → ∃ t, exec (.waitc o) s = .next t ∧ t.cx.p = (c.setP o.dNum true).p ∧ t.cx.wait = .none ∧ t.cx.g = c.g ∧ t.cx.v = c.v ∧ t.cx.vm = c.vm ∧ sameMemory s t ∧ sameContexts s t s.cur ∧ t.co = s.co)
      ∧ (holds = false → ¬parks → exec (.waitc o) s = waits (.waitc o) (.waitc (if c.getG o.bNum = 0 then 0 else s.tick + (c.getG o.bNum).toNat) (firstProbes c ws)) (s.setCx (c.mark true (rp o.dNum))))
      ∧ (holds = false → parks → ∀ ckid u, s.checkpoint s.coreNo c c.pc = some ckid → s.leaveReady s.cur (s.entryWords s.coreNo c ckid) = true → s.saveContext s.cur ckid = .ok u →
        ∃ t e, exec (.waitc o) s = .next t ∧ (t.ctx s.cur).occ = false ∧ t.co.ecWait = s.co.ecWait ++ [(e, condCounters ws)] ∧ e.rcd = c.rcd ∧ e.uid = c.uid ∧ e.pin = some s.coreNo ∧ t.mem = u.mem))
    ∧ (s.canIssue o [rg o.aNum] → s.atCheckpoint = true →
      exec (.idle o) s = if (c.getG o.aNum).toNat ≤ s.now.toNat then retired (.idle o) s else waits (.idle o) (.idle (c.getG o.aNum).toNat) s)
    ∧ (s.poison = [] → s.canIssue o [rg o.aNum] → s.atCheckpoint = false → exec (.idle o) s = .next (s.raise { cause := 10 })))
  ∧ (∀ (core slot : Nat) (o : Ops) (s : State),
    let k := 8 * core + slot
    let c := s.ctx k
    let ws := condWords o c
    s.still = false →
    (∀ deadline ps i w p b, c.wait = .waitc deadline ps → c.held = some (.waitc o) → ws[i]? = some w → ps[i]? = some p → condOnWord w = true → p.till ≤ s.tick → s.probe k w = some b → (∀ n ∈ condCounters ws, vget (s.core (k / 8)).ecf n .clear = .clear) →
      let ps' := ps.set i { answer := some b, j := p.j + 1, till := s.tick + min (2 ^ p.j) 64 }
      ∃ t, exec (.waitcProbe core slot i) s = .next t ∧ sameMemory s t ∧ sameContexts s t k ∧ (∀ e ∈ (t.core core).dcache, e.1 ≠ s.probed k w / 64)
        ∧ (combination (s.core (k / 8)) (waitcAll o) ws ps' = false → (t.ctx k).wait = .waitc deadline ps' ∧ (t.ctx k).p = c.p)
        ∧ (deadline ≠ 0 → deadline ≤ s.tick → (t.ctx k).wait = .waitc deadline ps' ∧ (t.ctx k).p = c.p)
        ∧ (deadline = 0 ∨ s.tick < deadline → combination (s.core (k / 8)) (waitcAll o) ws ps' = true →
          (t.ctx k).wait = .none ∧ (t.ctx k).p = (c.setP o.dNum true).p ∧ (o.dNum ≠ 0 → o.dNum < 8 → (t.ctx k).pending (rp o.dNum) = false)))
    ∧ (∀ deadline ps, c.wait = .waitc deadline ps → c.held = some (.waitc o) → deadline ≠ 0 → deadline ≤ s.tick →
      exec (.waitcTimeout core slot) s = .next (s.setCtx k (((c.setP o.dNum false).mark false (rp o.dNum)).retire (.waitc o) o.s)))
    ∧ (∀ t, c.wait = .idle t → c.held = some (.idle o) → t ≤ s.tick → exec (.idleWake core slot) s = .next (s.setCtx k (c.retire (.idle o) o.s)))
    ∧ (∀ tr, c.trap = some tr → c.drained = true →
      ∃ t, exec (.trapEntry core slot) s = .next t ∧ (t.ctx k).trap = none ∧ (t.ctx k).pc = c.sr.tvec ∧ (t.ctx k).super = true ∧ (t.ctx k).sr.xcause = BitVec.ofNat 64 tr.cause ∧ (t.ctx k).sr.xaddr = tr.xaddr ∧ (t.ctx k).sr.xinfo = tr.xinfo
        ∧ (t.ctx k).sr.xpc = BitVec.ofNat 64 ((tr.xpc.getD c.pc).toNat % 2 ^ 56) ∧ sameRegisters c (t.ctx k) [] ∧ sameContexts s t k
        ∧ ((t.ctx k).stopped = false → sameMemory s t) ∧ ∀ a, a < s.savedAt k ∨ s.savedAt k + 0x4000 ≤ a → mget t.mem a = mget s.mem a))
  ∧ (∀ (core n slot d fl : Nat) (x : Word) (s : State), s.still = false → (s.core core).results[n]? = some { slot, g := [(d, x)], flags := fl } → d < 64 → d ≠ 0 →
    let k := 8 * core + slot
    ∃ t, exec (.resultWriteback core n) s = .next t ∧ (t.core core).results = (s.core core).results.eraseIdx n ∧ (t.ctx k).getG d = x ∧ (t.ctx k).pending (rg d) = false ∧ (∀ j, j ≠ d → (t.ctx k).getG j = (s.ctx k).getG j)
      ∧ (∀ r, r ≠ rg d → (t.ctx k).pending r = (s.ctx k).pending r) ∧ (t.ctx k).sr.xflags = (s.ctx k).sr.xflags ||| BitVec.ofNat 64 fl ∧ (t.ctx k).pc = (s.ctx k).pc ∧ sameContexts s t k ∧ sameMemory s t)
  ∧ ∀ (n : Nat) (s : State), s.still = false → (s.cluster n).window ≠ [] →
    ∃ t k cause pc, exec (.crepWindowClose n) s = .next t ∧ (k, cause, pc) ∈ (s.cluster n).window ∧ (∀ e ∈ (s.cluster n).window, k ≤ e.1) ∧ (t.cluster n).crepPc = pc ∧ (t.cluster n).window = []
      ∧ (t.cluster n).crepId = BitVec.ofNat 64 (2 ^ 63 + (if 1 < (s.cluster n).window.length then 2 ^ 62 else 0) + cause * 2 ^ 48 + n / 12 * 2 ^ 12 + n % 12 * 2 ^ 8 + k % 256)

/-- R23, R144, R250 to R252, R256, R282, R345: TLBINV removes the named translations from its cluster's TLBs, or from all, once the accesses that use them are performed; in user mode it
traps PROT, and for an address that the private window carries past the address space. CINV removes the named lines from
the data cache, and under `.cl` from the cluster cache; that and CWB wait until the cluster's stores to the named lines of other homes have been acknowledged,
which is their write-back (log 10). FWCALL asks Cethen and waits; a service that is not provided answers all ones. A walk that finds a leaf
enters it in the TLBs. A line of a data cache, and a line of a cluster cache homed elsewhere, may leave at any moment. Readings of the
model's own: the answer, in the issuing step, of a service that is not provided (log 37), the pages of a TLBINV and what it waits for (log 36), and the walk for
the ctxid of the resident template, entering its leaf whenever it is made (logs 39 and 11). -/
def Obligations.CachesTlbsAndFirmwareCalls : Prop :=
  (∀ (o : Ops) (s : State),
    let c := s.cx
    let x := (c.getG o.aNum).toNat
    let kind := o.clsOr 0 % 4
    let n := s.coreNo / 32
    (s.canIssue o [rg o.aNum] → c.super = false → exec (.tlbinv o) s = .next (s.raise (privilegedTrap 0)))
    ∧ (s.canIssue o [rg o.aNum] → c.super = true → kind = 0 → 2 ^ 56 ≤ globalVa c.trans (x % 2 ^ 56) →
      exec (.tlbinv o) s = .next (s.raise { cause := 5, xaddr := BitVec.ofNat 64 (globalVa c.trans (x % 2 ^ 56)), xinfo := BitVec.ofNat 64 (15 * 4096 + 15 * 256 + 4) }))
    ∧ (s.canIssue o [rg o.aNum] → c.super = true → (kind = 0 → globalVa c.trans (x % 2 ^ 56) < 2 ^ 56) →
      let ns := if bitOf (o.clsOr 0) 2 then List.range 48 else [n]
      let f : Flush := if kind = 0 then .pages c.trans.ctxid [(globalVa c.trans (x % 2 ^ 56), 1)] else if kind = 1 then .all else .ctx (x % 2 ^ 16)
      s.releaseReady s.coreNo (s.cur % 8) = true → (∀ m ∈ ns, ∀ i, i < 32 → s.flushed f (32 * m + i) = true) →
      ∃ t, exec (.tlbinv o) s = .next t ∧ (∀ m ∈ ns, (∀ e, e ∈ (t.cluster m).tlb ↔ e ∈ (s.cluster m).tlb ∧ f.takes e = false) ∧ ∀ i, i < 32 → ∀ e, e ∈ (t.core (32 * m + i)).utlb ↔ e ∈ (s.core (32 * m + i)).utlb ∧ f.takes e = false)
        ∧ (∀ m, m ∉ ns → t.cluster m = s.cluster m) ∧ sameMemory s t ∧ sameRegisters c t.cx [] ∧ sameContexts s t s.cur)
    ∧ (s.canIssue o [rg o.aNum, rg o.bNum] →
      (bit0Of o 0 = false ∨ s.writtenBack n (s.cacheHit o 0) = true → ∃ t, exec (.cinv o) s = .next t ∧ (∀ e, e ∈ t.co.dcache ↔ e ∈ s.co.dcache ∧ s.cacheHit o 0 e.1 = false)
        ∧ (bit0Of o 0 = false → t.clusters = s.clusters ∧ sameMemory s t) ∧ (bit0Of o 0 = true → ∀ e, e ∈ (t.cluster n).cache ↔ e ∈ (s.cluster n).cache ∧ s.cacheHit o 0 e.1 = false)
        ∧ sameRegisters c t.cx [] ∧ sameContexts s t s.cur)
      ∧ (bit0Of o 0 = true → s.writtenBack n (s.cacheHit o 0) = false → exec (.cinv o) s = .next { s with stall := true })
      ∧ exec (.cwb o) s = if s.writtenBack n (s.cacheHit o 1) then retired (.cwb o) s else .next { s with stall := true })
    ∧ (∀ hit, s.writtenBack n hit = true ↔ ∀ core, core / 32 = n → ∀ a ∈ (s.core core).flight, ∀ p ∈ a.pieces, a.kind.stores = true → p.done = false → ∀ key ∈ keysAt p.place p.pa p.n, 2 ^ 49 ≤ key → hit key = false)
    ∧ (s.canIssue o [rg o.dNum, rg o.bNum] →
      (512 ≤ o.imm → c.super = false → exec (.fwcall o) s = .next (s.raise (privilegedTrap 0)))
      ∧ (0 ≤ o.imm → (o.imm < 512 ∨ c.super = true) → s.releaseReady s.coreNo (s.cur % 8) = true →
        (o.imm ∉ [(0 : Int), 1, 2, 3, 512, 516, 517, 520, 530] → exec (.fwcall o) s = retired (.fwcall o) ((s.setCx (c.setG o.dNum (BitVec.allOnes 64))).acquire s.coreNo 4))
        ∧ (o.imm ∈ [(0 : Int), 1, 2, 3, 512, 516, 517, 520, 530] → ∃ t q, exec (.fwcall o) s = .next t ∧ t.cx.wait = .fw q.id ∧ t.cx.held = some (.fwcall o) ∧ t.cx.pc = c.pc ∧ t.fwq = s.fwq ++ [q]
            ∧ q.core = s.coreNo ∧ q.slot = s.cur % 8 ∧ (q.svc : Int) = o.imm ∧ q.arg = c.getG o.bNum ∧ q.dc = c.dc ∧ sameMemory s t ∧ sameRegisters c t.cx []))))
  ∧ ∀ (s : State), s.still = false →
    (∀ core va dc w0 w1 entry base size lev, va.toNat < 2 ^ 56 → s.resident = some dc → s.walk dc va.toNat = .leaf w0 w1 entry base size lev →
      ∃ t, exec (.hardwareWalk core va) s = .next t ∧ (tlbFind (t.core core).utlb (s.recTrans dc).ctxid va.toNat).isSome = true ∧ (tlbFind (t.cluster (core / 32)).tlb (s.recTrans dc).ctxid va.toNat).isSome = true ∧ sameMemory s t ∧ t.ctxs = s.ctxs)
    ∧ (∀ core line, ∃ t, exec (.dcacheLineExpiry core line) s = .next t ∧ (∀ e, e ∈ (t.core core).dcache ↔ e ∈ (s.core core).dcache ∧ e.1 ≠ line) ∧ sameMemory s t ∧ t.ctxs = s.ctxs)
    ∧ ∀ n line, ∃ t, exec (.clusterCacheLineExpiry n line) s = .next t ∧ (∀ e, e ∈ (t.cluster n).cache ↔ e ∈ (s.cluster n).cache ∧ (e.1 ≠ line ∨ e.1 < 2 ^ 49)) ∧ sameMemory s t ∧ t.ctxs = s.ctxs

/-- R81, R250, R373, R375, R394, R395: Cethen answers the request at the head of its queue: `fwver`, a port's `ulstat`, `pwnow`, a quote written after the nonce, a power limit up to
`pwcap`, an image checked and with bit 63 fused. A page-in or page-out of a page that needs no driver is answered at once, else posted; the driver's answer completes it. A group, or a bitmap,
with a poisoned line answers no mapping, or no copy: the model's choice (log 27). What a commit in progress holds of
what such a service reads or writes is waited for. Whether an image is genuine is a constant of the configuration. Two points are the model's readings: one fuse step for a call, and error 5 when none is left (log 49), and a pinned page
found before the length of the staging buffer (log 50). -/
def Obligations.CethenAnswers : Prop :=
  (∀ (q : FwReq) (o : Ops) (s : State),
    (s.asked q o 0 → ∃ t, exec .fwVersion s = .next t ∧ answered s t q o s.regs.fwver.toNat ∧ sameMemory s t)
    ∧ (s.asked q o 1 → ∃ t, exec .linkStatus s = .next t ∧ answered s t q o (if q.arg.toNat ≤ 23 then (s.port q.arg.toNat).ulstat.toNat else 1) ∧ sameMemory s t)
    ∧ (s.asked q o 2 → ∃ t, exec .powerNow s = .next t ∧ answered s t q o s.regs.pwnow.toNat ∧ sameMemory s t)
    ∧ (s.asked q o 3 →
      (∀ rs ws, s.checkAccess q.core q.trans true .load (cutScalar 0 (q.arg.toNat : Nat) 64) = .ok rs → s.checkAccess q.core q.trans true .store (cutScalar 0 (q.arg.toNat + 64 : Nat) 5389) = .ok ws →
        ((rs ++ ws).any (fun e => s.placeHeld e.2.place e.2.pa e.1.n) = true → exec .attestationQuote s = .next s)
        ∧ ((rs ++ ws).any (fun e => s.placeHeld e.2.place e.2.pa e.1.n) = false → ∃ t sig, exec .attestationQuote s = .next t ∧ answered s t q o 0 ∧ sig.length = 3309 ∧ t.mem = (s.writeParts (s.quoteBody q ++ sig) ws).mem))
      ∧ (∀ tr, s.checkAccess q.core q.trans true .load (cutScalar 0 (q.arg.toNat : Nat) 64) = .error tr ∨ s.checkAccess q.core q.trans true .store (cutScalar 0 (q.arg.toNat + 64 : Nat) 5389) = .error tr → ∃ t, exec .attestationQuote s = .next t ∧ answered s t q o 1 ∧ sameMemory s t))
    ∧ (s.asked q o 520 → ∃ t, exec .powerLimit s = .next t ∧ answered s t q o (if q.arg.toNat ≤ s.regs.pwcap.toNat then 0 else 1) ∧ (t.dctx q.dc).power = (if q.arg.toNat ≤ s.regs.pwcap.toNat then some q.arg.toNat else (s.dctx q.dc).power) ∧ sameMemory s t)
    ∧ (s.asked q o 530 →
      let a := q.arg.toNat % 2 ^ 56
      (s.bytesFree q.core q.trans a 64 = false → exec .firmwareUpdate s = .next s)
      ∧ (s.bytesFree q.core q.trans a 64 = true → s.readVa q.core q.trans a 64 = none → ∃ t, exec .firmwareUpdate s = .next t ∧ answered s t q o 1 ∧ t.fuseSteps = s.fuseSteps ∧ t.regs = s.regs)
      ∧ ∀ h, s.bytesFree q.core q.trans a 64 = true → s.readVa q.core q.trans a 64 = some h →
        let n := 5325 + leAt (toBytes 64 h) 8 4
        (s.bytesFree q.core q.trans a n = false → exec .firmwareUpdate s = .next s)
        ∧ (s.bytesFree q.core q.trans a n = true → imageError (toBytes 64 h) n 0 = 2 → ∃ t, exec .firmwareUpdate s = .next t ∧ answered s t q o 2 ∧ t.fuseSteps = s.fuseSteps ∧ t.regs = s.regs)
        ∧ (s.bytesFree q.core q.trans a n = true → imageError (toBytes 64 h) n 0 ≠ 2 → s.readVa q.core q.trans a n = none → ∃ t, exec .firmwareUpdate s = .next t ∧ answered s t q o 1 ∧ t.fuseSteps = s.fuseSteps ∧ t.regs = s.regs)
        ∧ ∀ x, s.bytesFree q.core q.trans a n = true → s.readVa q.core q.trans a n = some x → imageError (toBytes 64 h) n 0 ≠ 2 →
        let e := imageError (toBytes n x) n s.minVersion
        ∃ t, exec .firmwareUpdate s = .next t ∧ answered s t q o (if e ≠ 0 then e else if q.arg.getLsbD 63 = true ∧ 32 ≤ s.fuseSteps then 5 else 0)
          ∧ (e = 0 → q.arg.getLsbD 63 = true → s.fuseSteps < 32 → t.fuseSteps = s.fuseSteps + 1 ∧ t.minVersion = leAt (toBytes n x) 4 4)
          ∧ (e ≠ 0 ∨ q.arg.getLsbD 63 = false ∨ 32 ≤ s.fuseSteps → t.fuseSteps = s.fuseSteps ∧ t.regs = s.regs))
    ∧ (s.asked q o 516 →
      (s.pageCase q.trans q.arg.toNat = .noMapping → ∃ t, exec .pageIn s = .next t ∧ answered s t q o 1)
      ∧ (s.pageCase q.trans q.arg.toNat = .heap → ∃ t, exec .pageIn s = .next t ∧ answered s t q o 0)
      ∧ (∀ e b z p, s.pageCase q.trans q.arg.toNat = .valid e b z p → ∃ t, exec .pageIn s = .next t ∧ answered s t q o 0)
      ∧ ∀ e b z, s.pageCase q.trans q.arg.toNat = .out e b z →
        (s.regs.mbslen.toNat < 2 ^ pageLog z / 64 → ∃ t, exec .pageIn s = .next t ∧ answered s t q o 4)
        ∧ (2 ^ pageLog z / 64 ≤ s.regs.mbslen.toNat → ∃ t p, exec .pageIn s = .next t ∧ t.posted = some p ∧ p.op = 1 ∧ p.va = b ∧ p.seq = (s.mbseq + 1).toNat ∧ t.mbseq = s.mbseq + 1 ∧ t.regs.mbreq0 = BitVec.ofNat 64 b ∧ t.regs.mbreq2 = 0
            ∧ t.fwq = s.fwq ∧ t.msix.length = s.msix.length + 1 ∧ t.ctxs = s.ctxs ∧ sameMemory s t))
    ∧ (s.asked q o 517 →
      (s.pageCase q.trans q.arg.toNat = .noMapping ∨ s.pageCase q.trans q.arg.toNat = .heap → ∃ t, exec .pageOut s = .next t ∧ answered s t q o 1)
      ∧ (∀ e b z, s.pageCase q.trans q.arg.toNat = .out e b z → ∃ t, exec .pageOut s = .next t ∧ answered s t q o 0)
      ∧ ∀ e b z pa, s.pageCase q.trans q.arg.toNat = .valid e b z pa →
        let entries := s.sound e (16 * groupCount z)
        (entries = false → ∃ t, exec .pageOut s = .next t ∧ answered s t q o 1 ∧ sameMemory s t)
        ∧ (entries = true → mread s.mem (e + 7) 1 ≠ 0 → ∃ t, exec .pageOut s = .next t ∧ answered s t q o 2 ∧ sameMemory s t)
        ∧ (entries = true → mread s.mem (e + 7) 1 = 0 → s.regs.mbslen.toNat < 2 ^ pageLog z / 64 → ∃ t, exec .pageOut s = .next t ∧ answered s t q o 4 ∧ sameMemory s t)
        ∧ (entries = true → mread s.mem (e + 7) 1 = 0 → 2 ^ pageLog z / 64 ≤ s.regs.mbslen.toNat → (∀ k ∈ s.cores, s.flushed (.pages q.trans.ctxid [(b, 2 ^ pageLog z)]) k.1 = true) →
          let busy := s.blockBusy e (16 * groupCount z) || s.blockBusy (fld s.regs.mbstage.toNat 12 44 * 4096) (2 ^ pageLog z / 64)
          (busy = true → exec .pageOut s = .next s)
          ∧ (busy = false → ∃ t p, exec .pageOut s = .next t ∧ t.posted = some p ∧ p.op = 2 ∧ p.va = b ∧ p.pa = pa ∧ t.regs.mbreq0 = BitVec.ofNat 64 b ∧ t.regs.mbreq2 = BitVec.ofNat 64 pa ∧ t.fwq = s.fwq ∧ t.ctxs = s.ctxs))))
  ∧ ∀ (p : Posted) (o : Ops) (v : Word) (s : State), s.still = false → s.posted = some p → (s.ctx (8 * p.req.core + p.req.slot)).wait = .fw p.req.id → (s.ctx (8 * p.req.core + p.req.slot)).held = some (.fwcall o) →
    (s.answerHeld = true → exec (.mailboxAnswer v) s = .next s)
    ∧ (s.answerHeld = false → v.toNat % 2 ^ 32 = p.seq → ∃ t, exec (.mailboxAnswer v) s = .next t ∧ t.posted = none ∧ t.regs.mbans1 = BitVec.ofNat 64 (v.toNat % 2 ^ 40)
      ∧ answered s t p.req o (if p.op = 1 ∧ v.toNat / 2 ^ 32 % 2 ^ 8 ≠ 3 then (if s.sound (fld s.regs.mbstage.toNat 12 44 * 4096) (p.size / 64) && s.sound p.entry (16 * p.count) then 0 else 3) else v.toNat / 2 ^ 32 % 2 ^ 8))
    ∧ (s.answerHeld = false → v.toNat % 2 ^ 32 ≠ p.seq → ∃ t, exec (.mailboxAnswer v) s = .next t ∧ t.posted = some p ∧ t.fwq = s.fwq ∧ t.ctxs = s.ctxs ∧ sameMemory s t)

/-- R17, R327 to R333, R335, R339, R359 to R362, R398: queue registers and entries: a doorbell, a size, another register; a NOP entry, a rule table, a signal; a launch that
passes its checks runs with its records live, and one that does not completes with its status; a launch with no live record completes. A free slot takes the newest record of its core's deque; a
record promoted by age goes up a level; a pre-empted context leaves at a checkpoint, or is saved whole past the deadline; a switch makes the incoming device context resident; an abort ends with status 3, and with it the requests for it; what a commit in progress
holds of what these access is waited for (R81). Readings of the
model's own: the order of the completion statuses, and entries of a kind above 3 (log 43), the completion address translated at the launch (log 44), which waits
a pre-emption ends and which lead to PREEMPT (log 45), an abort in two steps (log 46), and the one-step switch (log 47). -/
def Obligations.QueuesLaunchesAndScheduling : Prop :=
  (∀ (n : Nat) (v : Word) (s : State), s.still = false → n < 64 →
    let d := s.dctx n
    (∃ t, exec (.qtailDoorbell n v) s = .next t ∧ (t.dctx n).qtail = BitVec.ofNat 64 (v.toNat % 2 ^ 16) ∧ (d.qsize.toNat ≤ v.toNat % 2 ^ 16 → fld (t.dctx n).qstat.toNat 4 4 = 1) ∧ (v.toNat % 2 ^ 16 < d.qsize.toNat → (t.dctx n).qstat = d.qstat) ∧ (t.dctx n).qhead = d.qhead)
    ∧ (d.launch = none → ∃ t, exec (.qsizeWrite n v) s = .next t ∧ (t.dctx n).qsize = BitVec.ofNat 64 (v.toNat % 2 ^ 16) ∧ (t.dctx n).qstat = 0)
    ∧ (d.launch ≠ none → exec (.qsizeWrite n v) s = .next s)
    ∧ (d.launch = none → ∃ t, exec (.registerWrite (0x10000 + 64 * n) v) s = .next t ∧ (t.dctx n).qbasep = BitVec.ofNat 64 (v.toNat % 2 ^ 56))
    ∧ (s.resident ≠ some n → ∃ t, exec (.registerWrite (0x20000 + 64 * n) v) s = .next t ∧ (t.dctx n).ptroot = BitVec.ofNat 64 (v.toNat / 2 ^ 12 % 2 ^ 44 * 2 ^ 12))
    ∧ (s.resident = some n → exec (.registerWrite (0x20000 + 64 * n) v) s = .next s)
    ∧ exec (.registerWrite 0x50038 v) s = .next { s with regs := { s.regs with pwcap := BitVec.ofNat 64 (v.toNat % 2 ^ 12) } })
  ∧ (∀ (n : Nat) (s : State), s.takes n = true →
    let d := s.dctx n
    let a := d.entryAt
    let w (i : Nat) : Nat := mread s.mem (a + 8 * i) 8
    let next : Word := BitVec.ofNat 64 ((d.qhead.toNat + 1) % d.qsize.toNat)
    s.physOk a 256 = true →
    (s.placeHeld (placeOf a) a 256 = true → ∀ i ∈ [Instr.queueNop n, .rules n, .signal n, .launch n], exec i s = .next s)
    ∧ (s.placeHeld (placeOf a) a 256 = false →
    (w 31 = 0 → (∀ i, i < 31 → w i = 0) → ∃ t, exec (.queueNop n) s = .next t ∧ t.dctx n = { d with qhead := next } ∧ sameMemory s t ∧ t.ctxs = s.ctxs)
    ∧ (3 < w 31 % 256 → ∃ t, exec (.queueNop n) s = .next t ∧ (t.dctx n).qhead = next ∧ (t.dctx n).qstat.getLsbD 11 = true ∧ fld (t.dctx n).qstat.toNat 16 16 = d.qhead.toNat % 2 ^ 16)
    ∧ (w 31 = 2 → (∀ i, 1 ≤ i → i < 31 → w i = 0) → w 0 % 128 = 0 → w 0 + 2048 ≤ 0x8000000000 → s.badLine [] (w 0) 2048 = none → s.jobs = [] → s.memWf = true →
      ∃ t, exec (.rules n) s = .next t ∧ (t.dctx n).qhead = next ∧ (∀ i, i < 2048 → mget (t.dctx n).rules i = mget s.mem (w 0 + i)) ∧ sameMemory s t)
    ∧ (w 31 = 3 → (∀ i, 2 ≤ i → i < 31 → w i = 0) → w 0 % 8 = 0 → w 0 < 0x8000000000 → s.badLine [] (w 0) 8 = none → s.plain (w 0) 8 → s.memWf = true →
      (s.blockBusy (w 0) 8 = true → exec (.signal n) s = .next s)
      ∧ (s.blockBusy (w 0) 8 = false → ∃ t, exec (.signal n) s = .next t ∧ (t.dctx n).qhead = next ∧ mread t.mem (w 0) 8 = w 1 ∧ ∀ x, x < w 0 ∨ w 0 + 8 ≤ x → mget t.mem x = mget s.mem x))
    ∧ (w 31 % 256 = 1 → s.launchHeld n w = true → exec (.launch n) s = .next s)
    ∧ (w 31 % 256 = 1 → s.launchHeld n w = false → s.readTemplate n = none → ∃ t, exec (.launch n) s = .next t ∧ fld (t.dctx n).qstat.toNat 4 4 = 3 ∧ (t.dctx n).qhead = d.qhead)
    ∧ (w 31 % 256 = 1 → s.launchHeld n w = false → ∀ u, s.readTemplate n = some u →
      let count := w 5 % 2 ^ 21
      let fails (st : Nat) : Prop := ∃ t, exec (.launch n) s = .next t ∧ (t.dctx n).launch = none ∧ (t.dctx n).qhead = next ∧ fld (t.dctx n).qstat.toNat 12 4 = st ∧ t.ctxs = s.ctxs
      (launchOk w = false → fails 1)
      ∧ (launchOk w = true → u.spreadFenced w = true → fails 1)
      ∧ (launchOk w = true → u.spreadFenced w = false → u.storable n (w 19) 32 = false ∨ u.storable n (w 7) (64 * count) = false ∨ u.storable n (w 8) (count * w 6) = false → fails 2)
      ∧ (launchOk w = true → u.spreadFenced w = false → u.storable n (w 19) 32 = true → u.storable n (w 7) (64 * count) = true → u.storable n (w 8) (count * w 6) = true →
        (u.digestOverlaps n (w 17) (w 18) = true → fails 4)
        ∧ (u.digestOverlaps n (w 17) (w 18) = false → ∃ t l, exec (.launch n) s = .next t ∧ (t.dctx n).launch = some l ∧ l.created = count ∧ (t.dctx n).live = count ∧ (t.dctx n).qhead = next ∧ t.truss = launchTruss w ∧ t.ctxs = s.ctxs
          ∧ ∀ i, i < count →
            (fld (w 5) 22 2 = 0 → ∃ e ∈ vget (t.cluster (i % 48)).queues (w 4 % 4) [], e.rcd = BitVec.ofNat 64 (w 7 + 64 * i) ∧ e.dc = n ∧ e.pin = none)
            ∧ (fld (w 5) 22 2 ≠ 0 → (s.core i).deque.length < 256 → ∃ e ∈ (t.core i).deque, e.rcd = BitVec.ofNat 64 (w 7 + 64 * i) ∧ e.dc = n ∧ e.pin = some i))))))
  ∧ (∀ (n : Nat) (l : Launch) (s : State), s.ready = true → s.resident = some n → (s.dctx n).launch = some l → (s.dctx n).live = 0 → (s.dctx n).aborting = false →
      (∀ e ∈ s.cores, e.2.copy.quiet = true ∧ e.2.index.quiet = true ∧ e.2.flight = []) →
      (s.completionHeld l.completion = true → exec (.launchCompletion n) s = .next s)
      ∧ (s.completionHeld l.completion = false → ∃ t, exec (.launchCompletion n) s = .next t ∧ (t.dctx n).launch = none ∧ fld (t.dctx n).qstat.toNat 12 4 = 0 ∧ (t.dctx n).lnch = (s.dctx n).lnch + 1 ∧ t.msix.length = s.msix.length + 1
        ∧ ∀ pa, l.completion = some ((List.range 32).map (pa + ·)) → pa + 32 ≤ 0x8000000000 → s.plainFor pa 32 → s.memWf = true →
          mread t.mem pa 8 = 0 ∧ mread t.mem (pa + 8) 8 = s.digestSum n ∧ mread t.mem (pa + 16) 8 = s.tick - l.firstTick ∧ mread t.mem (pa + 24) 8 = l.created % 2 ^ 64))
  ∧ (∀ (core slot : Nat) (s : State), slot < 8 →
    let k := 8 * core + slot
    let c := s.ctx k
    (∀ n e l, s.ready = true → s.incoming = none → core < 1536 → s.resident = some n → c.occ = false → (s.core core).fenced = false → (s.dctx n).aborting = false → (s.core core).deque = l ++ [e] → s.takeable core e = true → s.recCkid core e = 0 →
      ∃ t, exec (.pickup core slot) s = .next t ∧ (t.core core).deque = l ∧ (t.ctx k).occ = true ∧ (t.ctx k).rcd = e.rcd ∧ (t.ctx k).dc = e.dc ∧ (t.ctx k).wait = .none
        ∧ (∀ w, s.readVa core (s.recTrans e.dc) (fld e.rcd.toNat 0 56) 8 = some w → (t.ctx k).pc = BitVec.ofNat 64 (w % 2 ^ 56)) ∧ sameContexts s t k ∧ sameMemory s t)
    ∧ (s.ready = true → s.resident ≠ none → core < 1536 → c.occ = true → c.stopped = false →
      ∃ t, exec (.preemptRequest core) s = .next t ∧ (t.ctx k).preempt = true ∧ (c.wait = .none → (t.ctx k).pmTrap = ((s.dctx (s.resident.getD 0)).dlctl.getLsbD 32 && !c.super)) ∧ (t.ctx k).pc = c.pc ∧ sameRegisters c (t.ctx k) [] ∧ sameMemory s t
        ∧ (∀ n, c.wait = .idle n → (t.ctx k).wait = .none ∧ (((s.endWait k).checkpoint core ((s.endWait k).ctx k) c.pc).isSome = true → (t.ctx k).pmTrap = false)))
    ∧ (∀ id u, s.still = false → s.mayLeave k = true → s.checkpoint core c c.pc = some id → s.leaveReady k (s.entryWords core c id) = true → s.saveContext k id = .ok u →
      ∃ t e, exec (.leaveAtCheckpoint core slot) s = .next t ∧ (t.ctx k).occ = false ∧ e.rcd = c.rcd ∧ e.dc = c.dc ∧ e.uid = c.uid ∧ sameContexts s t k
        ∧ (c.pinned = false → vget (t.cluster (core / 32)).queues c.prio.toNat [] = vget (s.cluster (core / 32)).queues c.prio.toNat [] ++ [e])
        ∧ (c.pinned = true → (s.core core).deque.length < 256 → e.pin = some core ∧ (t.core core).deque = (s.core core).deque ++ [e]))
    ∧ (∀ n a, s.still = false → s.incoming ≠ none → s.resident = some n → (s.core core).preemptAt = some a → a + fld (s.dctx n).dlctl.toNat 0 32 ≤ s.tick → c.occ = true → c.dc = n → c.trap = none → (s.dctx n).aborting = false →
      ((s.endWait k).ctx k).drained = true → ((s.endWait k).ctx k).wait = .none → (s.endWait k).releaseReady core slot = true →
      ∃ t sv, exec (.hardSave core slot) s = .next t ∧ (t.ctx k).occ = false ∧ (t.dctx n).saved = some sv ∧ (tget sv.ctxs k {}).pc = c.pc ∧ sameRegisters c (tget sv.ctxs k {}) [] ∧ (tget sv.ctxs k {}).sr = c.sr ∧ sameContexts (s.endWait k) t k
        ∧ (∀ x, x < s.savedAt k ∨ s.savedAt k + 0x4000 ≤ x → mget t.mem x = mget s.mem x)))
  ∧ (∀ (cluster level dc : Nat) (e : QEnt) (r : List QEnt) (s : State), s.ready = true → cluster < 48 → level < 3 → s.resident = some dc → vget (s.cluster cluster).queues level [] = e :: r → ageOf (s.dctx dc).template level ≠ 0 → ageOf (s.dctx dc).template level ≤ s.tick - e.tick →
      ∃ t, exec (.queueAgingPromotion cluster level 0) s = .next t ∧ vget (t.cluster cluster).queues level [] = r
        ∧ vget (t.cluster cluster).queues (level + 1) [] = vget (s.cluster cluster).queues (level + 1) [] ++ [{ e with tick := s.tick }] ∧ t.ctxs = s.ctxs)
  ∧ ∀ (n m : Nat) (s : State), s.ready = true → s.resident = some n →
    (m < 64 → m ≠ n → s.incoming = none →
      ∃ t, exec (.contextSwitch m) s = .next t ∧ t.incoming = some m ∧ t.resident = some n ∧ sameMemory s t ∧ ∀ core slot, core < 1536 → slot < 8 → (s.ctx (8 * core + slot)).occ = true → (s.ctx (8 * core + slot)).stopped = false → (t.ctx (8 * core + slot)).preempt = true)
    ∧ (s.incoming = some m → s.switchable n = true → ∃ t, exec .switchSaveAndLoad s = .next t ∧ t.resident = some m ∧ t.incoming = none ∧ (t.dctx m).switches = (s.dctx m).switches + 1)
    ∧ (∀ q r, s.fwq = q :: r → q.svc = 512 → s.posted = none → (s.dctx n).aborting = false → (s.dctx q.dc).launch ≠ none →
      ∃ t, exec .abort s = .next t ∧ (q.dc = n → (t.dctx n).aborting = true) ∧ (q.dc ≠ n → (t.dctx q.dc).abortDue = true ∧ (t.dctx n).aborting = false ∧ t.ctxs = s.ctxs ∧ t.cores = s.cores) ∧ t.fwq = r)
    ∧ ((s.dctx n).aborting = true → (s.dctx n).launch ≠ none → s.abortReady = true → (∀ l, (s.dctx n).launch = some l → s.completionHeld l.completion = false) →
      ∃ t, exec .abort s = .next t ∧ (t.dctx n).launch = none ∧ (t.dctx n).aborting = false ∧ fld (t.dctx n).qstat.toNat 12 4 = 3 ∧ (∀ q ∈ t.fwq, q.svc = 512 → q.dc ≠ n) ∧ ∀ k, (t.ctx k).occ = false)

/-- R47, R155, R338, R355, R371, R372, R376 to R378, R380 to R385, R389 to R392: reset and boot, links, the host and other devices, power, freeze, errors and the clock: what each event does.
Whether an image is genuine, and which port carries a line, are constants of the configuration. Choices and readings of the model's own: the clock that holds
while a bound is due (log 32), the steps of reset and boot, the management cores as a machine of their own from the jump to the body on, ports in training at the start, and the
queues of a readout (log 51), the reason of a management core's ILL (log 108), an ignored `rqrel` write and the budget period (log 52), the late ECC trap of an access (log 27), and a `crep` write with V at 0 (log 65). -/
def Obligations.DeviceEventsHappen : Prop :=
  (∀ (pcie : Bool) (s : State), ∃ t, exec (.reset pcie) s = .next t ∧ t.mem = s.mem ∧ t.rmem = s.rmem ∧ (∀ pa, t.fe pa = true ∧ t.waitBit pa = false ∧ t.wl pa = false) ∧ t.poison = s.poison ∧ t.fuseSteps = s.fuseSteps ∧ t.minVersion = s.minVersion ∧ t.still = false
      ∧ t.bootState = 1 ∧ t.pcieUp = pcie ∧ t.ctxs = [] ∧ t.cores = [] ∧ t.now = 0 ∧ t.resident = none)
  ∧ (∀ (region off : Nat) (s : State), exec (.frozenReadout region off) s = .next s
    ∧ (s.bootState ≠ 7 → s.readout region off = none)
    ∧ (s.bootState = 7 → region < 1536 → off < 0x18000 → s.readout region off = some (.byte (mget (s.core region).lmem off).toNat))
    ∧ (s.bootState = 7 → region < 1536 → 0x18000 ≤ off → off < 0x38000 → s.readout region off = some (.byte (mget (s.core region).abuf (off - 0x18000)).toNat))
    ∧ (s.bootState = 7 → region < 1536 → 0x38000 ≤ off → off < 0x78000 → s.readout region off = some (.byte (mget (s.core region).wbuf (off - 0x38000)).toNat))
    ∧ (s.bootState = 7 → 1536 ≤ region → region < 1544 →
      ∃ parked wakes queues views, s.readout region off = some (.pier parked wakes queues views) ∧ (∀ p, p ∈ parked ↔ p ∈ s.parked ∧ onPier (region - 1536) p.word = true)
        ∧ (∀ p, p ∈ wakes ↔ p ∈ s.wakes ∧ onPier (region - 1536) p.word = true) ∧ queues.length = 5 ∧ (∀ p ∈ wakes, ∃ q ∈ queues, PierOp.wake p ∈ q)
        ∧ (∀ e ∈ s.jobs, ∀ b h, e.2.kind = .commit b h → onPier (region - 1536) b = true → ∃ q, queues[2]? = some q ∧ PierOp.job e.1 e.2 ∈ q)
        ∧ (∀ core c a p, (core, c) ∈ s.cores → c.flight = [a] → p ∈ a.pieces → a.kind = .load → c.awaitsMx a.slot = false → p.done = false → p.place = .here → onPier (region - 1536) p.pa = true →
            ∃ q, queues[3]? = some q ∧ PierOp.access core a p ∈ q)
        ∧ ∀ e ∈ s.digests, { dctx := e.1, base := e.2.base, size := e.2.size, sum := vget e.2.sums (region - 1536) 0 } ∈ views)
    ∧ (s.bootState = 7 → 1544 < region → off < 2 ^ 32 → s.readout region off = some (.byte (mget s.mgmt.mem off).toNat))
    ∧ (s.bootState = 7 → region = 1544 → s.readout region off = some (.line (BitVec.ofNat 512 (mread s.mem (64 * off) 64)) (s.lineWord (64 * off)))))
  ∧ ∀ (s : State), s.still = false →
    (∀ image, s.bootState = 1 → ∃ t, exec (.bootFetch image) s = .next t ∧ t.bootState = (if s.pcieUp then 2 else 6) ∧ (s.pcieUp = true → t.fetchStart = s.tick)
      ∧ (s.pcieUp = false → fld t.regs.bstat.toNat 8 8 = 6 ∧ t.still = true) ∧ sameMemory s t)
    ∧ (∀ image, s.bootState = 2 → s.regs.bootlen ≠ 0 → image.length = s.regs.bootlen.toNat → s.memWf = true →
      ∃ t, exec (.bootFetch image) s = .next t ∧ t.image = image ∧ t.bootState = 3 ∧ ∀ a, a < s.imageAt ∨ s.imageAt + image.length ≤ a → mget t.mem a = mget s.mem a)
    ∧ (s.bootState = 2 → s.regs.bootlen = 0 → s.fetchStart + 1000000000 ≤ s.tick → ∃ t, exec .bootTimeout s = .next t ∧ t.bootState = 6 ∧ fld t.regs.bstat.toNat 8 8 = 1)
    ∧ (∀ hbm dev trap, s.bootState = 3 →
      let e := imageError (asNats s.image) s.regs.bootlen.toNat s.minVersion
      let err := if trap then 7 else e
      ∃ t, exec (.bootVerify hbm dev trap) s = .next t ∧ t.bootState = (if err = 0 then 4 else 6) ∧ (err ≠ 0 → fld t.regs.bstat.toNat 8 8 = err) ∧ sameMemory s t
        ∧ (err = 0 → (∀ i, i < leAt (asNats s.image) 8 4 → (mget t.mgmt.mem i).toNat = (asNats s.image).getD (64 + i) 0)
          ∧ ∀ i, i < 4 → let c := tget t.mgmt.ctxs (8 * i) {}; c.pc = BitVec.ofNat 64 (leAt (asNats s.image) 12 4) ∧ c.super = true ∧ ∀ r, c.getG r = 0))
    ∧ (∀ hbm dev, 1 ≤ s.bootState → s.bootState ≤ 3 → ∃ t, exec (.bootVerify hbm dev true) s = .next t ∧ t.bootState = 6 ∧ fld t.regs.bstat.toNat 8 8 = 7 ∧ sameMemory s t)
    ∧ (∀ hbm dev trap, s.bootState = 4 →
      let err := if (List.range 4).all s.mgmtRuns = false then 7 else if hbm then 0 else 5
      ∃ t, exec (.bootVerify hbm dev trap) s = .next t ∧ t.bootState = (if err = 0 then 5 else 6) ∧ (err ≠ 0 → fld t.regs.bstat.toNat 8 8 = err)
        ∧ (err = 0 → t.resident = some 0 ∧ t.regs.devid = BitVec.ofNat 64 dev.toNat ∧ (∀ a, a < 0x8000000000 → mget t.mem a = 0) ∧ (∀ pa, t.fe pa = true ∧ t.waitBit pa = false ∧ t.wl pa = false) ∧ ∀ p, p < 24 → t.portState p = 1))
    ∧ (∀ core, core < 4 → s.mgmtOn = true →
      let v := s.mgmtView
      (∀ i, v.nextInstr (8 * core) = .ok i → v.offers (8 * core) = true → onMgmt i = false →
        ∃ t u, runTurn (.mgmtIssue core) s = .next t ∧ ({ v with cur := 8 * core } : State).raise { cause := 1, xinfo := BitVec.ofNat 64 (mgmtIll i) } = u ∧ t.mgmt.ctxs = u.ctxs ∧ t.mgmt.mem = u.mem
          ∧ t.bootState = (if s.bootState = 4 then 6 else 5) ∧ (s.bootState = 4 → fld t.regs.bstat.toNat 8 8 = 7) ∧ sameMemory s t ∧ t.ctxs = s.ctxs ∧ t.cores = s.cores)
      ∧ ∀ u, (∀ i, v.nextInstr (8 * core) = .ok i → onMgmt i = true) → v.issueSlot core = .next u →
        let after : State := { s with mgmt := { ctxs := u.ctxs, cores := u.cores, mem := u.mem, lineMeta := u.lineMeta, jobs := u.jobs, nextJob := u.nextJob }, freeNo := u.freeNo }
        (s.bootState = 5 ∨ (∀ e ∈ u.ctxs, e.2.entered = false ∧ e.2.trap = none) → runTurn (.mgmtIssue core) s = .next after)
        ∧ (s.bootState = 4 → (∃ e ∈ u.ctxs, e.2.entered = true ∨ e.2.trap.isSome = true) → runTurn (.mgmtIssue core) s = .next (after.bootFail 7)))
    ∧ (∀ port v, port < 24 → ∃ t, exec (.ulctlWrite port v) s = .next t ∧ (t.port port).ulctl = BitVec.ofNat 64 (v.toNat % 16) ∧ t.portState port = (if v.getLsbD 0 then 1 else 0) ∧ (t.port port).since = s.tick)
    ∧ (∀ port lanes, s.portState port = 1 →
      (s.tick ≤ (s.port port).since + 2000000 → 1 ≤ lanes → lanes ≤ (s.port port).lanes → ∃ t, exec (.linkUp port lanes) s = .next t ∧ t.portState port = 2 ∧ fld (t.port port).ulstat.toNat 4 8 = lanes)
      ∧ ((s.port port).since + 2000000 ≤ s.tick → ∃ t, exec (.linkTrainingTimeout port) s = .next t ∧ t.portState port = 3))
    ∧ (∀ port, s.portState port = 2 → ∃ t, exec (.linkPeerLoss port) s = .next t ∧ t.portState port = 1 ∧ sameMemory s t ∧ t.ctxs = s.ctxs
      ∧ ∀ core a p dev, a ∈ (s.core core).flight → p ∈ a.pieces → p.done = false → p.lost = none → p.place = .remote dev → s.portTo dev p.pa = some port →
        (s.core core).freeToGo a p = true →
        ∃ b ∈ (t.core core).flight, b.id = a.id ∧ { p with lost := some s.tick } ∈ b.pieces)
    ∧ (∀ core id a p dev, (s.core core).flight.find? (fun x => x.id == id) = some a → a.pieces = [p] → p.place = .remote dev → p.done = false →
      (∃ x, p.lost = some x ∧ x + 100000 ≤ s.tick) ∨ (p.lost = none ∧ ∃ n, s.portTo dev p.pa = some n ∧ s.portUp n = false ∧ (s.port n).since + 100000 ≤ s.tick) → (s.ctx (8 * core + a.slot)).occ = true →
      ∃ t tr, exec (.remoteAccessTimeout core id) s = .next t ∧ (∀ x ∈ (t.core core).flight, x.id ≠ id) ∧ (t.ctx (8 * core + a.slot)).ecc = some tr ∧ tr.cause = 18 ∧ tr.xaddr = p.va ∧ (a.kind.stores = false → sameMemory s t))
    ∧ (∀ pa n, pa + n ≤ 0x8000000000 → s.blockBusy pa n = false → s.poisonedPart pa n = false → s.plain pa n → s.memWf = true →
      exec (.remoteAccessArrival pa (.read n)) s = .next s
      ∧ (∀ v, ∃ t, exec (.remoteAccessArrival pa (.write n v)) s = .next t ∧ mread t.mem pa n = v % 256 ^ n ∧ ∀ x, x < pa ∨ pa + n ≤ x → mget t.mem x = mget s.mem x)
      ∧ (∀ y c, ∃ t, exec (.remoteAccessArrival pa (.atomic 0 n y c)) s = .next t ∧ mread t.mem pa n = (mread s.mem pa n + y) % 256 ^ n ∧ ∀ x, x < pa ∨ pa + n ≤ x → mget t.mem x = mget s.mem x)
      ∧ (∀ y c, ∃ t, exec (.remoteAccessArrival pa (.atomic 9 n y c)) s = .next t ∧ mread t.mem pa n = (if mread s.mem pa n = c then y % 256 ^ n else mread s.mem pa n) ∧ ∀ x, x < pa ∨ pa + n ≤ x → mget t.mem x = mget s.mem x))
    ∧ (∀ off len v,
      let pa := s.regs.pcib2.toNat / 2 ^ 36 % 2 ^ 20 * 2 ^ 36 + off
      off + len ≤ 2 ^ 36 → pa + len ≤ 0x8000000000 → s.blockBusy pa len = false → s.poisonedPart pa len = false → s.plain pa len → s.memWf = true →
      exec (.hostAccess off len none) s = .next s
      ∧ ∃ t, exec (.hostAccess off len (some v)) s = .next t ∧ mread t.mem pa len = v % 256 ^ len ∧ (∀ x, x < pa ∨ pa + len ≤ x → mget t.mem x = mget s.mem x) ∧ t.ctxs = s.ctxs)
    ∧ (∀ port i j block,
      let p := s.port port
      let a := p.rqbase.toNat / 2 ^ 15 % 2 ^ 41 * 2 ^ 15 + 128 * j
      s.portState port = 2 → i < 256 → j < 256 → p.used.getLsbD j = false → (∀ m, m < j → p.used.getLsbD m = true) → a + 128 ≤ 0x8000000000 → s.plainFor a 128 → s.memWf = true →
      (s.blockBusy a 128 = true → exec (.reductionBlockArrival port i block) s = .next s)
      ∧ (s.blockBusy a 128 = false → ∃ t, exec (.reductionBlockArrival port i block) s = .next t ∧ (t.port port).queue = p.queue ++ [(i, a)] ∧ (t.port port).used.getLsbD j = true ∧ mread t.mem a 128 = block.toNat ∧ ∀ x, x < a ∨ a + 128 ≤ x → mget t.mem x = mget s.mem x))
    ∧ (∀ port v, port < 24 → v.toNat ≤ 255 → (s.port port).queued v.toNat = true → exec (.rqrelWrite port v) s = .next s)
    ∧ (∀ port v, port < 24 → v.toNat ≤ 255 → (s.port port).queued v.toNat = false → ∃ t, exec (.rqrelWrite port v) s = .next t ∧ (t.port port).used.getLsbD v.toNat = false ∧ (∀ m, m ≠ v.toNat → (t.port port).used.getLsbD m = (s.port port).used.getLsbD m) ∧ (t.port port).queue = (s.port port).queue)
    ∧ (∀ plan, s.budgetAt + 1000 ≤ s.tick → (∀ k, k < 1536 → (s.core k).fduty.toNat ≤ 16) →
      ∃ t, exec (.budgetPeriod plan) s = .next t ∧ t.budgetAt = s.tick ∧ t.regs.pwnow = BitVec.ofNat 64 (plan.power % 2 ^ 12)
        ∧ (∀ k, k < 1536 → 1 ≤ (t.core k).fduty.toNat ∧ (t.core k).fduty.toNat ≤ 16 ∧ (t.core k).fduty.toNat ≤ (s.core k).fduty.toNat + 2 ∧ (s.core k).fduty.toNat ≤ (t.core k).fduty.toNat + 2) ∧ sameMemory s t ∧ t.ctxs = s.ctxs)
    ∧ (∀ row x, (s.row row).taper = some x → x ≤ s.tick → ∃ t, exec (.keeperTaperEnd row) s = .next t ∧ t.row row = { s.row row with taper := none } ∧ sameMemory s t ∧ t.ctxs = s.ctxs)
    ∧ (∀ pier, exec (.refresh pier) s = .next s)
    ∧ (∀ i v, i = Instr.freeze ∨ i = .tapFreeze ∨ (i = .frzWrite v ∧ v.getLsbD 0 = true) → ∃ t, exec i s = .next t ∧ t.still = true ∧ t.selfRefresh = true ∧ sameMemory s t ∧ t.ctxs = s.ctxs ∧ t.cores = s.cores ∧ t.now = s.now)
    ∧ (∀ v : Word, v.getLsbD 0 = false → ∃ t, exec (.frzWrite v) s = .next t ∧ t.still = false ∧ t.regs.frz = 0 ∧ t.ctxs = s.ctxs)
    ∧ (∀ pa, pa < 0x8000000000 → ∃ t, exec (.eccUncorrectable (.line pa)) s = .next t ∧ pa / 64 ∈ t.poison ∧ t.regs.rasumem = bump s.regs.rasumem ∧ t.aer = s.aer + 1 ∧ t.ring.length = s.ring.length + 1 ∧ t.mem = s.mem ∧ t.ctxs = s.ctxs)
    ∧ (∀ core line, core < 1536 → ∃ t, exec (.eccUncorrectable (.cacheLine core line)) s = .next t ∧ (∀ e ∈ (t.core core).dcache, e.1 ≠ line) ∧ t.regs.rascsram = bump s.regs.rascsram ∧ t.ctxs = s.ctxs ∧ sameMemory s t)
    ∧ (∀ core slot, core < 1536 → slot < 8 → (s.ctx (8 * core + slot)).occ = true → (s.core core).eccCount = 0 →
      ∃ t tr, exec (.eccUncorrectable (.context core slot)) s = .next t ∧ (t.ctx (8 * core + slot)).ecc = some tr ∧ tr.cause = 18 ∧ (t.core core).eccCount = 1 ∧ (t.core core).fenced = (s.core core).fenced ∧ t.regs.rasusram = bump s.regs.rasusram ∧ sameMemory s t ∧ sameContexts s t (8 * core + slot))
    ∧ (∀ core, core < 1536 → ∃ t, exec (.eccUncorrectable (.coreState core)) s = .next t ∧ (t.core core).fenced = true ∧ t.regs.rasusram = bump s.regs.rasusram ∧ t.aer = s.aer + 1)
    ∧ (∃ t, exec (.eccCorrected true) s = .next t ∧ t.regs.rascsram = bump s.regs.rascsram ∧ t.ctxs = s.ctxs)
    ∧ (∃ t, exec (.eccCorrected false) s = .next t ∧ t.regs.rascmem = bump s.regs.rascmem ∧ t.ctxs = s.ctxs)
    ∧ (∀ (cluster : Nat) (v : Word), cluster < 48 → v.getLsbD 63 = false → ∃ t, exec (.crepClear cluster v) s = .next t ∧ t.cluster cluster = { s.cluster cluster with crepId := 0, crepPc := 0 })
    ∧ (∀ (cluster : Nat) (v : Word), cluster < 48 → v.getLsbD 63 = false → ∃ t, exec (.cstopClear cluster v) s = .next t ∧ t.cluster cluster = { s.cluster cluster with cstop := 0 })
    ∧ (s.due = true → exec .referenceTick s = .next s)
    ∧ (s.due = false → ∃ t, exec .referenceTick s = .next t ∧ t.now = s.now + 1 ∧ (∀ r, r < 192 → t.row r = { s.row r with balance := min 256 ((s.row r).balance + (s.row r).refill) }) ∧ sameMemory s t ∧ t.ctxs = s.ctxs ∧ t.cores = s.cores)
end

