-- ==== Sys2Proof/Laws/State.lean ====
section
/-! SUPPORT. What each update of the state and of a context leaves in each field: one lemma per field per update. -/

namespace Sys2Proof.Machine.State

open Sys2Proof Sys2Proof.Machine

variable (s : State)

@[simp] theorem setCtx_mem (k : Nat) (c : Ctx) : (s.setCtx k c).mem = s.mem := rfl
@[simp] theorem setCtx_rmem (k : Nat) (c : Ctx) : (s.setCtx k c).rmem = s.rmem := rfl
@[simp] theorem setCtx_lineMeta (k : Nat) (c : Ctx) : (s.setCtx k c).lineMeta = s.lineMeta := rfl
@[simp] theorem setCtx_poison (k : Nat) (c : Ctx) : (s.setCtx k c).poison = s.poison := rfl
@[simp] theorem setCtx_cores (k : Nat) (c : Ctx) : (s.setCtx k c).cores = s.cores := rfl
@[simp] theorem setCtx_rows (k : Nat) (c : Ctx) : (s.setCtx k c).rows = s.rows := rfl
@[simp] theorem setCtx_clusters (k : Nat) (c : Ctx) : (s.setCtx k c).clusters = s.clusters := rfl
@[simp] theorem setCtx_devctxs (k : Nat) (c : Ctx) : (s.setCtx k c).devctxs = s.devctxs := rfl
@[simp] theorem setCtx_regs (k : Nat) (c : Ctx) : (s.setCtx k c).regs = s.regs := rfl
@[simp] theorem setCtx_ports (k : Nat) (c : Ctx) : (s.setCtx k c).ports = s.ports := rfl
@[simp] theorem setCtx_routes (k : Nat) (c : Ctx) : (s.setCtx k c).routes = s.routes := rfl
@[simp] theorem setCtx_truss (k : Nat) (c : Ctx) : (s.setCtx k c).truss = s.truss := rfl
@[simp] theorem setCtx_latched (k : Nat) (c : Ctx) : (s.setCtx k c).latched = s.latched := rfl
@[simp] theorem setCtx_digests (k : Nat) (c : Ctx) : (s.setCtx k c).digests = s.digests := rfl
@[simp] theorem setCtx_parked (k : Nat) (c : Ctx) : (s.setCtx k c).parked = s.parked := rfl
@[simp] theorem setCtx_wakes (k : Nat) (c : Ctx) : (s.setCtx k c).wakes = s.wakes := rfl
@[simp] theorem setCtx_jobs (k : Nat) (c : Ctx) : (s.setCtx k c).jobs = s.jobs := rfl
@[simp] theorem setCtx_nextJob (k : Nat) (c : Ctx) : (s.setCtx k c).nextJob = s.nextJob := rfl
@[simp] theorem setCtx_late (k : Nat) (c : Ctx) : (s.setCtx k c).late = s.late := rfl
@[simp] theorem setCtx_armed (k : Nat) (c : Ctx) : (s.setCtx k c).armed = s.armed := rfl
@[simp] theorem setCtx_fwq (k : Nat) (c : Ctx) : (s.setCtx k c).fwq = s.fwq := rfl
@[simp] theorem setCtx_nextFw (k : Nat) (c : Ctx) : (s.setCtx k c).nextFw = s.nextFw := rfl
@[simp] theorem setCtx_posted (k : Nat) (c : Ctx) : (s.setCtx k c).posted = s.posted := rfl
@[simp] theorem setCtx_mbseq (k : Nat) (c : Ctx) : (s.setCtx k c).mbseq = s.mbseq := rfl
@[simp] theorem setCtx_ring (k : Nat) (c : Ctx) : (s.setCtx k c).ring = s.ring := rfl
@[simp] theorem setCtx_ringSeq (k : Nat) (c : Ctx) : (s.setCtx k c).ringSeq = s.ringSeq := rfl
@[simp] theorem setCtx_msix (k : Nat) (c : Ctx) : (s.setCtx k c).msix = s.msix := rfl
@[simp] theorem setCtx_aer (k : Nat) (c : Ctx) : (s.setCtx k c).aer = s.aer := rfl
@[simp] theorem setCtx_now (k : Nat) (c : Ctx) : (s.setCtx k c).now = s.now := rfl
@[simp] theorem setCtx_resident (k : Nat) (c : Ctx) : (s.setCtx k c).resident = s.resident := rfl
@[simp] theorem setCtx_residentSince (k : Nat) (c : Ctx) : (s.setCtx k c).residentSince = s.residentSince := rfl
@[simp] theorem setCtx_energySum (k : Nat) (c : Ctx) : (s.setCtx k c).energySum = s.energySum := rfl
@[simp] theorem setCtx_incoming (k : Nat) (c : Ctx) : (s.setCtx k c).incoming = s.incoming := rfl
@[simp] theorem setCtx_image (k : Nat) (c : Ctx) : (s.setCtx k c).image = s.image := rfl
@[simp] theorem setCtx_digest (k : Nat) (c : Ctx) : (s.setCtx k c).digest = s.digest := rfl
@[simp] theorem setCtx_mgmt (k : Nat) (c : Ctx) : (s.setCtx k c).mgmt = s.mgmt := rfl
@[simp] theorem setCtx_pcieUp (k : Nat) (c : Ctx) : (s.setCtx k c).pcieUp = s.pcieUp := rfl
@[simp] theorem setCtx_fetchStart (k : Nat) (c : Ctx) : (s.setCtx k c).fetchStart = s.fetchStart := rfl
@[simp] theorem setCtx_fuseSteps (k : Nat) (c : Ctx) : (s.setCtx k c).fuseSteps = s.fuseSteps := rfl
@[simp] theorem setCtx_budgetAt (k : Nat) (c : Ctx) : (s.setCtx k c).budgetAt = s.budgetAt := rfl
@[simp] theorem setCtx_selfRefresh (k : Nat) (c : Ctx) : (s.setCtx k c).selfRefresh = s.selfRefresh := rfl
@[simp] theorem setCtx_nextUid (k : Nat) (c : Ctx) : (s.setCtx k c).nextUid = s.nextUid := rfl
@[simp] theorem setCtx_scOrder (k : Nat) (c : Ctx) : (s.setCtx k c).scOrder = s.scOrder := rfl
@[simp] theorem setCtx_cur (k : Nat) (c : Ctx) : (s.setCtx k c).cur = s.cur := rfl
@[simp] theorem setCtx_stall (k : Nat) (c : Ctx) : (s.setCtx k c).stall = s.stall := rfl
@[simp] theorem setCtx_turns (k : Nat) (c : Ctx) : (s.setCtx k c).turns = s.turns := rfl
@[simp] theorem setCtx_turnNo (k : Nat) (c : Ctx) : (s.setCtx k c).turnNo = s.turnNo := rfl
@[simp] theorem setCtx_freeNo (k : Nat) (c : Ctx) : (s.setCtx k c).freeNo = s.freeNo := rfl

@[simp] theorem setCore_mem (k : Nat) (c : Core) : (s.setCore k c).mem = s.mem := rfl
@[simp] theorem setCore_rmem (k : Nat) (c : Core) : (s.setCore k c).rmem = s.rmem := rfl
@[simp] theorem setCore_lineMeta (k : Nat) (c : Core) : (s.setCore k c).lineMeta = s.lineMeta := rfl
@[simp] theorem setCore_poison (k : Nat) (c : Core) : (s.setCore k c).poison = s.poison := rfl
@[simp] theorem setCore_ctxs (k : Nat) (c : Core) : (s.setCore k c).ctxs = s.ctxs := rfl
@[simp] theorem setCore_rows (k : Nat) (c : Core) : (s.setCore k c).rows = s.rows := rfl
@[simp] theorem setCore_clusters (k : Nat) (c : Core) : (s.setCore k c).clusters = s.clusters := rfl
@[simp] theorem setCore_devctxs (k : Nat) (c : Core) : (s.setCore k c).devctxs = s.devctxs := rfl
@[simp] theorem setCore_regs (k : Nat) (c : Core) : (s.setCore k c).regs = s.regs := rfl
@[simp] theorem setCore_ports (k : Nat) (c : Core) : (s.setCore k c).ports = s.ports := rfl
@[simp] theorem setCore_routes (k : Nat) (c : Core) : (s.setCore k c).routes = s.routes := rfl
@[simp] theorem setCore_truss (k : Nat) (c : Core) : (s.setCore k c).truss = s.truss := rfl
@[simp] theorem setCore_latched (k : Nat) (c : Core) : (s.setCore k c).latched = s.latched := rfl
@[simp] theorem setCore_digests (k : Nat) (c : Core) : (s.setCore k c).digests = s.digests := rfl
@[simp] theorem setCore_parked (k : Nat) (c : Core) : (s.setCore k c).parked = s.parked := rfl
@[simp] theorem setCore_wakes (k : Nat) (c : Core) : (s.setCore k c).wakes = s.wakes := rfl
@[simp] theorem setCore_jobs (k : Nat) (c : Core) : (s.setCore k c).jobs = s.jobs := rfl
@[simp] theorem setCore_nextJob (k : Nat) (c : Core) : (s.setCore k c).nextJob = s.nextJob := rfl
@[simp] theorem setCore_late (k : Nat) (c : Core) : (s.setCore k c).late = s.late := rfl
@[simp] theorem setCore_armed (k : Nat) (c : Core) : (s.setCore k c).armed = s.armed := rfl
@[simp] theorem setCore_fwq (k : Nat) (c : Core) : (s.setCore k c).fwq = s.fwq := rfl
@[simp] theorem setCore_nextFw (k : Nat) (c : Core) : (s.setCore k c).nextFw = s.nextFw := rfl
@[simp] theorem setCore_posted (k : Nat) (c : Core) : (s.setCore k c).posted = s.posted := rfl
@[simp] theorem setCore_mbseq (k : Nat) (c : Core) : (s.setCore k c).mbseq = s.mbseq := rfl
@[simp] theorem setCore_ring (k : Nat) (c : Core) : (s.setCore k c).ring = s.ring := rfl
@[simp] theorem setCore_ringSeq (k : Nat) (c : Core) : (s.setCore k c).ringSeq = s.ringSeq := rfl
@[simp] theorem setCore_msix (k : Nat) (c : Core) : (s.setCore k c).msix = s.msix := rfl
@[simp] theorem setCore_aer (k : Nat) (c : Core) : (s.setCore k c).aer = s.aer := rfl
@[simp] theorem setCore_now (k : Nat) (c : Core) : (s.setCore k c).now = s.now := rfl
@[simp] theorem setCore_resident (k : Nat) (c : Core) : (s.setCore k c).resident = s.resident := rfl
@[simp] theorem setCore_residentSince (k : Nat) (c : Core) : (s.setCore k c).residentSince = s.residentSince := rfl
@[simp] theorem setCore_energySum (k : Nat) (c : Core) : (s.setCore k c).energySum = s.energySum := rfl
@[simp] theorem setCore_incoming (k : Nat) (c : Core) : (s.setCore k c).incoming = s.incoming := rfl
@[simp] theorem setCore_image (k : Nat) (c : Core) : (s.setCore k c).image = s.image := rfl
@[simp] theorem setCore_digest (k : Nat) (c : Core) : (s.setCore k c).digest = s.digest := rfl
@[simp] theorem setCore_mgmt (k : Nat) (c : Core) : (s.setCore k c).mgmt = s.mgmt := rfl
@[simp] theorem setCore_pcieUp (k : Nat) (c : Core) : (s.setCore k c).pcieUp = s.pcieUp := rfl
@[simp] theorem setCore_fetchStart (k : Nat) (c : Core) : (s.setCore k c).fetchStart = s.fetchStart := rfl
@[simp] theorem setCore_fuseSteps (k : Nat) (c : Core) : (s.setCore k c).fuseSteps = s.fuseSteps := rfl
@[simp] theorem setCore_budgetAt (k : Nat) (c : Core) : (s.setCore k c).budgetAt = s.budgetAt := rfl
@[simp] theorem setCore_selfRefresh (k : Nat) (c : Core) : (s.setCore k c).selfRefresh = s.selfRefresh := rfl
@[simp] theorem setCore_nextUid (k : Nat) (c : Core) : (s.setCore k c).nextUid = s.nextUid := rfl
@[simp] theorem setCore_scOrder (k : Nat) (c : Core) : (s.setCore k c).scOrder = s.scOrder := rfl
@[simp] theorem setCore_cur (k : Nat) (c : Core) : (s.setCore k c).cur = s.cur := rfl
@[simp] theorem setCore_stall (k : Nat) (c : Core) : (s.setCore k c).stall = s.stall := rfl
@[simp] theorem setCore_turns (k : Nat) (c : Core) : (s.setCore k c).turns = s.turns := rfl
@[simp] theorem setCore_turnNo (k : Nat) (c : Core) : (s.setCore k c).turnNo = s.turnNo := rfl
@[simp] theorem setCore_freeNo (k : Nat) (c : Core) : (s.setCore k c).freeNo = s.freeNo := rfl

@[simp] theorem setRow_mem (k : Nat) (c : Row) : (s.setRow k c).mem = s.mem := rfl
@[simp] theorem setRow_rmem (k : Nat) (c : Row) : (s.setRow k c).rmem = s.rmem := rfl
@[simp] theorem setRow_lineMeta (k : Nat) (c : Row) : (s.setRow k c).lineMeta = s.lineMeta := rfl
@[simp] theorem setRow_poison (k : Nat) (c : Row) : (s.setRow k c).poison = s.poison := rfl
@[simp] theorem setRow_ctxs (k : Nat) (c : Row) : (s.setRow k c).ctxs = s.ctxs := rfl
@[simp] theorem setRow_cores (k : Nat) (c : Row) : (s.setRow k c).cores = s.cores := rfl
@[simp] theorem setRow_clusters (k : Nat) (c : Row) : (s.setRow k c).clusters = s.clusters := rfl
@[simp] theorem setRow_devctxs (k : Nat) (c : Row) : (s.setRow k c).devctxs = s.devctxs := rfl
@[simp] theorem setRow_regs (k : Nat) (c : Row) : (s.setRow k c).regs = s.regs := rfl
@[simp] theorem setRow_ports (k : Nat) (c : Row) : (s.setRow k c).ports = s.ports := rfl
@[simp] theorem setRow_routes (k : Nat) (c : Row) : (s.setRow k c).routes = s.routes := rfl
@[simp] theorem setRow_truss (k : Nat) (c : Row) : (s.setRow k c).truss = s.truss := rfl
@[simp] theorem setRow_latched (k : Nat) (c : Row) : (s.setRow k c).latched = s.latched := rfl
@[simp] theorem setRow_digests (k : Nat) (c : Row) : (s.setRow k c).digests = s.digests := rfl
@[simp] theorem setRow_parked (k : Nat) (c : Row) : (s.setRow k c).parked = s.parked := rfl
@[simp] theorem setRow_wakes (k : Nat) (c : Row) : (s.setRow k c).wakes = s.wakes := rfl
@[simp] theorem setRow_jobs (k : Nat) (c : Row) : (s.setRow k c).jobs = s.jobs := rfl
@[simp] theorem setRow_nextJob (k : Nat) (c : Row) : (s.setRow k c).nextJob = s.nextJob := rfl
@[simp] theorem setRow_late (k : Nat) (c : Row) : (s.setRow k c).late = s.late := rfl
@[simp] theorem setRow_armed (k : Nat) (c : Row) : (s.setRow k c).armed = s.armed := rfl
@[simp] theorem setRow_fwq (k : Nat) (c : Row) : (s.setRow k c).fwq = s.fwq := rfl
@[simp] theorem setRow_nextFw (k : Nat) (c : Row) : (s.setRow k c).nextFw = s.nextFw := rfl
@[simp] theorem setRow_posted (k : Nat) (c : Row) : (s.setRow k c).posted = s.posted := rfl
@[simp] theorem setRow_mbseq (k : Nat) (c : Row) : (s.setRow k c).mbseq = s.mbseq := rfl
@[simp] theorem setRow_ring (k : Nat) (c : Row) : (s.setRow k c).ring = s.ring := rfl
@[simp] theorem setRow_ringSeq (k : Nat) (c : Row) : (s.setRow k c).ringSeq = s.ringSeq := rfl
@[simp] theorem setRow_msix (k : Nat) (c : Row) : (s.setRow k c).msix = s.msix := rfl
@[simp] theorem setRow_aer (k : Nat) (c : Row) : (s.setRow k c).aer = s.aer := rfl
@[simp] theorem setRow_now (k : Nat) (c : Row) : (s.setRow k c).now = s.now := rfl
@[simp] theorem setRow_resident (k : Nat) (c : Row) : (s.setRow k c).resident = s.resident := rfl
@[simp] theorem setRow_residentSince (k : Nat) (c : Row) : (s.setRow k c).residentSince = s.residentSince := rfl
@[simp] theorem setRow_energySum (k : Nat) (c : Row) : (s.setRow k c).energySum = s.energySum := rfl
@[simp] theorem setRow_incoming (k : Nat) (c : Row) : (s.setRow k c).incoming = s.incoming := rfl
@[simp] theorem setRow_image (k : Nat) (c : Row) : (s.setRow k c).image = s.image := rfl
@[simp] theorem setRow_digest (k : Nat) (c : Row) : (s.setRow k c).digest = s.digest := rfl
@[simp] theorem setRow_mgmt (k : Nat) (c : Row) : (s.setRow k c).mgmt = s.mgmt := rfl
@[simp] theorem setRow_pcieUp (k : Nat) (c : Row) : (s.setRow k c).pcieUp = s.pcieUp := rfl
@[simp] theorem setRow_fetchStart (k : Nat) (c : Row) : (s.setRow k c).fetchStart = s.fetchStart := rfl
@[simp] theorem setRow_fuseSteps (k : Nat) (c : Row) : (s.setRow k c).fuseSteps = s.fuseSteps := rfl
@[simp] theorem setRow_budgetAt (k : Nat) (c : Row) : (s.setRow k c).budgetAt = s.budgetAt := rfl
@[simp] theorem setRow_selfRefresh (k : Nat) (c : Row) : (s.setRow k c).selfRefresh = s.selfRefresh := rfl
@[simp] theorem setRow_nextUid (k : Nat) (c : Row) : (s.setRow k c).nextUid = s.nextUid := rfl
@[simp] theorem setRow_scOrder (k : Nat) (c : Row) : (s.setRow k c).scOrder = s.scOrder := rfl
@[simp] theorem setRow_cur (k : Nat) (c : Row) : (s.setRow k c).cur = s.cur := rfl
@[simp] theorem setRow_stall (k : Nat) (c : Row) : (s.setRow k c).stall = s.stall := rfl
@[simp] theorem setRow_turns (k : Nat) (c : Row) : (s.setRow k c).turns = s.turns := rfl
@[simp] theorem setRow_turnNo (k : Nat) (c : Row) : (s.setRow k c).turnNo = s.turnNo := rfl
@[simp] theorem setRow_freeNo (k : Nat) (c : Row) : (s.setRow k c).freeNo = s.freeNo := rfl

@[simp] theorem setCluster_mem (k : Nat) (c : Cluster) : (s.setCluster k c).mem = s.mem := rfl
@[simp] theorem setCluster_rmem (k : Nat) (c : Cluster) : (s.setCluster k c).rmem = s.rmem := rfl
@[simp] theorem setCluster_lineMeta (k : Nat) (c : Cluster) : (s.setCluster k c).lineMeta = s.lineMeta := rfl
@[simp] theorem setCluster_poison (k : Nat) (c : Cluster) : (s.setCluster k c).poison = s.poison := rfl
@[simp] theorem setCluster_ctxs (k : Nat) (c : Cluster) : (s.setCluster k c).ctxs = s.ctxs := rfl
@[simp] theorem setCluster_cores (k : Nat) (c : Cluster) : (s.setCluster k c).cores = s.cores := rfl
@[simp] theorem setCluster_rows (k : Nat) (c : Cluster) : (s.setCluster k c).rows = s.rows := rfl
@[simp] theorem setCluster_devctxs (k : Nat) (c : Cluster) : (s.setCluster k c).devctxs = s.devctxs := rfl
@[simp] theorem setCluster_regs (k : Nat) (c : Cluster) : (s.setCluster k c).regs = s.regs := rfl
@[simp] theorem setCluster_ports (k : Nat) (c : Cluster) : (s.setCluster k c).ports = s.ports := rfl
@[simp] theorem setCluster_routes (k : Nat) (c : Cluster) : (s.setCluster k c).routes = s.routes := rfl
@[simp] theorem setCluster_truss (k : Nat) (c : Cluster) : (s.setCluster k c).truss = s.truss := rfl
@[simp] theorem setCluster_latched (k : Nat) (c : Cluster) : (s.setCluster k c).latched = s.latched := rfl
@[simp] theorem setCluster_digests (k : Nat) (c : Cluster) : (s.setCluster k c).digests = s.digests := rfl
@[simp] theorem setCluster_parked (k : Nat) (c : Cluster) : (s.setCluster k c).parked = s.parked := rfl
@[simp] theorem setCluster_wakes (k : Nat) (c : Cluster) : (s.setCluster k c).wakes = s.wakes := rfl
@[simp] theorem setCluster_jobs (k : Nat) (c : Cluster) : (s.setCluster k c).jobs = s.jobs := rfl
@[simp] theorem setCluster_nextJob (k : Nat) (c : Cluster) : (s.setCluster k c).nextJob = s.nextJob := rfl
@[simp] theorem setCluster_late (k : Nat) (c : Cluster) : (s.setCluster k c).late = s.late := rfl
@[simp] theorem setCluster_armed (k : Nat) (c : Cluster) : (s.setCluster k c).armed = s.armed := rfl
@[simp] theorem setCluster_fwq (k : Nat) (c : Cluster) : (s.setCluster k c).fwq = s.fwq := rfl
@[simp] theorem setCluster_nextFw (k : Nat) (c : Cluster) : (s.setCluster k c).nextFw = s.nextFw := rfl
@[simp] theorem setCluster_posted (k : Nat) (c : Cluster) : (s.setCluster k c).posted = s.posted := rfl
@[simp] theorem setCluster_mbseq (k : Nat) (c : Cluster) : (s.setCluster k c).mbseq = s.mbseq := rfl
@[simp] theorem setCluster_ring (k : Nat) (c : Cluster) : (s.setCluster k c).ring = s.ring := rfl
@[simp] theorem setCluster_ringSeq (k : Nat) (c : Cluster) : (s.setCluster k c).ringSeq = s.ringSeq := rfl
@[simp] theorem setCluster_msix (k : Nat) (c : Cluster) : (s.setCluster k c).msix = s.msix := rfl
@[simp] theorem setCluster_aer (k : Nat) (c : Cluster) : (s.setCluster k c).aer = s.aer := rfl
@[simp] theorem setCluster_now (k : Nat) (c : Cluster) : (s.setCluster k c).now = s.now := rfl
@[simp] theorem setCluster_resident (k : Nat) (c : Cluster) : (s.setCluster k c).resident = s.resident := rfl
@[simp] theorem setCluster_residentSince (k : Nat) (c : Cluster) : (s.setCluster k c).residentSince = s.residentSince := rfl
@[simp] theorem setCluster_energySum (k : Nat) (c : Cluster) : (s.setCluster k c).energySum = s.energySum := rfl
@[simp] theorem setCluster_incoming (k : Nat) (c : Cluster) : (s.setCluster k c).incoming = s.incoming := rfl
@[simp] theorem setCluster_image (k : Nat) (c : Cluster) : (s.setCluster k c).image = s.image := rfl
@[simp] theorem setCluster_digest (k : Nat) (c : Cluster) : (s.setCluster k c).digest = s.digest := rfl
@[simp] theorem setCluster_mgmt (k : Nat) (c : Cluster) : (s.setCluster k c).mgmt = s.mgmt := rfl
@[simp] theorem setCluster_pcieUp (k : Nat) (c : Cluster) : (s.setCluster k c).pcieUp = s.pcieUp := rfl
@[simp] theorem setCluster_fetchStart (k : Nat) (c : Cluster) : (s.setCluster k c).fetchStart = s.fetchStart := rfl
@[simp] theorem setCluster_fuseSteps (k : Nat) (c : Cluster) : (s.setCluster k c).fuseSteps = s.fuseSteps := rfl
@[simp] theorem setCluster_budgetAt (k : Nat) (c : Cluster) : (s.setCluster k c).budgetAt = s.budgetAt := rfl
@[simp] theorem setCluster_selfRefresh (k : Nat) (c : Cluster) : (s.setCluster k c).selfRefresh = s.selfRefresh := rfl
@[simp] theorem setCluster_nextUid (k : Nat) (c : Cluster) : (s.setCluster k c).nextUid = s.nextUid := rfl
@[simp] theorem setCluster_scOrder (k : Nat) (c : Cluster) : (s.setCluster k c).scOrder = s.scOrder := rfl
@[simp] theorem setCluster_cur (k : Nat) (c : Cluster) : (s.setCluster k c).cur = s.cur := rfl
@[simp] theorem setCluster_stall (k : Nat) (c : Cluster) : (s.setCluster k c).stall = s.stall := rfl
@[simp] theorem setCluster_turns (k : Nat) (c : Cluster) : (s.setCluster k c).turns = s.turns := rfl
@[simp] theorem setCluster_turnNo (k : Nat) (c : Cluster) : (s.setCluster k c).turnNo = s.turnNo := rfl
@[simp] theorem setCluster_freeNo (k : Nat) (c : Cluster) : (s.setCluster k c).freeNo = s.freeNo := rfl

@[simp] theorem setDctx_mem (k : Nat) (c : DevCtx) : (s.setDctx k c).mem = s.mem := rfl
@[simp] theorem setDctx_rmem (k : Nat) (c : DevCtx) : (s.setDctx k c).rmem = s.rmem := rfl
@[simp] theorem setDctx_lineMeta (k : Nat) (c : DevCtx) : (s.setDctx k c).lineMeta = s.lineMeta := rfl
@[simp] theorem setDctx_poison (k : Nat) (c : DevCtx) : (s.setDctx k c).poison = s.poison := rfl
@[simp] theorem setDctx_ctxs (k : Nat) (c : DevCtx) : (s.setDctx k c).ctxs = s.ctxs := rfl
@[simp] theorem setDctx_cores (k : Nat) (c : DevCtx) : (s.setDctx k c).cores = s.cores := rfl
@[simp] theorem setDctx_rows (k : Nat) (c : DevCtx) : (s.setDctx k c).rows = s.rows := rfl
@[simp] theorem setDctx_clusters (k : Nat) (c : DevCtx) : (s.setDctx k c).clusters = s.clusters := rfl
@[simp] theorem setDctx_regs (k : Nat) (c : DevCtx) : (s.setDctx k c).regs = s.regs := rfl
@[simp] theorem setDctx_ports (k : Nat) (c : DevCtx) : (s.setDctx k c).ports = s.ports := rfl
@[simp] theorem setDctx_routes (k : Nat) (c : DevCtx) : (s.setDctx k c).routes = s.routes := rfl
@[simp] theorem setDctx_truss (k : Nat) (c : DevCtx) : (s.setDctx k c).truss = s.truss := rfl
@[simp] theorem setDctx_latched (k : Nat) (c : DevCtx) : (s.setDctx k c).latched = s.latched := rfl
@[simp] theorem setDctx_digests (k : Nat) (c : DevCtx) : (s.setDctx k c).digests = s.digests := rfl
@[simp] theorem setDctx_parked (k : Nat) (c : DevCtx) : (s.setDctx k c).parked = s.parked := rfl
@[simp] theorem setDctx_wakes (k : Nat) (c : DevCtx) : (s.setDctx k c).wakes = s.wakes := rfl
@[simp] theorem setDctx_jobs (k : Nat) (c : DevCtx) : (s.setDctx k c).jobs = s.jobs := rfl
@[simp] theorem setDctx_nextJob (k : Nat) (c : DevCtx) : (s.setDctx k c).nextJob = s.nextJob := rfl
@[simp] theorem setDctx_late (k : Nat) (c : DevCtx) : (s.setDctx k c).late = s.late := rfl
@[simp] theorem setDctx_armed (k : Nat) (c : DevCtx) : (s.setDctx k c).armed = s.armed := rfl
@[simp] theorem setDctx_fwq (k : Nat) (c : DevCtx) : (s.setDctx k c).fwq = s.fwq := rfl
@[simp] theorem setDctx_nextFw (k : Nat) (c : DevCtx) : (s.setDctx k c).nextFw = s.nextFw := rfl
@[simp] theorem setDctx_posted (k : Nat) (c : DevCtx) : (s.setDctx k c).posted = s.posted := rfl
@[simp] theorem setDctx_mbseq (k : Nat) (c : DevCtx) : (s.setDctx k c).mbseq = s.mbseq := rfl
@[simp] theorem setDctx_ring (k : Nat) (c : DevCtx) : (s.setDctx k c).ring = s.ring := rfl
@[simp] theorem setDctx_ringSeq (k : Nat) (c : DevCtx) : (s.setDctx k c).ringSeq = s.ringSeq := rfl
@[simp] theorem setDctx_msix (k : Nat) (c : DevCtx) : (s.setDctx k c).msix = s.msix := rfl
@[simp] theorem setDctx_aer (k : Nat) (c : DevCtx) : (s.setDctx k c).aer = s.aer := rfl
@[simp] theorem setDctx_now (k : Nat) (c : DevCtx) : (s.setDctx k c).now = s.now := rfl
@[simp] theorem setDctx_resident (k : Nat) (c : DevCtx) : (s.setDctx k c).resident = s.resident := rfl
@[simp] theorem setDctx_residentSince (k : Nat) (c : DevCtx) : (s.setDctx k c).residentSince = s.residentSince := rfl
@[simp] theorem setDctx_energySum (k : Nat) (c : DevCtx) : (s.setDctx k c).energySum = s.energySum := rfl
@[simp] theorem setDctx_incoming (k : Nat) (c : DevCtx) : (s.setDctx k c).incoming = s.incoming := rfl
@[simp] theorem setDctx_image (k : Nat) (c : DevCtx) : (s.setDctx k c).image = s.image := rfl
@[simp] theorem setDctx_digest (k : Nat) (c : DevCtx) : (s.setDctx k c).digest = s.digest := rfl
@[simp] theorem setDctx_mgmt (k : Nat) (c : DevCtx) : (s.setDctx k c).mgmt = s.mgmt := rfl
@[simp] theorem setDctx_pcieUp (k : Nat) (c : DevCtx) : (s.setDctx k c).pcieUp = s.pcieUp := rfl
@[simp] theorem setDctx_fetchStart (k : Nat) (c : DevCtx) : (s.setDctx k c).fetchStart = s.fetchStart := rfl
@[simp] theorem setDctx_fuseSteps (k : Nat) (c : DevCtx) : (s.setDctx k c).fuseSteps = s.fuseSteps := rfl
@[simp] theorem setDctx_budgetAt (k : Nat) (c : DevCtx) : (s.setDctx k c).budgetAt = s.budgetAt := rfl
@[simp] theorem setDctx_selfRefresh (k : Nat) (c : DevCtx) : (s.setDctx k c).selfRefresh = s.selfRefresh := rfl
@[simp] theorem setDctx_nextUid (k : Nat) (c : DevCtx) : (s.setDctx k c).nextUid = s.nextUid := rfl
@[simp] theorem setDctx_scOrder (k : Nat) (c : DevCtx) : (s.setDctx k c).scOrder = s.scOrder := rfl
@[simp] theorem setDctx_cur (k : Nat) (c : DevCtx) : (s.setDctx k c).cur = s.cur := rfl
@[simp] theorem setDctx_stall (k : Nat) (c : DevCtx) : (s.setDctx k c).stall = s.stall := rfl
@[simp] theorem setDctx_turns (k : Nat) (c : DevCtx) : (s.setDctx k c).turns = s.turns := rfl
@[simp] theorem setDctx_turnNo (k : Nat) (c : DevCtx) : (s.setDctx k c).turnNo = s.turnNo := rfl
@[simp] theorem setDctx_freeNo (k : Nat) (c : DevCtx) : (s.setDctx k c).freeNo = s.freeNo := rfl

@[simp] theorem setPort_mem (k : Nat) (c : Port) : (s.setPort k c).mem = s.mem := rfl
@[simp] theorem setPort_rmem (k : Nat) (c : Port) : (s.setPort k c).rmem = s.rmem := rfl
@[simp] theorem setPort_lineMeta (k : Nat) (c : Port) : (s.setPort k c).lineMeta = s.lineMeta := rfl
@[simp] theorem setPort_poison (k : Nat) (c : Port) : (s.setPort k c).poison = s.poison := rfl
@[simp] theorem setPort_ctxs (k : Nat) (c : Port) : (s.setPort k c).ctxs = s.ctxs := rfl
@[simp] theorem setPort_cores (k : Nat) (c : Port) : (s.setPort k c).cores = s.cores := rfl
@[simp] theorem setPort_rows (k : Nat) (c : Port) : (s.setPort k c).rows = s.rows := rfl
@[simp] theorem setPort_clusters (k : Nat) (c : Port) : (s.setPort k c).clusters = s.clusters := rfl
@[simp] theorem setPort_devctxs (k : Nat) (c : Port) : (s.setPort k c).devctxs = s.devctxs := rfl
@[simp] theorem setPort_regs (k : Nat) (c : Port) : (s.setPort k c).regs = s.regs := rfl
@[simp] theorem setPort_routes (k : Nat) (c : Port) : (s.setPort k c).routes = s.routes := rfl
@[simp] theorem setPort_truss (k : Nat) (c : Port) : (s.setPort k c).truss = s.truss := rfl
@[simp] theorem setPort_latched (k : Nat) (c : Port) : (s.setPort k c).latched = s.latched := rfl
@[simp] theorem setPort_digests (k : Nat) (c : Port) : (s.setPort k c).digests = s.digests := rfl
@[simp] theorem setPort_parked (k : Nat) (c : Port) : (s.setPort k c).parked = s.parked := rfl
@[simp] theorem setPort_wakes (k : Nat) (c : Port) : (s.setPort k c).wakes = s.wakes := rfl
@[simp] theorem setPort_jobs (k : Nat) (c : Port) : (s.setPort k c).jobs = s.jobs := rfl
@[simp] theorem setPort_nextJob (k : Nat) (c : Port) : (s.setPort k c).nextJob = s.nextJob := rfl
@[simp] theorem setPort_late (k : Nat) (c : Port) : (s.setPort k c).late = s.late := rfl
@[simp] theorem setPort_armed (k : Nat) (c : Port) : (s.setPort k c).armed = s.armed := rfl
@[simp] theorem setPort_fwq (k : Nat) (c : Port) : (s.setPort k c).fwq = s.fwq := rfl
@[simp] theorem setPort_nextFw (k : Nat) (c : Port) : (s.setPort k c).nextFw = s.nextFw := rfl
@[simp] theorem setPort_posted (k : Nat) (c : Port) : (s.setPort k c).posted = s.posted := rfl
@[simp] theorem setPort_mbseq (k : Nat) (c : Port) : (s.setPort k c).mbseq = s.mbseq := rfl
@[simp] theorem setPort_ring (k : Nat) (c : Port) : (s.setPort k c).ring = s.ring := rfl
@[simp] theorem setPort_ringSeq (k : Nat) (c : Port) : (s.setPort k c).ringSeq = s.ringSeq := rfl
@[simp] theorem setPort_msix (k : Nat) (c : Port) : (s.setPort k c).msix = s.msix := rfl
@[simp] theorem setPort_aer (k : Nat) (c : Port) : (s.setPort k c).aer = s.aer := rfl
@[simp] theorem setPort_now (k : Nat) (c : Port) : (s.setPort k c).now = s.now := rfl
@[simp] theorem setPort_resident (k : Nat) (c : Port) : (s.setPort k c).resident = s.resident := rfl
@[simp] theorem setPort_residentSince (k : Nat) (c : Port) : (s.setPort k c).residentSince = s.residentSince := rfl
@[simp] theorem setPort_energySum (k : Nat) (c : Port) : (s.setPort k c).energySum = s.energySum := rfl
@[simp] theorem setPort_incoming (k : Nat) (c : Port) : (s.setPort k c).incoming = s.incoming := rfl
@[simp] theorem setPort_image (k : Nat) (c : Port) : (s.setPort k c).image = s.image := rfl
@[simp] theorem setPort_digest (k : Nat) (c : Port) : (s.setPort k c).digest = s.digest := rfl
@[simp] theorem setPort_mgmt (k : Nat) (c : Port) : (s.setPort k c).mgmt = s.mgmt := rfl
@[simp] theorem setPort_pcieUp (k : Nat) (c : Port) : (s.setPort k c).pcieUp = s.pcieUp := rfl
@[simp] theorem setPort_fetchStart (k : Nat) (c : Port) : (s.setPort k c).fetchStart = s.fetchStart := rfl
@[simp] theorem setPort_fuseSteps (k : Nat) (c : Port) : (s.setPort k c).fuseSteps = s.fuseSteps := rfl
@[simp] theorem setPort_budgetAt (k : Nat) (c : Port) : (s.setPort k c).budgetAt = s.budgetAt := rfl
@[simp] theorem setPort_selfRefresh (k : Nat) (c : Port) : (s.setPort k c).selfRefresh = s.selfRefresh := rfl
@[simp] theorem setPort_nextUid (k : Nat) (c : Port) : (s.setPort k c).nextUid = s.nextUid := rfl
@[simp] theorem setPort_scOrder (k : Nat) (c : Port) : (s.setPort k c).scOrder = s.scOrder := rfl
@[simp] theorem setPort_cur (k : Nat) (c : Port) : (s.setPort k c).cur = s.cur := rfl
@[simp] theorem setPort_stall (k : Nat) (c : Port) : (s.setPort k c).stall = s.stall := rfl
@[simp] theorem setPort_turns (k : Nat) (c : Port) : (s.setPort k c).turns = s.turns := rfl
@[simp] theorem setPort_turnNo (k : Nat) (c : Port) : (s.setPort k c).turnNo = s.turnNo := rfl
@[simp] theorem setPort_freeNo (k : Nat) (c : Port) : (s.setPort k c).freeNo = s.freeNo := rfl

@[simp] theorem setCx_mem (c : Ctx) : (s.setCx c).mem = s.mem := rfl
@[simp] theorem setCx_rmem (c : Ctx) : (s.setCx c).rmem = s.rmem := rfl
@[simp] theorem setCx_lineMeta (c : Ctx) : (s.setCx c).lineMeta = s.lineMeta := rfl
@[simp] theorem setCx_poison (c : Ctx) : (s.setCx c).poison = s.poison := rfl
@[simp] theorem setCx_cores (c : Ctx) : (s.setCx c).cores = s.cores := rfl
@[simp] theorem setCx_rows (c : Ctx) : (s.setCx c).rows = s.rows := rfl
@[simp] theorem setCx_clusters (c : Ctx) : (s.setCx c).clusters = s.clusters := rfl
@[simp] theorem setCx_devctxs (c : Ctx) : (s.setCx c).devctxs = s.devctxs := rfl
@[simp] theorem setCx_regs (c : Ctx) : (s.setCx c).regs = s.regs := rfl
@[simp] theorem setCx_ports (c : Ctx) : (s.setCx c).ports = s.ports := rfl
@[simp] theorem setCx_routes (c : Ctx) : (s.setCx c).routes = s.routes := rfl
@[simp] theorem setCx_truss (c : Ctx) : (s.setCx c).truss = s.truss := rfl
@[simp] theorem setCx_latched (c : Ctx) : (s.setCx c).latched = s.latched := rfl
@[simp] theorem setCx_digests (c : Ctx) : (s.setCx c).digests = s.digests := rfl
@[simp] theorem setCx_parked (c : Ctx) : (s.setCx c).parked = s.parked := rfl
@[simp] theorem setCx_wakes (c : Ctx) : (s.setCx c).wakes = s.wakes := rfl
@[simp] theorem setCx_jobs (c : Ctx) : (s.setCx c).jobs = s.jobs := rfl
@[simp] theorem setCx_nextJob (c : Ctx) : (s.setCx c).nextJob = s.nextJob := rfl
@[simp] theorem setCx_late (c : Ctx) : (s.setCx c).late = s.late := rfl
@[simp] theorem setCx_armed (c : Ctx) : (s.setCx c).armed = s.armed := rfl
@[simp] theorem setCx_fwq (c : Ctx) : (s.setCx c).fwq = s.fwq := rfl
@[simp] theorem setCx_nextFw (c : Ctx) : (s.setCx c).nextFw = s.nextFw := rfl
@[simp] theorem setCx_posted (c : Ctx) : (s.setCx c).posted = s.posted := rfl
@[simp] theorem setCx_mbseq (c : Ctx) : (s.setCx c).mbseq = s.mbseq := rfl
@[simp] theorem setCx_ring (c : Ctx) : (s.setCx c).ring = s.ring := rfl
@[simp] theorem setCx_ringSeq (c : Ctx) : (s.setCx c).ringSeq = s.ringSeq := rfl
@[simp] theorem setCx_msix (c : Ctx) : (s.setCx c).msix = s.msix := rfl
@[simp] theorem setCx_aer (c : Ctx) : (s.setCx c).aer = s.aer := rfl
@[simp] theorem setCx_now (c : Ctx) : (s.setCx c).now = s.now := rfl
@[simp] theorem setCx_resident (c : Ctx) : (s.setCx c).resident = s.resident := rfl
@[simp] theorem setCx_residentSince (c : Ctx) : (s.setCx c).residentSince = s.residentSince := rfl
@[simp] theorem setCx_energySum (c : Ctx) : (s.setCx c).energySum = s.energySum := rfl
@[simp] theorem setCx_incoming (c : Ctx) : (s.setCx c).incoming = s.incoming := rfl
@[simp] theorem setCx_image (c : Ctx) : (s.setCx c).image = s.image := rfl
@[simp] theorem setCx_digest (c : Ctx) : (s.setCx c).digest = s.digest := rfl
@[simp] theorem setCx_mgmt (c : Ctx) : (s.setCx c).mgmt = s.mgmt := rfl
@[simp] theorem setCx_pcieUp (c : Ctx) : (s.setCx c).pcieUp = s.pcieUp := rfl
@[simp] theorem setCx_fetchStart (c : Ctx) : (s.setCx c).fetchStart = s.fetchStart := rfl
@[simp] theorem setCx_fuseSteps (c : Ctx) : (s.setCx c).fuseSteps = s.fuseSteps := rfl
@[simp] theorem setCx_budgetAt (c : Ctx) : (s.setCx c).budgetAt = s.budgetAt := rfl
@[simp] theorem setCx_selfRefresh (c : Ctx) : (s.setCx c).selfRefresh = s.selfRefresh := rfl
@[simp] theorem setCx_nextUid (c : Ctx) : (s.setCx c).nextUid = s.nextUid := rfl
@[simp] theorem setCx_scOrder (c : Ctx) : (s.setCx c).scOrder = s.scOrder := rfl
@[simp] theorem setCx_cur (c : Ctx) : (s.setCx c).cur = s.cur := rfl
@[simp] theorem setCx_stall (c : Ctx) : (s.setCx c).stall = s.stall := rfl
@[simp] theorem setCx_turns (c : Ctx) : (s.setCx c).turns = s.turns := rfl
@[simp] theorem setCx_turnNo (c : Ctx) : (s.setCx c).turnNo = s.turnNo := rfl
@[simp] theorem setCx_freeNo (c : Ctx) : (s.setCx c).freeNo = s.freeNo := rfl

@[simp] theorem setCo_mem (c : Core) : (s.setCo c).mem = s.mem := rfl
@[simp] theorem setCo_rmem (c : Core) : (s.setCo c).rmem = s.rmem := rfl
@[simp] theorem setCo_lineMeta (c : Core) : (s.setCo c).lineMeta = s.lineMeta := rfl
@[simp] theorem setCo_poison (c : Core) : (s.setCo c).poison = s.poison := rfl
@[simp] theorem setCo_ctxs (c : Core) : (s.setCo c).ctxs = s.ctxs := rfl
@[simp] theorem setCo_rows (c : Core) : (s.setCo c).rows = s.rows := rfl
@[simp] theorem setCo_clusters (c : Core) : (s.setCo c).clusters = s.clusters := rfl
@[simp] theorem setCo_devctxs (c : Core) : (s.setCo c).devctxs = s.devctxs := rfl
@[simp] theorem setCo_regs (c : Core) : (s.setCo c).regs = s.regs := rfl
@[simp] theorem setCo_ports (c : Core) : (s.setCo c).ports = s.ports := rfl
@[simp] theorem setCo_routes (c : Core) : (s.setCo c).routes = s.routes := rfl
@[simp] theorem setCo_truss (c : Core) : (s.setCo c).truss = s.truss := rfl
@[simp] theorem setCo_latched (c : Core) : (s.setCo c).latched = s.latched := rfl
@[simp] theorem setCo_digests (c : Core) : (s.setCo c).digests = s.digests := rfl
@[simp] theorem setCo_parked (c : Core) : (s.setCo c).parked = s.parked := rfl
@[simp] theorem setCo_wakes (c : Core) : (s.setCo c).wakes = s.wakes := rfl
@[simp] theorem setCo_jobs (c : Core) : (s.setCo c).jobs = s.jobs := rfl
@[simp] theorem setCo_nextJob (c : Core) : (s.setCo c).nextJob = s.nextJob := rfl
@[simp] theorem setCo_late (c : Core) : (s.setCo c).late = s.late := rfl
@[simp] theorem setCo_armed (c : Core) : (s.setCo c).armed = s.armed := rfl
@[simp] theorem setCo_fwq (c : Core) : (s.setCo c).fwq = s.fwq := rfl
@[simp] theorem setCo_nextFw (c : Core) : (s.setCo c).nextFw = s.nextFw := rfl
@[simp] theorem setCo_posted (c : Core) : (s.setCo c).posted = s.posted := rfl
@[simp] theorem setCo_mbseq (c : Core) : (s.setCo c).mbseq = s.mbseq := rfl
@[simp] theorem setCo_ring (c : Core) : (s.setCo c).ring = s.ring := rfl
@[simp] theorem setCo_ringSeq (c : Core) : (s.setCo c).ringSeq = s.ringSeq := rfl
@[simp] theorem setCo_msix (c : Core) : (s.setCo c).msix = s.msix := rfl
@[simp] theorem setCo_aer (c : Core) : (s.setCo c).aer = s.aer := rfl
@[simp] theorem setCo_now (c : Core) : (s.setCo c).now = s.now := rfl
@[simp] theorem setCo_resident (c : Core) : (s.setCo c).resident = s.resident := rfl
@[simp] theorem setCo_residentSince (c : Core) : (s.setCo c).residentSince = s.residentSince := rfl
@[simp] theorem setCo_energySum (c : Core) : (s.setCo c).energySum = s.energySum := rfl
@[simp] theorem setCo_incoming (c : Core) : (s.setCo c).incoming = s.incoming := rfl
@[simp] theorem setCo_image (c : Core) : (s.setCo c).image = s.image := rfl
@[simp] theorem setCo_digest (c : Core) : (s.setCo c).digest = s.digest := rfl
@[simp] theorem setCo_mgmt (c : Core) : (s.setCo c).mgmt = s.mgmt := rfl
@[simp] theorem setCo_pcieUp (c : Core) : (s.setCo c).pcieUp = s.pcieUp := rfl
@[simp] theorem setCo_fetchStart (c : Core) : (s.setCo c).fetchStart = s.fetchStart := rfl
@[simp] theorem setCo_fuseSteps (c : Core) : (s.setCo c).fuseSteps = s.fuseSteps := rfl
@[simp] theorem setCo_budgetAt (c : Core) : (s.setCo c).budgetAt = s.budgetAt := rfl
@[simp] theorem setCo_selfRefresh (c : Core) : (s.setCo c).selfRefresh = s.selfRefresh := rfl
@[simp] theorem setCo_nextUid (c : Core) : (s.setCo c).nextUid = s.nextUid := rfl
@[simp] theorem setCo_scOrder (c : Core) : (s.setCo c).scOrder = s.scOrder := rfl
@[simp] theorem setCo_cur (c : Core) : (s.setCo c).cur = s.cur := rfl
@[simp] theorem setCo_stall (c : Core) : (s.setCo c).stall = s.stall := rfl
@[simp] theorem setCo_turns (c : Core) : (s.setCo c).turns = s.turns := rfl
@[simp] theorem setCo_turnNo (c : Core) : (s.setCo c).turnNo = s.turnNo := rfl
@[simp] theorem setCo_freeNo (c : Core) : (s.setCo c).freeNo = s.freeNo := rfl

@[simp] theorem setMetaBit_mem (a b : Nat) (v : Bool) : (s.setMetaBit a b v).mem = s.mem := rfl
@[simp] theorem setMetaBit_rmem (a b : Nat) (v : Bool) : (s.setMetaBit a b v).rmem = s.rmem := rfl
@[simp] theorem setMetaBit_poison (a b : Nat) (v : Bool) : (s.setMetaBit a b v).poison = s.poison := rfl
@[simp] theorem setMetaBit_ctxs (a b : Nat) (v : Bool) : (s.setMetaBit a b v).ctxs = s.ctxs := rfl
@[simp] theorem setMetaBit_cores (a b : Nat) (v : Bool) : (s.setMetaBit a b v).cores = s.cores := rfl
@[simp] theorem setMetaBit_rows (a b : Nat) (v : Bool) : (s.setMetaBit a b v).rows = s.rows := rfl
@[simp] theorem setMetaBit_clusters (a b : Nat) (v : Bool) : (s.setMetaBit a b v).clusters = s.clusters := rfl
@[simp] theorem setMetaBit_devctxs (a b : Nat) (v : Bool) : (s.setMetaBit a b v).devctxs = s.devctxs := rfl
@[simp] theorem setMetaBit_regs (a b : Nat) (v : Bool) : (s.setMetaBit a b v).regs = s.regs := rfl
@[simp] theorem setMetaBit_ports (a b : Nat) (v : Bool) : (s.setMetaBit a b v).ports = s.ports := rfl
@[simp] theorem setMetaBit_routes (a b : Nat) (v : Bool) : (s.setMetaBit a b v).routes = s.routes := rfl
@[simp] theorem setMetaBit_truss (a b : Nat) (v : Bool) : (s.setMetaBit a b v).truss = s.truss := rfl
@[simp] theorem setMetaBit_latched (a b : Nat) (v : Bool) : (s.setMetaBit a b v).latched = s.latched := rfl
@[simp] theorem setMetaBit_digests (a b : Nat) (v : Bool) : (s.setMetaBit a b v).digests = s.digests := rfl
@[simp] theorem setMetaBit_parked (a b : Nat) (v : Bool) : (s.setMetaBit a b v).parked = s.parked := rfl
@[simp] theorem setMetaBit_wakes (a b : Nat) (v : Bool) : (s.setMetaBit a b v).wakes = s.wakes := rfl
@[simp] theorem setMetaBit_jobs (a b : Nat) (v : Bool) : (s.setMetaBit a b v).jobs = s.jobs := rfl
@[simp] theorem setMetaBit_nextJob (a b : Nat) (v : Bool) : (s.setMetaBit a b v).nextJob = s.nextJob := rfl
@[simp] theorem setMetaBit_late (a b : Nat) (v : Bool) : (s.setMetaBit a b v).late = s.late := rfl
@[simp] theorem setMetaBit_armed (a b : Nat) (v : Bool) : (s.setMetaBit a b v).armed = s.armed := rfl
@[simp] theorem setMetaBit_fwq (a b : Nat) (v : Bool) : (s.setMetaBit a b v).fwq = s.fwq := rfl
@[simp] theorem setMetaBit_nextFw (a b : Nat) (v : Bool) : (s.setMetaBit a b v).nextFw = s.nextFw := rfl
@[simp] theorem setMetaBit_posted (a b : Nat) (v : Bool) : (s.setMetaBit a b v).posted = s.posted := rfl
@[simp] theorem setMetaBit_mbseq (a b : Nat) (v : Bool) : (s.setMetaBit a b v).mbseq = s.mbseq := rfl
@[simp] theorem setMetaBit_ring (a b : Nat) (v : Bool) : (s.setMetaBit a b v).ring = s.ring := rfl
@[simp] theorem setMetaBit_ringSeq (a b : Nat) (v : Bool) : (s.setMetaBit a b v).ringSeq = s.ringSeq := rfl
@[simp] theorem setMetaBit_msix (a b : Nat) (v : Bool) : (s.setMetaBit a b v).msix = s.msix := rfl
@[simp] theorem setMetaBit_aer (a b : Nat) (v : Bool) : (s.setMetaBit a b v).aer = s.aer := rfl
@[simp] theorem setMetaBit_now (a b : Nat) (v : Bool) : (s.setMetaBit a b v).now = s.now := rfl
@[simp] theorem setMetaBit_resident (a b : Nat) (v : Bool) : (s.setMetaBit a b v).resident = s.resident := rfl
@[simp] theorem setMetaBit_residentSince (a b : Nat) (v : Bool) : (s.setMetaBit a b v).residentSince = s.residentSince := rfl
@[simp] theorem setMetaBit_energySum (a b : Nat) (v : Bool) : (s.setMetaBit a b v).energySum = s.energySum := rfl
@[simp] theorem setMetaBit_incoming (a b : Nat) (v : Bool) : (s.setMetaBit a b v).incoming = s.incoming := rfl
@[simp] theorem setMetaBit_image (a b : Nat) (v : Bool) : (s.setMetaBit a b v).image = s.image := rfl
@[simp] theorem setMetaBit_digest (a b : Nat) (v : Bool) : (s.setMetaBit a b v).digest = s.digest := rfl
@[simp] theorem setMetaBit_mgmt (a b : Nat) (v : Bool) : (s.setMetaBit a b v).mgmt = s.mgmt := rfl
@[simp] theorem setMetaBit_pcieUp (a b : Nat) (v : Bool) : (s.setMetaBit a b v).pcieUp = s.pcieUp := rfl
@[simp] theorem setMetaBit_fetchStart (a b : Nat) (v : Bool) : (s.setMetaBit a b v).fetchStart = s.fetchStart := rfl
@[simp] theorem setMetaBit_fuseSteps (a b : Nat) (v : Bool) : (s.setMetaBit a b v).fuseSteps = s.fuseSteps := rfl
@[simp] theorem setMetaBit_budgetAt (a b : Nat) (v : Bool) : (s.setMetaBit a b v).budgetAt = s.budgetAt := rfl
@[simp] theorem setMetaBit_selfRefresh (a b : Nat) (v : Bool) : (s.setMetaBit a b v).selfRefresh = s.selfRefresh := rfl
@[simp] theorem setMetaBit_nextUid (a b : Nat) (v : Bool) : (s.setMetaBit a b v).nextUid = s.nextUid := rfl
@[simp] theorem setMetaBit_scOrder (a b : Nat) (v : Bool) : (s.setMetaBit a b v).scOrder = s.scOrder := rfl
@[simp] theorem setMetaBit_cur (a b : Nat) (v : Bool) : (s.setMetaBit a b v).cur = s.cur := rfl
@[simp] theorem setMetaBit_stall (a b : Nat) (v : Bool) : (s.setMetaBit a b v).stall = s.stall := rfl
@[simp] theorem setMetaBit_turns (a b : Nat) (v : Bool) : (s.setMetaBit a b v).turns = s.turns := rfl
@[simp] theorem setMetaBit_turnNo (a b : Nat) (v : Bool) : (s.setMetaBit a b v).turnNo = s.turnNo := rfl
@[simp] theorem setMetaBit_freeNo (a b : Nat) (v : Bool) : (s.setMetaBit a b v).freeNo = s.freeNo := rfl

@[simp] theorem setBoot_mem (n : Nat) : (s.setBoot n).mem = s.mem := rfl
@[simp] theorem setBoot_rmem (n : Nat) : (s.setBoot n).rmem = s.rmem := rfl
@[simp] theorem setBoot_lineMeta (n : Nat) : (s.setBoot n).lineMeta = s.lineMeta := rfl
@[simp] theorem setBoot_poison (n : Nat) : (s.setBoot n).poison = s.poison := rfl
@[simp] theorem setBoot_ctxs (n : Nat) : (s.setBoot n).ctxs = s.ctxs := rfl
@[simp] theorem setBoot_cores (n : Nat) : (s.setBoot n).cores = s.cores := rfl
@[simp] theorem setBoot_rows (n : Nat) : (s.setBoot n).rows = s.rows := rfl
@[simp] theorem setBoot_clusters (n : Nat) : (s.setBoot n).clusters = s.clusters := rfl
@[simp] theorem setBoot_devctxs (n : Nat) : (s.setBoot n).devctxs = s.devctxs := rfl
@[simp] theorem setBoot_ports (n : Nat) : (s.setBoot n).ports = s.ports := rfl
@[simp] theorem setBoot_routes (n : Nat) : (s.setBoot n).routes = s.routes := rfl
@[simp] theorem setBoot_truss (n : Nat) : (s.setBoot n).truss = s.truss := rfl
@[simp] theorem setBoot_latched (n : Nat) : (s.setBoot n).latched = s.latched := rfl
@[simp] theorem setBoot_digests (n : Nat) : (s.setBoot n).digests = s.digests := rfl
@[simp] theorem setBoot_parked (n : Nat) : (s.setBoot n).parked = s.parked := rfl
@[simp] theorem setBoot_wakes (n : Nat) : (s.setBoot n).wakes = s.wakes := rfl
@[simp] theorem setBoot_jobs (n : Nat) : (s.setBoot n).jobs = s.jobs := rfl
@[simp] theorem setBoot_nextJob (n : Nat) : (s.setBoot n).nextJob = s.nextJob := rfl
@[simp] theorem setBoot_late (n : Nat) : (s.setBoot n).late = s.late := rfl
@[simp] theorem setBoot_armed (n : Nat) : (s.setBoot n).armed = s.armed := rfl
@[simp] theorem setBoot_fwq (n : Nat) : (s.setBoot n).fwq = s.fwq := rfl
@[simp] theorem setBoot_nextFw (n : Nat) : (s.setBoot n).nextFw = s.nextFw := rfl
@[simp] theorem setBoot_posted (n : Nat) : (s.setBoot n).posted = s.posted := rfl
@[simp] theorem setBoot_mbseq (n : Nat) : (s.setBoot n).mbseq = s.mbseq := rfl
@[simp] theorem setBoot_ring (n : Nat) : (s.setBoot n).ring = s.ring := rfl
@[simp] theorem setBoot_ringSeq (n : Nat) : (s.setBoot n).ringSeq = s.ringSeq := rfl
@[simp] theorem setBoot_msix (n : Nat) : (s.setBoot n).msix = s.msix := rfl
@[simp] theorem setBoot_aer (n : Nat) : (s.setBoot n).aer = s.aer := rfl
@[simp] theorem setBoot_now (n : Nat) : (s.setBoot n).now = s.now := rfl
@[simp] theorem setBoot_resident (n : Nat) : (s.setBoot n).resident = s.resident := rfl
@[simp] theorem setBoot_residentSince (n : Nat) : (s.setBoot n).residentSince = s.residentSince := rfl
@[simp] theorem setBoot_energySum (n : Nat) : (s.setBoot n).energySum = s.energySum := rfl
@[simp] theorem setBoot_incoming (n : Nat) : (s.setBoot n).incoming = s.incoming := rfl
@[simp] theorem setBoot_image (n : Nat) : (s.setBoot n).image = s.image := rfl
@[simp] theorem setBoot_digest (n : Nat) : (s.setBoot n).digest = s.digest := rfl
@[simp] theorem setBoot_mgmt (n : Nat) : (s.setBoot n).mgmt = s.mgmt := rfl
@[simp] theorem setBoot_pcieUp (n : Nat) : (s.setBoot n).pcieUp = s.pcieUp := rfl
@[simp] theorem setBoot_fetchStart (n : Nat) : (s.setBoot n).fetchStart = s.fetchStart := rfl
@[simp] theorem setBoot_fuseSteps (n : Nat) : (s.setBoot n).fuseSteps = s.fuseSteps := rfl
@[simp] theorem setBoot_budgetAt (n : Nat) : (s.setBoot n).budgetAt = s.budgetAt := rfl
@[simp] theorem setBoot_selfRefresh (n : Nat) : (s.setBoot n).selfRefresh = s.selfRefresh := rfl
@[simp] theorem setBoot_nextUid (n : Nat) : (s.setBoot n).nextUid = s.nextUid := rfl
@[simp] theorem setBoot_scOrder (n : Nat) : (s.setBoot n).scOrder = s.scOrder := rfl
@[simp] theorem setBoot_cur (n : Nat) : (s.setBoot n).cur = s.cur := rfl
@[simp] theorem setBoot_stall (n : Nat) : (s.setBoot n).stall = s.stall := rfl
@[simp] theorem setBoot_turns (n : Nat) : (s.setBoot n).turns = s.turns := rfl
@[simp] theorem setBoot_turnNo (n : Nat) : (s.setBoot n).turnNo = s.turnNo := rfl
@[simp] theorem setBoot_freeNo (n : Nat) : (s.setBoot n).freeNo = s.freeNo := rfl

@[simp] theorem fresh_mem : (s.fresh).mem = s.mem := rfl
@[simp] theorem fresh_rmem : (s.fresh).rmem = s.rmem := rfl
@[simp] theorem fresh_lineMeta : (s.fresh).lineMeta = s.lineMeta := rfl
@[simp] theorem fresh_poison : (s.fresh).poison = s.poison := rfl
@[simp] theorem fresh_ctxs : (s.fresh).ctxs = s.ctxs := rfl
@[simp] theorem fresh_cores : (s.fresh).cores = s.cores := rfl
@[simp] theorem fresh_rows : (s.fresh).rows = s.rows := rfl
@[simp] theorem fresh_clusters : (s.fresh).clusters = s.clusters := rfl
@[simp] theorem fresh_devctxs : (s.fresh).devctxs = s.devctxs := rfl
@[simp] theorem fresh_regs : (s.fresh).regs = s.regs := rfl
@[simp] theorem fresh_ports : (s.fresh).ports = s.ports := rfl
@[simp] theorem fresh_routes : (s.fresh).routes = s.routes := rfl
@[simp] theorem fresh_truss : (s.fresh).truss = s.truss := rfl
@[simp] theorem fresh_latched : (s.fresh).latched = s.latched := rfl
@[simp] theorem fresh_digests : (s.fresh).digests = s.digests := rfl
@[simp] theorem fresh_parked : (s.fresh).parked = s.parked := rfl
@[simp] theorem fresh_wakes : (s.fresh).wakes = s.wakes := rfl
@[simp] theorem fresh_jobs : (s.fresh).jobs = s.jobs := rfl
@[simp] theorem fresh_nextJob : (s.fresh).nextJob = s.nextJob := rfl
@[simp] theorem fresh_late : (s.fresh).late = s.late := rfl
@[simp] theorem fresh_armed : (s.fresh).armed = s.armed := rfl
@[simp] theorem fresh_fwq : (s.fresh).fwq = s.fwq := rfl
@[simp] theorem fresh_nextFw : (s.fresh).nextFw = s.nextFw := rfl
@[simp] theorem fresh_posted : (s.fresh).posted = s.posted := rfl
@[simp] theorem fresh_mbseq : (s.fresh).mbseq = s.mbseq := rfl
@[simp] theorem fresh_ring : (s.fresh).ring = s.ring := rfl
@[simp] theorem fresh_ringSeq : (s.fresh).ringSeq = s.ringSeq := rfl
@[simp] theorem fresh_msix : (s.fresh).msix = s.msix := rfl
@[simp] theorem fresh_aer : (s.fresh).aer = s.aer := rfl
@[simp] theorem fresh_now : (s.fresh).now = s.now := rfl
@[simp] theorem fresh_resident : (s.fresh).resident = s.resident := rfl
@[simp] theorem fresh_residentSince : (s.fresh).residentSince = s.residentSince := rfl
@[simp] theorem fresh_energySum : (s.fresh).energySum = s.energySum := rfl
@[simp] theorem fresh_incoming : (s.fresh).incoming = s.incoming := rfl
@[simp] theorem fresh_image : (s.fresh).image = s.image := rfl
@[simp] theorem fresh_digest : (s.fresh).digest = s.digest := rfl
@[simp] theorem fresh_mgmt : (s.fresh).mgmt = s.mgmt := rfl
@[simp] theorem fresh_pcieUp : (s.fresh).pcieUp = s.pcieUp := rfl
@[simp] theorem fresh_fetchStart : (s.fresh).fetchStart = s.fetchStart := rfl
@[simp] theorem fresh_fuseSteps : (s.fresh).fuseSteps = s.fuseSteps := rfl
@[simp] theorem fresh_budgetAt : (s.fresh).budgetAt = s.budgetAt := rfl
@[simp] theorem fresh_selfRefresh : (s.fresh).selfRefresh = s.selfRefresh := rfl
@[simp] theorem fresh_nextUid : (s.fresh).nextUid = s.nextUid := rfl
@[simp] theorem fresh_scOrder : (s.fresh).scOrder = s.scOrder := rfl
@[simp] theorem fresh_cur : (s.fresh).cur = s.cur := rfl
@[simp] theorem fresh_stall : (s.fresh).stall = s.stall := rfl
@[simp] theorem fresh_turns : (s.fresh).turns = s.turns := rfl
@[simp] theorem fresh_turnNo : (s.fresh).turnNo = s.turnNo := rfl

end Sys2Proof.Machine.State
end

