-- ==== Sys2Proof/Laws/Tables.lean ====
section
/-! SUPPORT. Reading a table after a write, and the units of the state after an update of one of them. -/

namespace Sys2Proof.Machine

open Sys2Proof

@[simp] theorem tget_tset_same {α : Type} (t : Tbl α) (k : Nat) (v d : α) : tget (tset t k v) k d = v := by
  induction t with
  | nil => simp [tset, tget]
  | cons e r ih =>
    obtain ⟨j, x⟩ := e
    simp only [tset]
    split
    · simp [tget]
    · split
      · simp [tget]
      · simp [tget, *]

theorem tget_tset_other {α : Type} (t : Tbl α) {k j : Nat} (h : j ≠ k) (v d : α) : tget (tset t k v) j d = tget t j d := by
  induction t with
  | nil => simp [tset, tget, Ne.symm h]
  | cons e r ih =>
    obtain ⟨i, x⟩ := e
    simp only [tset]
    split
    · simp [tget, Ne.symm h]
    · split
      · subst_vars
        simp [tget, Ne.symm h]
      · simp [tget, ih]

/-- A table after a write, at any key. -/
theorem tget_tset {α : Type} (t : Tbl α) (k j : Nat) (v d : α) : tget (tset t k v) j d = if j = k then v else tget t j d := by
  split
  · subst_vars
    simp
  · exact tget_tset_other t ‹_› v d

theorem thas_tset {α : Type} (t : Tbl α) (k j : Nat) (v : α) : thas (tset t k v) j = (j == k || thas t j) := by
  have hs : ∀ a b : Nat, (a == b) = (b == a) := fun a b => Bool.beq_comm
  induction t with
  | nil => simp [tset, thas, hs k j]
  | cons e r ih =>
    obtain ⟨i, x⟩ := e
    unfold thas at ih
    simp only [tset]
    split
    · simp [thas, hs k j]
    · split
      · simp_all [thas]
      · simp only [thas, List.any_cons, ih]
        cases (j == k) <;> simp

namespace State

variable (s : State)

@[simp] theorem ctx_setCtx_same (k : Nat) (c : Ctx) : (s.setCtx k c).ctx k = c := tget_tset_same _ _ _ _
theorem ctx_setCtx (k j : Nat) (c : Ctx) : (s.setCtx k c).ctx j = if j = k then c else s.ctx j := tget_tset _ _ _ _ _
theorem ctx_setCtx_other {k j : Nat} (h : j ≠ k) (c : Ctx) : (s.setCtx k c).ctx j = s.ctx j := tget_tset_other _ h _ _
@[simp] theorem core_setCore_same (k : Nat) (c : Core) : (s.setCore k c).core k = c := tget_tset_same _ _ _ _
theorem core_setCore (k j : Nat) (c : Core) : (s.setCore k c).core j = if j = k then c else s.core j := tget_tset _ _ _ _ _
theorem core_setCore_other {k j : Nat} (h : j ≠ k) (c : Core) : (s.setCore k c).core j = s.core j := tget_tset_other _ h _ _
@[simp] theorem cluster_setCluster_same (k : Nat) (c : Cluster) : (s.setCluster k c).cluster k = c := tget_tset_same _ _ _ _
theorem cluster_setCluster_other {k j : Nat} (h : j ≠ k) (c : Cluster) : (s.setCluster k c).cluster j = s.cluster j := tget_tset_other _ h _ _
@[simp] theorem dctx_setDctx_same (k : Nat) (c : DevCtx) : (s.setDctx k c).dctx k = c := tget_tset_same _ _ _ _
theorem dctx_setDctx_other {k j : Nat} (h : j ≠ k) (c : DevCtx) : (s.setDctx k c).dctx j = s.dctx j := tget_tset_other _ h _ _
@[simp] theorem row_setRow_same (k : Nat) (c : Row) : (s.setRow k c).row k = c := tget_tset_same _ _ _ _
theorem row_setRow_other {k j : Nat} (h : j ≠ k) (c : Row) : (s.setRow k c).row j = s.row j := tget_tset_other _ h _ _
@[simp] theorem port_setPort_same (k : Nat) (c : Port) : (s.setPort k c).port k = c := tget_tset_same _ _ _ _
theorem port_setPort_other {k j : Nat} (h : j ≠ k) (c : Port) : (s.setPort k c).port j = s.port j := tget_tset_other _ h _ _

@[simp] theorem cx_setCx (c : Ctx) : (s.setCx c).cx = c := tget_tset_same _ _ _ _
@[simp] theorem co_setCo (c : Core) : (s.setCo c).co = c := tget_tset_same _ _ _ _
@[simp] theorem cx_setCo (c : Core) : (s.setCo c).cx = s.cx := rfl
@[simp] theorem co_setCx (c : Ctx) : (s.setCx c).co = s.co := rfl
@[simp] theorem cx_setCore (k : Nat) (c : Core) : (s.setCore k c).cx = s.cx := rfl
@[simp] theorem core_setCtx (k j : Nat) (c : Ctx) : (s.setCtx k c).core j = s.core j := rfl
@[simp] theorem core_setCx (j : Nat) (c : Ctx) : (s.setCx c).core j = s.core j := rfl
@[simp] theorem ctx_setCore (k j : Nat) (c : Core) : (s.setCore k c).ctx j = s.ctx j := rfl
@[simp] theorem ctx_setCo (j : Nat) (c : Core) : (s.setCo c).ctx j = s.ctx j := rfl
@[simp] theorem ctx_setCluster (k j : Nat) (c : Cluster) : (s.setCluster k c).ctx j = s.ctx j := rfl
@[simp] theorem ctx_setDctx (k j : Nat) (c : DevCtx) : (s.setDctx k c).ctx j = s.ctx j := rfl
@[simp] theorem ctx_setRow (k j : Nat) (c : Row) : (s.setRow k c).ctx j = s.ctx j := rfl
@[simp] theorem core_setCluster (k j : Nat) (c : Cluster) : (s.setCluster k c).core j = s.core j := rfl
@[simp] theorem core_setDctx (k j : Nat) (c : DevCtx) : (s.setDctx k c).core j = s.core j := rfl
@[simp] theorem core_setRow (k j : Nat) (c : Row) : (s.setRow k c).core j = s.core j := rfl
@[simp] theorem coreNo_setCx (c : Ctx) : (s.setCx c).coreNo = s.coreNo := rfl
@[simp] theorem coreNo_setCo (c : Core) : (s.setCo c).coreNo = s.coreNo := rfl

end State

namespace Ctx

variable (c : Ctx)

/-- `g0` reads 0 (R93). -/
@[simp] theorem getG_zero : c.getG 0 = 0 := rfl
/-- A write to `g0` is discarded (R93). -/
@[simp] theorem setG_zero (x : Word) : c.setG 0 x = c := rfl
/-- `p0` is true (R93). -/
@[simp] theorem getP_zero : c.getP 0 = true := rfl
@[simp] theorem setP_zero (b : Bool) : c.setP 0 b = c := rfl
@[simp] theorem getVm_zero : c.getVm 0 = 0xFFFFFFFF := rfl
@[simp] theorem setVm_zero (x : BitVec 32) : c.setVm 0 x = c := rfl

theorem getG_setG_same {n : Nat} (h0 : n ≠ 0) (h : n < 64) (x : Word) : (c.setG n x).getG n = x := by
  simp [setG, getG, h0, h]

theorem getG_setG_other {n m : Nat} (h : m ≠ n) (x : Word) : (c.setG n x).getG m = c.getG m := by
  unfold setG getG
  split
  · rfl
  · split
    · rfl
    · simp [Vector.getElem?_setIfInBounds_ne (Ne.symm h)]

theorem getV_setV_same {n : Nat} (h : n < 64) (x : Vec) : (c.setV n x).getV n = x := by
  simp [setV, getV, h]

theorem getV_setV_other {n m : Nat} (h : m ≠ n) (x : Vec) : (c.setV n x).getV m = c.getV m := by
  simp [setV, getV, Vector.getElem?_setIfInBounds_ne (Ne.symm h)]

theorem getVm_setVm_same {n : Nat} (h0 : n ≠ 0) (h : n < 8) (x : BitVec 32) : (c.setVm n x).getVm n = x := by
  simp [setVm, getVm, h0, h]

theorem getVm_setVm_other {n m : Nat} (h : m ≠ n) (x : BitVec 32) : (c.setVm n x).getVm m = c.getVm m := by
  unfold setVm getVm
  split
  · rfl
  · split
    · rfl
    · simp [Vector.getElem?_setIfInBounds_ne (Ne.symm h)]

theorem getSd_setSd_same {n : Nat} (h : n < 16) (x : BitVec 32) : (c.setSd n x).getSd n = x := by
  simp [setSd, getSd, h]

theorem getSd_setSd_other {n m : Nat} (h : m ≠ n) (x : BitVec 32) : (c.setSd n x).getSd m = c.getSd m := by
  simp [setSd, getSd, Vector.getElem?_setIfInBounds_ne (Ne.symm h)]

end Ctx

end Sys2Proof.Machine
end

