-- ==== Sys2Proof/Laws/Memory.lean ====
section
/-! SUPPORT. Byte memories: every operation keeps the canonical form, a read after a write gives what was written, and a write leaves every
other byte alone. -/

namespace Sys2Proof.Machine

open Sys2Proof

/-- The canonical form, said of the list as a whole. -/
theorem Mem.wf_iff (m : Mem) : m.wf = true ↔ (∀ e ∈ m, e.2 ≠ 0) ∧ m.Pairwise (fun a b => a.1 < b.1) := by
  induction m with
  | nil => simp [Mem.wf]
  | cons e r ih =>
    obtain ⟨j, x⟩ := e
    cases r with
    | nil => simp [Mem.wf]
    | cons f q =>
      obtain ⟨k, y⟩ := f
      simp only [Mem.wf, Bool.and_eq_true, bne_iff_ne, decide_eq_true_eq, ih]
      simp only [List.mem_cons, List.pairwise_cons]
      constructor
      · rintro ⟨⟨hx, hjk⟩, hall, hp, hq⟩
        refine ⟨?_, ?_, hp, hq⟩
        · rintro a (rfl | h)
          · exact hx
          · exact hall a h
        · rintro a (rfl | h)
          · exact hjk
          · exact Nat.lt_trans hjk (hp a h)
      · rintro ⟨hall, hj, hp, hq⟩
        exact ⟨⟨hall _ (.inl rfl), hj _ (.inl rfl)⟩, fun a h => hall a (.inr h), hp, hq⟩

theorem wf_filter {m : Mem} (h : m.wf = true) (f : Host.Cell → Bool) : Mem.wf (m.filter f) = true := by
  rw [Mem.wf_iff] at h ⊢
  exact ⟨fun e he => h.1 e (List.mem_of_mem_filter he), h.2.filter f⟩

/-- Every entry of a memory after a write stood in it before or is the one written. -/
theorem mem_mset {m : Mem} {a : Nat} {b : Byte} {e : Host.Cell} (h : e ∈ mset m a b) : e ∈ m ∨ (e = (a, b) ∧ b ≠ 0) := by
  induction m with
  | nil =>
    simp only [mset] at h
    split at h <;> simp_all
  | cons f r ih =>
    obtain ⟨j, x⟩ := f
    simp only [mset] at h
    split at h
    · split at h
      · exact .inl h
      · rcases List.mem_cons.1 h with rfl | h
        · exact .inr ⟨rfl, ‹_›⟩
        · exact .inl h
    · split at h
      · split at h
        · exact .inl (List.mem_cons_of_mem _ h)
        · rcases List.mem_cons.1 h with rfl | h
          · exact .inr ⟨rfl, ‹_›⟩
          · exact .inl (List.mem_cons_of_mem _ h)
      · rcases List.mem_cons.1 h with rfl | h
        · exact .inl List.mem_cons_self
        · exact (ih h).imp_left (List.mem_cons_of_mem _)

theorem wf_mset {m : Mem} (h : m.wf = true) (a : Nat) (b : Byte) : Mem.wf (mset m a b) = true := by
  rw [Mem.wf_iff] at h ⊢
  refine ⟨fun e he => ?_, ?_⟩
  · rcases mem_mset he with he | ⟨rfl, hb⟩
    · exact h.1 e he
    · exact hb
  · obtain ⟨-, hp⟩ := h
    induction m with
    | nil =>
      simp only [mset]
      split <;> simp
    | cons f r ih =>
      obtain ⟨j, x⟩ := f
      have hr := (List.pairwise_cons.1 hp).2
      have hj := (List.pairwise_cons.1 hp).1
      simp only [mset]
      split
      · split
        · exact hp
        · refine List.pairwise_cons.2 ⟨fun e he => ?_, hp⟩
          rcases List.mem_cons.1 he with rfl | he
          · assumption
          · exact Nat.lt_trans ‹_› (hj e he)
      · split
        · subst_vars
          split
          · exact hr
          · exact List.pairwise_cons.2 ⟨hj, hr⟩
        · refine List.pairwise_cons.2 ⟨fun e he => ?_, ih hr⟩
          rcases mem_mset he with he | ⟨rfl, -⟩
          · exact hj e he
          · dsimp only
            omega

theorem wf_mwrite {m : Mem} (h : m.wf = true) (a n v : Nat) : Mem.wf (mwrite m a n v) = true := by
  induction n generalizing m a v with
  | zero => exact h
  | succ n ih => exact ih (wf_mset h _ _) _ _

theorem wf_mblit {m : Mem} (h : m.wf = true) (a : Nat) (bs : List Nat) : Mem.wf (mblit m a bs) = true := by
  induction bs generalizing m a with
  | nil => exact h
  | cons b bs ih => exact ih (wf_mset h _ _) _

theorem wf_mclear {m : Mem} (h : m.wf = true) (lo hi : Nat) : Mem.wf (mclear m lo hi) = true := wf_filter h _

theorem wf_mcopy {m : Mem} (h : m.wf = true) (to_ : Nat) (src : Mem) (lo n : Nat) : Mem.wf (mcopy m to_ src lo n) = true := by
  unfold mcopy
  have := wf_mclear h to_ (to_ + n)
  generalize mclear m to_ (to_ + n) = d at this
  induction src generalizing d with
  | nil => exact this
  | cons e r ih =>
    refine ih _ ?_
    dsimp only
    split
    · exact wf_mset this _ _
    · exact this

/-- No entry stands below every key of a list. -/
theorem mget_of_lt {m : Mem} {a : Nat} (h : ∀ e ∈ m, a < e.1) : mget m a = 0 := by
  induction m with
  | nil => rfl
  | cons e r ih =>
    obtain ⟨j, x⟩ := e
    have hj := h (j, x) List.mem_cons_self
    simp only [mget]
    rw [if_neg (by dsimp only at hj; omega)]
    exact ih (fun e he => h e (List.mem_cons_of_mem _ he))

/-- A memory of canonical form reads what it lists. -/
theorem mget_of_mem {m : Mem} (h : m.wf = true) {e : Host.Cell} (he : e ∈ m) : mget m e.1 = e.2 := by
  rw [Mem.wf_iff] at h
  obtain ⟨-, hp⟩ := h
  induction m with
  | nil => cases he
  | cons d r ih =>
    rw [List.pairwise_cons] at hp
    obtain rfl | he := List.mem_cons.1 he
    · simp [mget]
    · have := hp.1 e he
      simp only [mget]
      rw [if_neg (by omega), ih he hp.2]

/-- A byte after a write of one byte, in a memory of canonical form. -/
theorem mget_mset {m : Mem} (h : m.wf = true) (a c : Nat) (b : Byte) : mget (mset m a b) c = if c = a then b else mget m c := by
  rw [Mem.wf_iff] at h
  obtain ⟨-, hp⟩ := h
  induction m with
  | nil =>
    simp only [mset]
    by_cases hb : b = 0 <;> by_cases hc : c = a
    · simp [hb, mget]
    · simp [hb, mget]
    · rw [if_neg hb]
      simp [hc, mget]
    · rw [if_neg hb]
      simp [hc, Ne.symm hc, mget]
  | cons f r ih =>
    obtain ⟨j, x⟩ := f
    have hr := (List.pairwise_cons.1 hp).2
    have hj := (List.pairwise_cons.1 hp).1
    simp only [mset]
    split
    · split
      · split
        · subst_vars
          refine mget_of_lt fun e he => ?_
          rcases List.mem_cons.1 he with rfl | he
          · assumption
          · exact Nat.lt_trans ‹_› (hj e he)
        · rfl
      · simp only [mget, eq_comm (a := a)]
    · split
      · subst_vars
        split
        · split
          · subst_vars
            exact mget_of_lt fun e he => hj e he
          · simp [mget, Ne.symm ‹¬c = j›]
        · simp only [mget, eq_comm (a := j)]
          split <;> simp_all
      · simp only [mget, ih hr]
        split
        · rw [if_neg (by omega)]
        · rfl

/-- A write of n bytes leaves every byte outside them. -/
theorem mget_mwrite_outside {m : Mem} (h : m.wf = true) {a n c : Nat} (v : Nat) (hc : c < a ∨ a + n ≤ c) : mget (mwrite m a n v) c = mget m c := by
  induction n generalizing m a v with
  | zero => rfl
  | succ n ih =>
    simp only [mwrite]
    rw [ih (wf_mset h _ _) _ (by omega), mget_mset h, if_neg (by omega)]

/-- Byte i of a write of n bytes is byte i of the value (R5). -/
theorem mget_mwrite_inside {m : Mem} (h : m.wf = true) {a n i : Nat} (v : Nat) (hi : i < n) : mget (mwrite m a n v) (a + i) = BitVec.ofNat 8 (v / 256 ^ i) := by
  induction n generalizing m a v i with
  | zero => omega
  | succ n ih =>
    simp only [mwrite]
    cases i with
    | zero =>
      rw [mget_mwrite_outside (wf_mset h _ _) _ (by omega), mget_mset h]
      simp
    | succ i =>
      have := ih (m := mset m a (BitVec.ofNat 8 v)) (wf_mset h _ _) (a := a + 1) (i := i) (v / 256) (by omega)
      rw [show a + (i + 1) = a + 1 + i by omega, this, Nat.div_div_eq_div_mul, Nat.pow_succ, Nat.mul_comm (256 ^ i)]

/-- A read after a write of the same bytes gives the value written (R5). -/
theorem mread_mwrite {m : Mem} (h : m.wf = true) (a n v : Nat) : mread (mwrite m a n v) a n = v % 256 ^ n := by
  induction n generalizing m a v with
  | zero => simp [mread, Nat.mod_one]
  | succ n ih =>
    simp only [mread, mwrite]
    rw [mget_mwrite_outside (wf_mset h _ _) _ (by omega), mget_mset h, if_pos rfl, ih (wf_mset h _ _)]
    have : v % 256 ^ (n + 1) = v % 256 + 256 * (v / 256 % 256 ^ n) := by
      rw [Nat.pow_succ, Nat.mul_comm, Nat.mod_mul]
    simp [BitVec.toNat_ofNat, this]

end Sys2Proof.Machine
end

