-- ==== Sys2Proof/Laws/Issue.lean ====
section
/-! SUPPORT. What the shared frame of an instruction and of an event does: every way it can end. -/

namespace Sys2Proof.Machine

open Sys2Proof

variable {i : Instr} {o : Ops} {touch : List Nat} {body : State → Eff} {s : State}

/-- Whatever the body answers, the step has a next state. -/
theorem finishWith_next (e : Eff) : ∃ t, finishWith i o s e = .next t := by
  cases e <;> exact ⟨_, rfl⟩

/-- An instruction that issues with its guard true ends as its body does. -/
theorem issue_run (h : s.canIssue o touch) : issue i o touch body s = finishWith i o s (body s) := by
  obtain ⟨⟨hocc, hw, hd⟩, hg⟩ := h
  simp [issue, hocc, hw, hd, hg]

/-- A guard that is false: the instruction changes nothing but the place in the program (R97). -/
theorem issue_off (h : s.free (rp o.pred :: touch)) (hg : s.cx.guard o = false) : issue i o touch body s = .next (s.setCx (s.cx.retire i o.s)) := by
  obtain ⟨hocc, hw, hd⟩ := h
  simp [issue, hocc, hw, hd, hg]

/-- A pending register traps DEP, whatever the guard (R106). -/
theorem issue_dep {r : Nat} (hocc : s.cx.occ = true) (hw : s.cx.wait = .none) (hd : s.cx.dep (rp o.pred :: touch) = some r) :
    issue i o touch body s = .next (s.raise { cause := 2, xinfo := BitVec.ofNat 64 r }) := by
  simp [issue, hocc, hw, hd]

/-- An instruction of a context never stops the machine. -/
theorem issue_next (hocc : s.cx.occ = true) : ∃ t, issue i o touch body s = .next t := by
  unfold issue
  simp only [hocc, Bool.true_eq_false, if_false]
  split
  · exact finishWith_next _
  · split
    · exact ⟨_, rfl⟩
    · split
      · exact finishWith_next _
      · exact ⟨_, rfl⟩

theorem issueV_run {masks : Nat} (h : s.canIssueV o masks touch) : issueV i o masks touch body s = finishWith i o s (body s) := by
  obtain ⟨hocc, hw, hd⟩ := h
  unfold issueV
  simp only [hocc, hw, hd, Bool.true_eq_false, if_false, ne_eq, not_true_eq_false]

theorem issueV_next {masks : Nat} (hocc : s.cx.occ = true) : ∃ t, issueV i o masks touch body s = .next t := by
  unfold issueV
  simp only [hocc, Bool.true_eq_false, if_false]
  split
  · exact finishWith_next _
  · split
    · exact ⟨_, rfl⟩
    · exact finishWith_next _

/-- A completed body retires the instruction. -/
theorem finishWith_done (t : State) : finishWith i o s (.done t) = .next (t.setCx (t.cx.retire i o.s)) := rfl

/-- An instruction that touches its own context alone, issued with its guard true. -/
theorem scalar_run {f : Ctx → CtxEff} (h : s.canIssue o touch) : scalar i o touch f s = finishWith i o s (onCtx f s) := issue_run h

theorem lanewise_run {masks : Nat} {f : Ctx → CtxEff} (h : s.canIssueV o masks touch) : lanewise i o masks touch f s = finishWith i o s (onCtx f s) := issueV_run h

theorem scalar_done {f : Ctx → CtxEff} {c : Ctx} (h : s.canIssue o touch) (hf : f s.cx = .done c) : scalar i o touch f s = .next ((s.setCx c).setCx (c.retire i o.s)) := by
  rw [scalar_run h]
  simp [onCtx, hf, finishWith]

theorem lanewise_done {masks : Nat} {f : Ctx → CtxEff} {c : Ctx} (h : s.canIssueV o masks touch) (hf : f s.cx = .done c) :
    lanewise i o masks touch f s = .next ((s.setCx c).setCx (c.retire i o.s)) := by
  rw [lanewise_run h]
  simp [onCtx, hf, finishWith]

/-- A second write of a table's entry replaces the first. -/
theorem tset_tset {α : Type} (t : Tbl α) (k : Nat) (v w : α) : tset (tset t k v) k w = tset t k w := by
  induction t with
  | nil => simp [tset]
  | cons e r ih =>
    obtain ⟨j, x⟩ := e
    simp only [tset]
    split
    · simp [tset]
    · split
      · simp [tset]
      · rename_i h1 h2
        simp [tset, h1, h2, ih]

@[simp] theorem State.setCx_setCx (s : State) (c d : Ctx) : (s.setCx c).setCx d = s.setCx d := by
  simp [State.setCx, State.setCtx, tset_tset]

/-- An event whose condition holds, while the clocks run (R384). -/
theorem event_on {b : Bool} {f : State → State} (hb : b = true) (hf : s.still = false) : event b f s = .next (f s) := by
  simp [event, hb, hf]

/-- An event of a frozen device does nothing (R384). -/
theorem event_frozen {b : Bool} {f : State → State} (hf : s.still = true) : event b f s = .next s := by
  simp [event, hf]

theorem event_next {b : Bool} {f : State → State} : ∃ t, event b f s = .next t := ⟨_, rfl⟩

/-- What an event keeps when its effect does. -/
theorem event_keeps {b : Bool} {f : State → State} {P : State → Prop} {t : State} (h : event b f s = .next t) (hs : P s) (hf : P s → P (f s)) : P t := by
  simp only [event, Host.Outcome.next.injEq] at h
  subst h
  split
  · exact hf hs
  · exact hs

end Sys2Proof.Machine
end

