-- ==== Sys2Proof/Laws/Canonical.lean ====
section
/-! SUPPORT. The operations that every meaning shares keep the device's memories in canonical form. -/

namespace Sys2Proof.Machine

open Sys2Proof

/-- What every step of a fold keeps, the fold keeps. -/
theorem foldl_keeps {α β : Type} {P : β → Prop} {f : β → α → β} (hf : ∀ b a, P b → P (f b a)) (l : List α) {b : β} (hb : P b) : P (l.foldl f b) := by
  induction l generalizing b with
  | nil => exact hb
  | cons a l ih => exact ih (hf _ _ hb)

namespace State

variable {s : State}

theorem memWf_iff : s.memWf = true ↔ Mem.wf s.mem = true ∧ Mem.wf s.rmem = true ∧ Mem.wf s.mgmt.mem = true := by simp [memWf, and_assoc]

/-- An operation that leaves the memories alone keeps their form. -/
theorem memWf_same {t : State} (h : s.memWf = true) (h1 : t.mem = s.mem) (h2 : t.rmem = s.rmem) (h3 : t.mgmt = s.mgmt) : t.memWf = true := by
  rw [memWf_iff] at *
  rw [h1, h2, h3]
  exact h

theorem memWf_setCtx (h : s.memWf = true) (k : Nat) (c : Ctx) : (s.setCtx k c).memWf = true := h
theorem memWf_setCore (h : s.memWf = true) (k : Nat) (c : Core) : (s.setCore k c).memWf = true := h
theorem memWf_setCluster (h : s.memWf = true) (k : Nat) (c : Cluster) : (s.setCluster k c).memWf = true := h
theorem memWf_setDctx (h : s.memWf = true) (k : Nat) (c : DevCtx) : (s.setDctx k c).memWf = true := h
theorem memWf_setRow (h : s.memWf = true) (k : Nat) (c : Row) : (s.setRow k c).memWf = true := h
theorem memWf_setPort (h : s.memWf = true) (k : Nat) (c : Port) : (s.setPort k c).memWf = true := h
theorem memWf_setCx (h : s.memWf = true) (c : Ctx) : (s.setCx c).memWf = true := h
theorem memWf_setCo (h : s.memWf = true) (c : Core) : (s.setCo c).memWf = true := h
theorem memWf_setMetaBit (h : s.memWf = true) (a b : Nat) (v : Bool) : (s.setMetaBit a b v).memWf = true := h
theorem memWf_setWaitBit (h : s.memWf = true) (a : Nat) (v : Bool) : (s.setWaitBit a v).memWf = true := h
theorem memWf_setBoot (h : s.memWf = true) (n : Nat) : (s.setBoot n).memWf = true := h
theorem memWf_fresh (h : s.memWf = true) : s.fresh.memWf = true := h

/-- What the digest and the caches do beside a pier's write leaves alone what two projections tell apart. -/
theorem lines_keep {α : Type} (f : State → α) (m : Mem) (hd : ∀ t a, f (State.digestLine t m a) = f t) (hu : ∀ t a, f (uncache t a) = f t) (l : List Nat) (t : State) :
    f (l.foldl (fun s a => (s.digestLine m a).uncache a) t) = f t := by
  induction l generalizing t with
  | nil => rfl
  | cons a l ih => exact (ih _).trans ((hu _ _).trans (hd _ _))

/-- A pier's write is a write of memory, whatever it does to a digest, a mark, a line's WL bit or a cluster's copy (R282, R324, R390). -/
@[simp] theorem pierWrite_mem (s : State) (pa n v : Nat) : (s.pierWrite pa n v).mem = mwrite s.mem pa n v := rfl

@[simp] theorem pierWrite_rmem (s : State) (pa n v : Nat) : (s.pierWrite pa n v).rmem = s.rmem := by
  refine (lines_keep (·.rmem) _ (fun t a => ?_) (fun t a => ?_) _ _).trans ?_
  · unfold digestLine
    split <;> rfl
  · unfold uncache
    split <;> rfl
  · split <;> rfl

@[simp] theorem pierWrite_mgmt (s : State) (pa n v : Nat) : (s.pierWrite pa n v).mgmt = s.mgmt := by
  refine (lines_keep (·.mgmt) _ (fun t a => ?_) (fun t a => ?_) _ _).trans ?_
  · unfold digestLine
    split <;> rfl
  · unfold uncache
    split <;> rfl
  · split <;> rfl

@[simp] theorem pierWrite_jobs (s : State) (pa n v : Nat) : (s.pierWrite pa n v).jobs = s.jobs := by
  refine (lines_keep (·.jobs) _ (fun t a => ?_) (fun t a => ?_) _ _).trans ?_
  · unfold digestLine
    split <;> rfl
  · unfold uncache
    split <;> rfl
  · split <;> rfl

@[simp] theorem pierWrite_late (s : State) (pa n v : Nat) : (s.pierWrite pa n v).late = s.late := by
  refine (lines_keep (·.late) _ (fun t a => ?_) (fun t a => ?_) _ _).trans ?_
  · unfold digestLine
    split <;> rfl
  · unfold uncache
    split <;> rfl
  · split <;> rfl

@[simp] theorem pierWrite_ctxs (s : State) (pa n v : Nat) : (s.pierWrite pa n v).ctxs = s.ctxs := by
  refine (lines_keep (·.ctxs) _ (fun t a => ?_) (fun t a => ?_) _ _).trans ?_
  · unfold digestLine
    split <;> rfl
  · unfold uncache
    split <;> rfl
  · split <;> rfl

@[simp] theorem pierWrite_cores (s : State) (pa n v : Nat) : (s.pierWrite pa n v).cores = s.cores := by
  refine (lines_keep (·.cores) _ (fun t a => ?_) (fun t a => ?_) _ _).trans ?_
  · unfold digestLine
    split <;> rfl
  · unfold uncache
    split <;> rfl
  · split <;> rfl

theorem memWf_pierWrite (h : s.memWf = true) (pa n v : Nat) : (s.pierWrite pa n v).memWf = true := by
  rw [memWf_iff] at *
  rw [pierWrite_mem, pierWrite_rmem, pierWrite_mgmt]
  exact ⟨wf_mwrite h.1 _ _ _, h.2⟩

/-- A write of the device's own waits while its block is BUSY (R81). -/
theorem lateWrite_busy {pa n v : Nat} (h : s.blockBusy pa n = true) : s.lateWrite pa n v = { s with late := s.late ++ [(pa, n, v)] } := by simp [lateWrite, h]

/-- Else it is made at once. -/
theorem lateWrite_free {pa n v : Nat} (h : s.blockBusy pa n = false) : s.lateWrite pa n v = s.pierWrite pa n v := by simp [lateWrite, h]

theorem memWf_lateWrite (h : s.memWf = true) (pa n v : Nat) : (s.lateWrite pa n v).memWf = true := by
  unfold lateWrite
  split
  · exact h
  · exact memWf_pierWrite h _ _ _

theorem memWf_pierBlit (h : s.memWf = true) (pa : Nat) (bs : List Nat) : (s.pierBlit pa bs).memWf = true := by
  induction bs generalizing s pa with
  | nil => exact h
  | cons b r ih => exact ih (memWf_pierWrite h _ _ _) _

theorem memWf_writePlace (h : s.memWf = true) (p : Place) (pa n v : Nat) : (s.writePlace p pa n v).memWf = true := by
  cases p with
  | here => exact memWf_pierWrite h _ _ _
  | host =>
    rw [memWf_iff] at *
    exact ⟨wf_mwrite h.1 _ _ _, h.2⟩
  | remote d =>
    rw [memWf_iff] at *
    exact ⟨h.1, wf_mwrite h.2.1 _ _ _, h.2.2⟩
  | window => exact h
  | absent => exact h

theorem memWf_acquire (h : s.memWf = true) (core scope : Nat) : (s.acquire core scope).memWf = true := by
  unfold acquire
  split <;> exact h

theorem memWf_writeLink (h : s.memWf = true) (core : Nat) (e : QEnt) : (s.writeLink core e).memWf = true := by
  unfold writeLink
  split
  · split
    · exact memWf_lateWrite h _ _ _
    · exact h
  · exact h

theorem memWf_enqueue (h : s.memWf = true) (cl lvl : Nat) (e : QEnt) : (s.enqueue cl lvl e).memWf = true := memWf_writeLink h _ _

theorem memWf_pushDeque (h : s.memWf = true) (core : Nat) (e : QEnt) : (s.pushDeque core e).memWf = true := by
  unfold pushDeque
  split
  · exact memWf_enqueue h _ _ _
  · exact memWf_writeLink h _ _

theorem memWf_completeHeld (h : s.memWf = true) (k : Nat) (f : Ctx → Ctx) : (s.completeHeld k f).memWf = true := by
  unfold completeHeld
  dsimp only
  split <;> exact h

theorem memWf_reevaluate (h : s.memWf = true) (k : Nat) : (s.reevaluate k).memWf = true := by
  unfold reevaluate
  dsimp only
  split
  · split
    · exact h
    · split
      · exact h
      · exact memWf_completeHeld (memWf_setCore h _ _) _ _
  · exact h

theorem memWf_poke (h : s.memWf = true) (core : Nat) : (s.poke core).memWf = true :=
  foldl_keeps (P := fun t => State.memWf t = true) (fun _ _ h => memWf_reevaluate h _) _ h

theorem memWf_counterChanged (h : s.memWf = true) (core n : Nat) : (s.counterChanged core n).memWf = true :=
  memWf_poke (foldl_keeps (P := fun t => State.memWf t = true) (fun _ _ h => memWf_enqueue h _ _ _) _ (memWf_setCore h _ _)) _

theorem memWf_setCounter (h : s.memWf = true) (core n : Nat) (v : BitVec 32) : (s.setCounter core n v).memWf = true :=
  memWf_counterChanged (memWf_setCore h _ _) _ _

theorem memWf_addCounter (h : s.memWf = true) (core n : Nat) (v : BitVec 32) : (s.addCounter core n v).memWf = true := memWf_setCounter h _ _ _

theorem memWf_idleRow (h : s.memWf = true) (k : Nat) : (s.idleRow k).memWf = true := by
  unfold idleRow
  dsimp only
  split <;> exact h

theorem memWf_freeCtx (h : s.memWf = true) (k : Nat) : (s.freeCtx k).memWf = true := memWf_idleRow (memWf_setCtx h _ _) _

theorem memWf_endContext (h : s.memWf = true) (k : Nat) : (s.endContext k).memWf = true := memWf_freeCtx (memWf_setCore h _ _) _

theorem memWf_writeChain (h : s.memWf = true) (head off : Nat) (l : List Nat) : (s.writeChain head off l).memWf = true := by
  induction l generalizing s head with
  | nil => exact memWf_pierWrite h _ _ _
  | cons a r ih => exact ih (memWf_pierWrite h _ _ _) _

theorem memWf_freeSlot (h : s.memWf = true) (a : Nat) : (s.freeSlot a).memWf = true := by
  unfold freeSlot
  dsimp only
  split
  · exact h
  · exact memWf_pierWrite (memWf_pierWrite (memWf_pierWrite h _ _ _) _ _ _) _ _ _

theorem memWf_wcntDown (h : s.memWf = true) (e : Nat) : (s.wcntDown e).memWf = true := by
  unfold wcntDown
  split
  · exact h
  · exact memWf_pierWrite h _ _ _

theorem memWf_wcntUp {t : State} (h : s.memWf = true) {e : Nat} (ht : s.wcntUp e = .ok t) : t.memWf = true := by
  unfold wcntUp at ht
  split at ht
  · cases ht
    exact h
  · split at ht
    · cases ht
    · split at ht
      · cases ht
      · cases ht
        exact memWf_pierWrite h _ _ _

theorem memWf_wakeOne (h : s.memWf = true) (p : Parked) : (s.wakeOne p).memWf = true := by
  have hd := memWf_wcntDown h p.leaf
  have hf := memWf_freeSlot hd p.slot
  unfold wakeOne
  generalize s.wcntDown p.leaf = t at hd hf ⊢
  dsimp only
  generalize t.freeSlot p.slot = u at hf ⊢
  split
  · exact memWf_same hf rfl rfl rfl
  · refine memWf_pierWrite ?_ _ _ _
    split
    · exact memWf_pierWrite (memWf_pierWrite hd _ _ _) _ _ _
    · exact memWf_pierWrite (memWf_pierWrite hd _ _ _) _ _ _

theorem memWf_wakeWord (h : s.memWf = true) (pa : Nat) : (s.wakeWord pa).memWf = true := by
  unfold wakeWord
  split
  · exact h
  · exact foldl_keeps (P := fun t => State.memWf t = true) (fun _ _ h => memWf_wakeOne h _) _ (memWf_setWaitBit (memWf_writeChain h _ _ _) _ _)

theorem memWf_setFe (h : s.memWf = true) (pa : Nat) (v : Bool) : (s.setFe pa v).memWf = true := by
  unfold setFe
  split
  · exact h
  · dsimp only
    split
    · exact memWf_wakeWord (memWf_setMetaBit h _ _ _) _
    · exact memWf_setMetaBit h _ _ _

theorem memWf_report (h : s.memWf = true) (k cause : Nat) (pc : Word) : (s.report k cause pc).memWf = true := by
  unfold report
  dsimp only
  split <;> exact h

theorem memWf_putLines (h : s.memWf = true) (pa n : Nat) (line : Nat → Nat) : (s.putLines pa n line).memWf = true := by
  refine foldl_keeps (P := fun t => State.memWf t = true) (fun t i ht => ?_) _ h
  split
  · exact memWf_pierWrite ht _ _ _
  · exact ht

theorem memWf_putOpen (h : s.memWf = true) (pa n : Nat) : (s.putOpen pa n).memWf = true := memWf_putLines h pa n _

theorem memWf_putSaved (h : s.memWf = true) (k : Nat) : (s.putSaved k).memWf = true := memWf_putLines h _ _ _

theorem memWf_stopAt (h : s.memWf = true) (k : Nat) : (s.stopAt k).memWf = true :=
  memWf_setCluster (memWf_idleRow (memWf_setCtx (memWf_putSaved h _) _ _) _) _ _

theorem memWf_enterTrap (h : s.memWf = true) (k : Nat) (t : Trap) : (s.enterTrap k t).memWf = true := by
  have hr := memWf_report (memWf_setCtx h k ((s.ctx k).enter t)) (t.leader.getD k) t.cause (t.xpc.getD (s.ctx k).pc)
  unfold enterTrap
  dsimp only
  split
  · exact memWf_stopAt hr _
  · exact hr

/-- Taking a trap keeps the form. -/
theorem memWf_raise (h : s.memWf = true) (t : Trap) : (s.raise t).memWf = true := by
  unfold raise
  dsimp only
  split
  · exact memWf_enterTrap h _ _
  · exact h

theorem memWf_trapCtx (h : s.memWf = true) (k : Nat) (t : Trap) : (s.trapCtx k t).memWf = true := memWf_raise (s := { s with cur := k }) h t

theorem memWf_storeHome (h : s.memWf = true) (p : Place) (pa n v : Nat) : (s.storeHome p pa n v).memWf = true := by
  unfold storeHome
  extract_lets rs kept
  split
  · refine foldl_keeps (P := fun t => State.memWf t = true) (fun t i ht => ?_) _ h
    split
    · exact ht
    · exact memWf_writePlace ht _ _ _ _
  · exact memWf_writePlace h _ _ _ _

theorem memWf_forget (h : s.memWf = true) (core : Nat) (p : Place) (pa n : Nat) : (s.forget core p pa n).memWf = true := h

theorem memWf_afterStore (h : s.memWf = true) (core : Nat) (keep : Bool) (p : Place) (pa n : Nat) : (s.afterStore core keep p pa n).memWf = true := by
  unfold afterStore
  dsimp only
  split
  · refine foldl_keeps (P := fun t => State.memWf t = true) (fun t i ht => ?_) _ (memWf_forget h _ _ _ _)
    split
    · exact memWf_setCore ht _ _
    · exact ht
  · exact h

theorem memWf_heal (h : s.memWf = true) (l : List (Place × Nat × Nat)) : (s.heal l).memWf = true := h

theorem memWf_latch (h : s.memWf = true) (g d : Nat) : (s.latch g d).memWf = true := by
  unfold latch
  split <;> exact h

end State

/-- What an instruction's end adds to its body keeps the form. -/
theorem finishWith_memWf {i : Instr} {o : Ops} {s t : State} {e : Eff} (hs : s.memWf = true)
    (he : ∀ u, (e = .done u ∨ (∃ pc, e = .jump u pc) ∨ (∃ w, e = .hold w u) ∨ e = .gone u) → u.memWf = true) (h : finishWith i o s e = .next t) : t.memWf = true := by
  cases e with
  | done u =>
    cases h
    exact State.memWf_setCx (he _ (.inl rfl)) _
  | jump u pc =>
    cases h
    exact State.memWf_setCx (he _ (.inr (.inl ⟨pc, rfl⟩))) _
  | trap tr =>
    cases h
    exact State.memWf_raise hs _
  | hold w u =>
    cases h
    exact State.memWf_setCx (he _ (.inr (.inr (.inl ⟨w, rfl⟩)))) _
  | stall =>
    cases h
    exact hs
  | gone u =>
    cases h
    exact he _ (.inr (.inr (.inr rfl)))

end Sys2Proof.Machine
end

