-- ==== Sys2Proof/Tests/Slice0.lean ====
section
/-! SUPPORT. Tests: words written out from the spec's encodings, ill-formed chains, one-step effects with results from the spec, and
states that meet the hypotheses of the statements. -/

set_option Elab.async false

namespace Sys2Proof.Tests

open Sys2Proof Sys2Proof.Machine

/-- An OPND prefix that names B alone. -/
def ob (b : Nat) : Option Opnd := some { b := BitVec.ofNat 5 b, dh := false, ah := false, bh := BitVec.ofNat 1 (b / 32) == 1, width := 0 }

/-- A MOD prefix with a class field alone. -/
def mc (c : Nat) : Option Mod := some { sense := false, pred := 0, cls := BitVec.ofNat 6 c }

/-! Words from the spec's worked encodings: page 0 R130, page 1 R130 and chapter 18, page 2 R103 and chapter 15, page 3 chapter 15, page 4 chapters 13, 14 and 18,
page 5 R166 and chapter 14, page 8 chapters 13 and 23, page 9 chapters 14 and 23, page 10 R255 and chapter 23; pages 6 and 7 from the tables of R165 and R166. -/

theorem test_decode_movi : decode [0x1146] = .instr (.movi { d := 5, a := 3 }) 1 := by decide +kernel
theorem test_decode_loop : decode [0xF4A0, 0xB80C] = .instr (.loop { opnd := ob 5, d := 0, a := 6 }) 2 := by decide +kernel
theorem test_decode_add_imm : decode [0xF000, 0x1982] = .instr (.add { imms := [0], d := 6, a := 1 }) 2 := by decide +kernel
theorem test_decode_lcr : decode [0xF804, 0xD1C0] = .instr (.lcr { d := 7 }) 2 := by decide +kernel
theorem test_decode_extn : decode [0xF804, 0xF640, 0xF040, 0x6500] = .instr (.extn { imms := [64], opnd := ob 18, d := 20 }) 4 := by decide +kernel
theorem test_decode_ldw_chain : decode [0xF808, 0xF520, 0xFED6, 0xF000, 0x4960] =
    .instr (.ldw { imms := [0], opnd := ob 9, mod := some { sense := true, pred := 3, cls := 22 }, d := 5, a := 16 }) 5 := by decide +kernel
theorem test_decode_st32 : decode [0xF808, 0x4516] = .instr (.st32 { d := 20, a := 11 }) 2 := by decide +kernel
theorem test_decode_garm : decode [0xF80C, 0xF4C0, 0x7002] = .instr (.garm { opnd := ob 6, a := 1 }) 3 := by decide +kernel
theorem test_decode_gstat : decode [0xF80C, 0x7A03] = .instr (.gstat { d := 8, a := 1, s := true }) 2 := by decide +kernel
theorem test_decode_vins : decode [0xF810, 0xF680, 0xF004, 0x7080] = .instr (.vins { imms := [4], opnd := ob 20, d := 2 }) 4 := by decide +kernel
theorem test_decode_vst_masked : decode [0xF810, 0xFC46, 0x0896] = .instr (.vst { mod := some { sense := false, pred := 1, cls := 6 }, d := 2, a := 11 }) 3 := by decide +kernel
theorem test_decode_vfdot : decode [0xF814, 0xF4A0, 0xFC01, 0x2988] = .instr (.vfdot { opnd := ob 5, mod := mc 1, d := 6, a := 4 }) 4 := by decide +kernel
theorem test_decode_vfred : decode [0xF814, 0x750C] = .instr (.vfred { d := 20, a := 6 }) 2 := by decide +kernel
theorem test_decode_vadd : decode [0xF818, 0x0086] = .instr (.vadd { d := 2, a := 3 }) 2 := by decide +kernel
theorem test_decode_vcvti : decode [0xF81C, 0x0886] = .instr (.vcvti { d := 2, a := 3 }) 2 := by decide +kernel
theorem test_decode_vcvtf_no_type : decode [0xF81C, 0x0086] = .ill 5 2 := by decide +kernel
theorem test_decode_vfma_masked : decode [0xF814, 0xF500, 0xFC81, 0x190C] = .instr (.vfma { opnd := ob 8, mod := some { sense := false, pred := 2, cls := 1 }, d := 4, a := 6 }) 4 := by decide +kernel
theorem test_decode_mma : decode [0xF820, 0xF400, 0x2000] = .instr (.mma { opnd := ob 0 }) 3 := by decide +kernel
theorem test_decode_mcfg : decode [0xF820, 0xF401, 0x181C] = .instr (.mcfg { opnd := some { b := 0, dh := false, ah := false, bh := false, width := 1 }, a := 14 }) 3 := by decide +kernel
theorem test_decode_barr : decode [0xF824, 0x4040] = .instr (.barr { d := 1 }) 2 := by decide +kernel
theorem test_decode_ego_resume : decode [0xF824, 0xFC02, 0x2000] = .instr (.egoResume { mod := mc 2 }) 3 := by decide +kernel
theorem test_decode_mfs_mctl : decode [0xF828, 0xF401, 0x0114] = .instr (.mfs { opnd := some { b := 0, dh := false, ah := false, bh := false, width := 1 }, d := 4, a := 10 }) 3 := by decide +kernel
theorem test_decode_brk : decode [0xF828, 0x380A] = .instr (.brk { a := 5 }) 2 := by decide +kernel
theorem test_decode_fwcall : decode [0xF828, 0xF514, 0xF010, 0x1A48] = .instr (.fwcall { imms := [16], opnd := some { b := 8, dh := true, ah := false, bh := true, width := 0 }, d := 9, a := 4 }) 4 := by decide +kernel

/-! Chains that are none, with the reasons of R102: without OPND `MFS mctl` has the wrong width (8), status register 22 does not exist (7). -/

theorem test_decode_mfs_single : decode [0xF828, 0x0114] = .ill 8 2 := by decide +kernel
theorem test_decode_mfs_22 : decode [0xF828, 0x012C] = .ill 7 2 := by decide +kernel
theorem test_decode_two_pages : decode [0xF804, 0xF808, 0x4516] = .ill 2 3 := by decide +kernel
theorem test_decode_page_11 : decode [0xF82C, 0x0000] = .ill 3 2 := by decide +kernel
theorem test_decode_page10_op10 : decode [0xF828, 0x5000] = .ill 4 2 := by decide +kernel
theorem test_decode_fifth_prefix : decode [0xF000, 0xF000, 0xF000, 0xF000, 0xF000] = .ill 1 5 := by decide +kernel

/-! WellFormed: a term that each check refuses. -/

theorem test_wf_good : (Instr.add { d := 1, a := 2 }).wf = true := by decide +kernel
theorem test_wf_event : (Instr.freeze).wf = false := by decide +kernel
theorem test_wf_class : (Instr.cwb { opnd := ob 1, mod := mc 2, a := 1 }).wf = false := by decide +kernel
theorem test_wf_order : (Instr.ld { mod := mc 38, d := 1, a := 2 }).wf = false := by decide +kernel
theorem test_wf_imm_none : (Instr.mov { imms := [1], d := 1, a := 2 }).wf = false := by decide +kernel
theorem test_wf_imm_range : (Instr.ext { imms := [0], opnd := ob 1, d := 1 }).wf = false := by decide +kernel
theorem test_wf_imm_ah : (Instr.ext { imms := [64], opnd := some { b := 1, dh := false, ah := true, bh := false, width := 0 }, d := 1 }).wf = false := by decide +kernel
theorem test_wf_operand_d : (Instr.pand { d := 8, a := 1 }).wf = false := by decide +kernel
theorem test_wf_operand_a : (Instr.pnot { d := 1, a := 9 }).wf = false := by decide +kernel
theorem test_wf_operand_b : (Instr.ret { opnd := ob 3, a := 1 }).wf = false := by decide +kernel
theorem test_wf_needs_opnd : (Instr.fwcall { imms := [1], d := 1 }).wf = false := by decide +kernel
theorem test_wf_width : (Instr.add { opnd := some { b := 1, dh := false, ah := false, bh := false, width := 1 }, d := 2, a := 4 }).wf = false := by decide +kernel
theorem test_wf_group : (Instr.ld { opnd := some { b := 0, dh := false, ah := false, bh := false, width := 1 }, d := 3, a := 4 }).wf = false := by decide +kernel
theorem test_wf_length : (Instr.add { imms := [1, 2, 3, 4, 5], d := 1 }).wf = false := by decide +kernel
theorem test_wf_prefixes : (Instr.ldw { imms := [1, 2], opnd := ob 1, mod := mc 22, d := 1 }).wf = false := by decide +kernel

/-! One step on a small state: slot 0 of core 0, its heap triple [0, 2^39) at physical address 0. The results are worked by hand from the rule named. -/

/-- A context with general registers g1, g2, … as listed. -/
def regs (xs : List Word) : Ctx :=
  (List.range xs.length).foldl (fun c i => c.setG (i + 1) (xs.getD i 0)) { occ := true, sr := { hlimit := 0x8000000000 } }

/-- A ready device whose slot 0 of core 0 holds a context. -/
def one (c : Ctx) : State := { ctxs := [(0, c)], regs := { bstat := 5 }, resident := some 0 }

/-- The state after an instruction or event; itself when it stops. -/
def after (i : Instr) (s : State) : State := match exec i s with | .next t => t | _ => s

theorem test_add_wraps : (after (.add { d := 1, a := 2 }) (one (regs [0xFFFFFFFFFFFFFFFF, 1]))).cx.getG 1 = 0 := by decide +kernel
theorem test_add_pc : (after (.add { imms := [3], opnd := ob 5, d := 4, a := 4 }) (one (regs []))).cx.pc = 6 := by decide +kernel
theorem test_sub_order : (after (.sub { opnd := ob 2, d := 3, a := 1 }) (one (regs [5, 7]))).cx.getG 3 = 0xFFFFFFFFFFFFFFFE := by decide +kernel
theorem test_andn : (after (.andn { d := 1, a := 2 }) (one (regs [0xFF, 0x0F]))).cx.getG 1 = 0xF0 := by decide +kernel
theorem test_shl_65 : (after (.shl { d := 1, a := 2 }) (one (regs [3, 65]))).cx.getG 1 = 6 := by decide +kernel
theorem test_sar_sign : (after (.sar { d := 1, a := 2 }) (one (regs [0x8000000000000000, 63]))).cx.getG 1 = 0xFFFFFFFFFFFFFFFF := by decide +kernel
theorem test_rol : (after (.rol { d := 1, a := 2 }) (one (regs [0x8000000000000001, 1]))).cx.getG 1 = 3 := by decide +kernel
theorem test_mulh_minus_one : (after (.mulh { d := 1, a := 2 }) (one (regs [0xFFFFFFFFFFFFFFFF, 2]))).cx.getG 1 = 0xFFFFFFFFFFFFFFFF := by decide +kernel
theorem test_mulhn_same : (after (.mulhn { d := 1, a := 2 }) (one (regs [0xFFFFFFFFFFFFFFFF, 2]))).cx.getG 1 = 1 := by decide +kernel
theorem test_min_signed : (after (.min { d := 1, a := 2 }) (one (regs [0xFFFFFFFFFFFFFFFF, 2]))).cx.getG 1 = 0xFFFFFFFFFFFFFFFF := by decide +kernel
theorem test_minn_unsigned : (after (.minn { d := 1, a := 2 }) (one (regs [0xFFFFFFFFFFFFFFFF, 2]))).cx.getG 1 = 2 := by decide +kernel
theorem test_sel_zero_takes_y : (after (.sel { opnd := ob 3, d := 1, a := 2 }) (one (regs [0, 5, 9]))).cx.getG 1 = 9 := by decide +kernel
theorem test_div_pending : (after (.div { d := 1, a := 2 }) (one (regs [0xFFFFFFFFFFFFFFF9, 2]))).cx.pending 1 = true := by decide +kernel
theorem test_div_truncates : (after (.resultWriteback 0 0) (after (.div { d := 1, a := 2 }) (one (regs [0xFFFFFFFFFFFFFFF9, 2])))).cx.getG 1 = 0xFFFFFFFFFFFFFFFD := by decide +kernel
theorem test_div_zero_traps : (after (.div { d := 1, a := 2 }) (one (regs [1, 0]))).cx.sr.xcause = 11 := by decide +kernel
theorem test_g0_discards : (after (.add { d := 0, a := 1 }) (one (regs [5]))).cx.getG 0 = 0 := by decide +kernel
theorem test_clz_zero : (after (.clz { d := 1, a := 2 }) (one (regs [7, 0]))).cx.getG 1 = 64 := by decide +kernel
theorem test_ctz : (after (.ctz { d := 1, a := 2 }) (one (regs [7, 8]))).cx.getG 1 = 3 := by decide +kernel
theorem test_popc : (after (.popc { d := 1, a := 2 }) (one (regs [7, 0xF0F0]))).cx.getG 1 = 8 := by decide +kernel
theorem test_abs_min : (after (.abs { d := 1, a := 2 }) (one (regs [7, 0x8000000000000000]))).cx.getG 1 = 0x8000000000000000 := by decide +kernel
theorem test_movi_negative : (after (.movi { d := 5, a := 0x1F }) (one (regs []))).cx.getG 5 = 0xFFFFFFFFFFFFFFFF := by decide +kernel
theorem test_ext_sign : (after (.ext { imms := [16], opnd := ob 2, d := 1, a := 4 }) (one (regs [0, 0xF000]))).cx.getG 1 = 0 := by decide +kernel
theorem test_extn_field : (after (.extn { imms := [16], opnd := ob 2, d := 1, a := 12 }) (one (regs [0, 0xF0F0]))).cx.getG 1 = 0xF := by decide +kernel
theorem test_ins_keeps : (after (.ins { imms := [16], opnd := ob 2, d := 1, a := 4 }) (one (regs [0xFFFFF, 0]))).cx.getG 1 = 0xFF00F := by decide +kernel
theorem test_cmp_signed_less : (after (.cmp { opnd := ob 2, mod := mc 2, d := 1, a := 1 }) (one (regs [0xFFFFFFFFFFFFFFFF, 0]))).cx.getP 1 = true := by decide +kernel
theorem test_cmp_unsigned_less : (after (.cmp { opnd := ob 2, mod := mc 6, d := 1, a := 1 }) (one (regs [0xFFFFFFFFFFFFFFFF, 0]))).cx.getP 1 = false := by decide +kernel
theorem test_pnot : (after (.pnot { d := 1, a := 0 }) (one (regs []))).cx.getP 1 = false := by decide +kernel
theorem test_movp_pall : (after (.movp { imms := [0], d := 1, a := 3 }) (one (regs []))).cx.getG 1 = 1 := by decide +kernel
theorem test_br_back : (after (.br { a := 0x1E }) (one { regs [] with pc := 0x100 })).cx.pc = 0xFE := by decide +kernel
theorem test_call_links : (after (.call { imms := [1], d := 31, a := 0 }) (one { regs [] with pc := 0x100 })).cx.getG 31 = 0x104 := by decide +kernel
theorem test_ret_odd_traps : (after (.ret { a := 1 }) (one (regs [0x101]))).cx.sr.xcause = 3 := by decide +kernel
theorem test_loop_enters : (after (.loop { opnd := ob 5, d := 0, a := 6 }) (one { regs [0, 0, 0, 0, 3] with pc := 0x2002 })).cx.l0 = { lc := 3, ls := 0x2006, le := 0x200C } := by decide +kernel
theorem test_loop_zero_passes : (after (.loop { opnd := ob 5, d := 0, a := 6 }) (one { regs [] with pc := 0x2002 })).cx.pc = 0x200E := by decide +kernel
theorem test_loop_back : (after (.lcr { d := 7 }) (one { regs [] with pc := 0x200A, l0 := { lc := 3, ls := 0x2006, le := 0x200C } })).cx.pc = 0x2006 := by decide +kernel
theorem test_loop_last_pass : (after (.lcr { d := 7 }) (one { regs [] with pc := 0x200A, l0 := { lc := 1, ls := 0x2006, le := 0x200C } })).cx.pc = 0x200E := by decide +kernel
theorem test_trap_xinfo : (after (.trap { a := 5 }) (one (regs []))).cx.sr.xinfo = 0x8000000000000005 := by decide +kernel
theorem test_trap_npc : (after (.trap { a := 5 }) (one { regs [] with pc := 0x100 })).cx.sr.xpc = 0x102 := by decide +kernel
theorem test_brk_xinfo : (after (.brk { a := 5 }) (one { regs [] with pc := 0x4000 })).cx.sr.xinfo = 0x0002000000000005 := by decide +kernel
theorem test_brk_supervisor : (after (.brk { a := 5 }) (one (regs []))).cx.super = true := by decide +kernel
theorem test_tret_user_traps : (after (.tret {}) (one (regs []))).cx.sr.xinfo = 0x4000000000000000 := by decide +kernel
theorem test_tret_mode : (after (.tret {}) (one { regs [] with sr := { xstat := 1, xpc := 0x4004, hlimit := 0x8000000000 } })).cx.super = false := by decide +kernel
theorem test_pglob : (after (.pglob { d := 1, a := 2 }) (one { regs [0, 0x18FF000000000010] with sr := { prvbase := 0x1000 } })).cx.getG 1 = 0x1800000000001010 := by decide +kernel
theorem test_mts_reserved : (after (.mts { d := 8, a := 1 }) (one (regs [0xFFFFFFFFFFFFFFFF]))).cx.sr.xflags = 0x3F := by decide +kernel
theorem test_mts_coreid_traps : (after (.mts { d := 18, a := 1 }) (one (regs [1]))).cx.sr.xinfo = 0x4000000000000012 := by decide +kernel
theorem test_halt_without_checkpoint : (after (.halt {}) (one (regs []))).cx.sr.xcause = 10 := by decide +kernel
theorem test_ld_pending : (after (.ld { d := 1, a := 2 }) (one (regs [0, 0x1000]))).cx.pending 1 = true := by decide +kernel
theorem test_ld_range_traps : (after (.ld { imms := [0x3FF], opnd := ob 2, d := 1, a := 0x18 }) (one (regs [0, 0]))).cx.sr.xaddr = 0xFFFFFFFFFFFFFFF8 := by decide +kernel
theorem test_st_writes : mread (after (.pierAccess 0 0 0) (after (.st { d := 1, a := 2 }) (one (regs [0x1122334455667788, 0x1000])))).mem 0x1004 4 = 0x11223344 := by decide +kernel
theorem test_st8_one_byte : (after (.pierAccess 0 0 0) (after (.st8 { d := 1, a := 2 }) (one (regs [0x1122, 0x1000])))).mem = [(0x1000, 0x22)] := by decide +kernel
theorem test_aadd_stores : mread (after (.pierAccess 0 0 0) (after (.aadd { opnd := ob 3, d := 1, a := 2 }) { one (regs [0, 0x1000, 5]) with mem := [(0x1000, 7)] })).mem 0x1000 8 = 12 := by decide +kernel
theorem test_ste_empties : (after (.feEvaluation 0 0) (after (.ste { d := 1, a := 2 }) (one (regs [9, 0x1008])))).fe 0x1008 = false := by decide +kernel
theorem test_ldl_misaligned : (after (.ldl { d := 1, a := 2 }) (one (regs [0, 4]))).cx.sr.xcause = 3 := by decide +kernel
theorem test_stl_writes : mread (after (.stl { d := 1, a := 2 }) (one (regs [0xAB, 8]))).co.lmem 8 8 = 0xAB := by decide +kernel
theorem test_vbcast_lane : fld ((after (.vbcast { opnd := ob 1, d := 2, a := 2 }) (one (regs [7]))).cx.getV 2).toNat 992 32 = 7 := by decide +kernel
theorem test_vadd_lane : fld ((after (.vadd { opnd := ob 3, mod := mc 2, d := 4, a := 2 }) (one (((regs []).setV 2 1).setV 3 0xFFFFFFFF))).cx.getV 4).toNat 0 64 = 0 := by decide +kernel
theorem test_vfadd_one : fld ((after (.vfadd { opnd := ob 3, d := 4, a := 2 }) { one (((regs []).setV 2 0x3F800000).setV 3 0x3F800000) with rows := [(0, { balance := 1 })] }).cx.getV 4).toNat 0 32 = 0x40000000 := by decide +kernel
theorem test_vfadd_invalid : (after (.vfadd { opnd := ob 3, d := 4, a := 2 }) { one (((regs []).setV 2 0x7F800000).setV 3 0xFF800000) with rows := [(0, { balance := 1 })] }).cx.sr.xflags = 1 := by decide +kernel
/-- R25, R189: a signalling NaN in an active lane raises NV. -/
theorem test_vbmax_signalling : (after (.vbmax { opnd := ob 3, d := 4, a := 2 }) (one ((regs []).setV 2 0x7FA00000))).cx.sr.xflags = 1 := by decide +kernel
theorem test_sdset_low : (after (.sdset { d := 3, a := 1 }) (one (regs [0x123456789]))).cx.getSd 3 = 0x23456789 := by decide +kernel
theorem test_ecset : vget (after (.ecset { d := 3, a := 1 }) (one (regs [0x100000002]))).co.ec 3 0 = 2 := by decide +kernel
theorem test_ecadd_wraps : vget (after (.ecadd { d := 3, a := 1 }) { one (regs [1]) with cores := [(0, { ec := Vector.replicate 16 0xFFFFFFFF })] }).co.ec 3 0 = 0 := by decide +kernel
theorem test_dqpop_empty : (after (.dqpop { d := 1 }) (one (regs [5]))).co.results = [{ slot := 0, g := [(1, 0)] }] := by decide +kernel
theorem test_barr_no_member : (after (.barr { d := 1 }) (one (regs []))).cx.sr.xcause = 5 := by decide +kernel
theorem test_mfs_core : (after (.mfs { d := 1, a := 18 }) { (one (regs [])).setCtx 16 (regs []) with cur := 16 }).co.results = [{ slot := 0, g := [(1, 2)] }] := by decide +kernel
theorem test_dep : (after (.mov { d := 1, a := 2 }) (one ((regs []).mark true 2))).cx.trap = some { cause := 2, xinfo := 2, xpc := some 0 } := by decide +kernel
theorem test_false_guard : (after (.movi { mod := some { sense := true, pred := 0, cls := 0 }, d := 1, a := 5 }) (one (regs [9]))).cx.getG 1 = 9 := by decide +kernel

/-! Events. -/

theorem test_reset_keeps_memory : (after (.reset true) { one (regs []) with mem := [(5, 1)] }).mem = [(5, 1)] := by decide +kernel
theorem test_doorbell_out_of_range : (after (.qtailDoorbell 0 4) { one (regs []) with devctxs := [(0, { qsize := 4 })] }).qstatOf 0 = 0x14 := by decide +kernel
theorem test_frozen_tick : (after .referenceTick { one (regs []) with regs := { bstat := 7 } }).now = 0 := by decide +kernel
theorem test_freeze_state : (after .freeze (one (regs []))).bootState = 7 := by decide +kernel
theorem test_ulctl_trains : (after (.ulctlWrite 3 1) (one (regs []))).portState 3 = 1 := by decide +kernel
theorem test_ecc_poisons : (after (.eccUncorrectable (.line 0x1040)) (one (regs []))).poison = [0x41] := by decide +kernel

/-! States and operands that meet the hypotheses of the statements, clause by clause. -/

/-- The answer of an instruction is a next state with a property. -/
def goesTo (r : Host.Outcome State Fault Refusal) (P : State → Bool) : Bool := match r with | .next t => P t | _ => false

/-- The same of an instruction. -/
def goes (i : Instr) (s : State) (P : State → Bool) : Bool := match exec i s with | .next t => P t | _ => false

theorem of_goes {i : Instr} {s : State} {P : State → Bool} (h : goes i s P = true) : ∃ t, exec i s = .next t ∧ P t = true := by
  unfold goes at h
  split at h
  · exact ⟨_, ‹_›, h⟩
  · cases h

/-- A device whose page tables map no parameter-record page has plain bytes only, and keeps them whatever a run of bytes off the root tables comes to hold. -/
theorem plainFor_of_empty {s : State} {pa n : Nat} (ha : s.armed = [])
    (h : ∀ e ∈ s.devctxs, fld e.2.ptroot.toNat 12 44 = 0 ∧ 4096 ≤ pa) (hm : ∀ e ∈ s.mem, 4096 ≤ e.1) : s.plainFor pa n := by
  intro m hw hx
  have hlow : ∀ e ∈ m, 4096 ≤ e.1 ∨ s.devctxs = [] := by
    intro e he
    cases hd : s.devctxs with
    | nil => exact .inr rfl
    | cons d _ =>
      refine .inl (Nat.le_of_not_lt fun hlt => ?_)
      have hp := (h d (hd ▸ List.mem_cons_self ..)).2
      have h0 : mget m e.1 = 0 := by
        rw [hx e.1 (by omega)]
        exact mget_of_lt fun b hb => Nat.lt_of_lt_of_le hlt (hm b hb)
      exact (Mem.wf_iff m).1 hw |>.1 e he ((mget_of_mem hw he).symm.trans h0)
  have hr : ({ s with mem := m } : State).recordPages = [] := by
    simp only [State.recordPages, List.flatten_eq_nil_iff, List.mem_map, forall_exists_index, and_imp]
    rintro _ d hd rfl
    have hv : m.filterMap (fun e => if 0 ≤ e.1 ∧ e.1 < 0 + 4096 ∧ (e.1 - 0) % 16 = 0 ∧ e.2.getLsbD 0 = true then some e.1 else none) = [] := by
      rw [List.filterMap_eq_nil_iff]
      intro e he
      rcases hlow e he with h | h
      · rw [if_neg (by omega)]
      · rw [h] at hd; cases hd
    simp only [(h d hd).1, Nat.zero_mul, Machine.recordPages, if_true, hv, List.map_nil, List.flatten_nil]
  intro i _
  rw [hr]
  simp [keptByte, readMask, inHeader, inReserve, State.headerByte, ha]

theorem plain_of_for {s : State} {pa n : Nat} (h : s.plainFor pa n) (hw : Mem.wf s.mem = true) : s.plain pa n := h s.mem hw (fun _ _ => rfl)

theorem plain_of_empty {s : State} {pa n : Nat} (ha : s.armed = []) (h : s.devctxs = []) : s.plain pa n := by
  intro i _
  have hr : s.recordPages = [] := by simp [State.recordPages, h]
  rw [hr]
  simp [keptByte, readMask, inHeader, inReserve, State.headerByte, ha]

/-- Registers g1 = 0x1000, g2 = 0x2000, then small numbers. -/
def s0 : State := one (regs [0x1000, 0x2000, 3, 4, 5, 6])

/-- The same with a vector register that holds 1.0 in lane 0. -/
def sv : State := one ((regs [0x1000, 0x2000, 3]).setV 2 0x3F800000)

/-- At a checkpoint: the table at 0x8000 has one entry, for the chain at 0. -/
def sk : State := { one { regs [0x1000, 0x2000, 3] with sr := { hlimit := 0x8000000000, ckbase := 0x8000 } } with mem := [(0x8000, 1)] }

/-- In supervisor mode. -/
def su : State := one { regs [0x1000, 0x2000, 3] with sr := { hlimit := 0x8000000000, xstat := 1 } }

/-- With a MOV g1, g2 at its pc. -/
def sm : State := { s0 with mem := [(0, 0x44), (1, 0x08)] }

/-- Frozen. -/
def sf : State := { s0 with regs := { bstat := 7 } }

theorem witness_DecodeReadsEncodedChain : (Instr.ldw { imms := [0], opnd := ob 9, mod := some { sense := true, pred := 3, cls := 22 }, d := 5, a := 16 }).wf = true := by decide +kernel
/-- A chain that is accepted; the prefixes of one that is refused for a fifth prefix, for two OPND, for the reserved page 11 and for a reserved op; an ALU form and an LD in any operands. -/
theorem witness_DecodedChainIsWellFormed : decode [0xF808, 0xF520, 0xFED6, 0xF000, 0x4960] = .instr (.ldw { imms := [0], opnd := ob 9, mod := some { sense := true, pred := 3, cls := 22 }, d := 5, a := 16 }) 5
    ∧ (List.replicate 5 (0xF000 : BitVec 16)).all (fun p => p.toNat / 2 ^ 12 == 15) = true ∧ 2 ≤ (prefixesOf 1 [0xF4A0, 0xF4A0]).length ∧ (0x1908 : BitVec 16).toNat / 2 ^ 12 ≠ 15
    ∧ (prefixesOf 2 [0xF82C]).map (fun p => p.toNat % 2 ^ 10) = [44] ∧ 10 < 44 / 4 ∧ opsOnPage.getD 0 0 ≤ (0xE000 : BitVec 16).toNat / 2 ^ 11 ∧ (0x0844 : BitVec 16).toNat / 2 ^ 11 < opsOnPage.getD 0 0
    ∧ (∃ f, ((.add : Ops → Instr), f) ∈ aluTable) ∧ (Instr.add {}).spec.any (fun sp => decide (({} : Ops).plainWords + (if sp.page = 0 then 0 else 1) ≤ 5)) = true ∧ ({ imms := [0, 0], opnd := ob 1, mod := mc 5 } : Ops).plainWords = 5 := by
  repeat' apply And.intro
  all_goals first | decide +kernel | exact ⟨_, List.mem_cons_self ..⟩
theorem witness_StepRunsDecodedChain : (0 < 1536 ∧ sm.still = false ∧ sm.offers 0 = true ∧ (sm.ctx 0).wait = .none ∧ sm.fetch 0 (sm.ctx 0) (sm.ctx 0).pc = .ok (.instr (.mov { d := 1, a := 2 }) 1))
    ∧ (sm.atBoundary 0).isNone = true ∧ ∃ t, exec (.mov { d := 1, a := 2 }) { sm with cur := 0, stall := false } = .next t ∧ (!t.stall) = true :=
  ⟨by decide +kernel, by decide +kernel, of_goes (by decide +kernel)⟩
/-- Slot 0 holds no context: the one ready context runs from slot 1; in an empty device none is ready. -/
theorem witness_StepChoosesReadyContext :
    let s : State := { sm with ctxs := [(1, sm.ctx 0)] }
    let none_ : State := { sm with ctxs := [] }
    (s.still = false ∧ (s.attempt 0).isSome = false ∧ (s.attempt 1).isSome = true ∧ (∀ q, q < 8 → (s.attempt q).isSome = true → q = 1) ∧ s.offers 1 = true ∧ (s.atBoundary 1).isNone = true ∧ (s.ctx 1).wait = .none
      ∧ s.fetch 0 (s.ctx 1) (s.ctx 1).pc = .ok (.instr (.mov { d := 1, a := 2 }) 1) ∧ goes (.mov { d := 1, a := 2 }) { s with cur := 1, stall := false } (fun t => !t.stall) = true)
    ∧ none_.still = false ∧ ∀ q, q < 8 → (none_.attempt q).isSome = false := by
  refine ⟨?_, ?_⟩ <;> decide +kernel
/-- A byte in L-memory. -/
def sb : State := { one (regs []) with cores := [(0, { lmem := [(5, 1)] })], turns := [.issue 0] }

theorem sb_buffersWf : sb.buffersWf := by
  intro k
  by_cases h : k = 0
  · subst h; decide +kernel
  · have : sb.core k = {} := by simp [State.core, sb, one, tget, Ne.symm h]
    rw [this]
    decide +kernel

theorem witness_StepKeepsMemoryCanonical : State.reset.memWf = true ∧ (∃ t, step { State.reset with turns := [.issue 0] } = .next t) ∧ sb.buffersWf ∧ ∃ t, step sb = .next t :=
  ⟨by decide, ⟨_, rfl⟩, sb_buffersWf, ⟨_, rfl⟩⟩
theorem witness_FrozenDeviceStandsStill : sf.still = true ∧ (Instr.referenceTick).ops = none := by decide +kernel
theorem witness_FalseGuardOnlyRetires :
    let o : Ops := { mod := some { sense := true, pred := 0, cls := 0 }, d := 1, a := 2 }
    (Instr.mov o).ops = some o ∧ ((Instr.mov o).spec.any (fun sp => sp.page == 0)) = true ∧ s0.cx.occ = true ∧ s0.cx.wait = .none ∧ s0.cx.drained = true ∧ s0.cx.guard o = false
    ∧ (let s := one ((regs []).mark true 5); s.cx.drained = false ∧ s.cx.occ = true ∧ s.cx.wait = .none ∧ s.cx.guard o = false ∧ ∀ r ∈ rp o.pred :: ([rg o.dNum, rg o.aNum] ++ grp rg o.dNum (groupSize o) ++ addrRegs o), s.cx.pending r = false) := by decide +kernel
theorem witness_PendingRegisterTrapsDep :
    let s := one ((regs []).mark true 2)
    s.cx.occ = true ∧ s.cx.wait = .none ∧ 2 ∈ rp 0 :: aluRegs { d := 1, a := 2 } ∧ 2 ∈ [rg 1, rg 2] ∧ 2 ∈ grp rg 1 1 ++ addrRegs { d := 1, a := 2 } ∧ s.cx.pending 2 = true := by decide +kernel
/-- Every entry of the table names a register that is pending where all are. -/
theorem witness_PendingRegisterTrapsDepTable :
    let s := one ((regs []).marks true (List.range 256))
    s.cx.occ = true ∧ s.cx.wait = .none ∧ pendTable ≠ [] ∧ pendTable.all (fun e => (e.2 { opnd := ob 2, d := 2, a := 2 }).any s.cx.pending) = true :=
  ⟨by decide +kernel, by decide +kernel, by simp [pendTable], by decide +kernel⟩
theorem witness_TrapEntryWrites : s0.cx.drained = true := by decide +kernel
theorem witness_AluWritesResult : (∃ f, ((.add : Ops → Instr), f) ∈ aluTable) ∧ s0.canIssue { d := 1, a := 2 } (aluRegs { d := 1, a := 2 }) := ⟨⟨_, List.mem_cons_self ..⟩, by decide +kernel⟩
theorem witness_ScalarFrame : (∃ f, ((.add : Ops → Instr), f) ∈ aluTable) ∧ ∃ t, exec (.add { d := 1, a := 2 }) s0 = .next t ∧ true = true := ⟨⟨_, List.mem_cons_self ..⟩, of_goes (P := fun _ => true) (by decide +kernel)⟩
/-- The SEL, FATS, ADDP and LEA clauses (LEA of FP32 elements, and of DB4 elements with an even index), the CMP clause, the divide clauses with Y = 4 and Y = 0. -/
theorem witness_SelectComparePointerDivide :
    let o : Ops := { opnd := ob 4, d := 1, a := 2 }
    let db4 := one (regs [0, BitVec.ofNat 64 (((List.range 32).find? (fun f => elemSize2 f == 1)).getD 0 * 2 ^ 59), 0, 4])
    s0.canIssue o (aluRegs o) ∧ (2 : Nat) ≠ 0 ∧ elemSize2 ((aluXY o db4.cx).1.toNat / 2 ^ 59) = 1 ∧ (aluXY o db4.cx).2.toNat % 2 = 0 ∧ db4.canIssue o (aluRegs o)
    ∧ s0.canIssue o [rp 1, rg 2, rg 4] ∧ (aluXY o s0.cx).2 ≠ 0 ∧ s0.canIssue { d := 1, a := 0 } (aluRegs { d := 1, a := 0 }) ∧ (aluXY { d := 1, a := 0 } s0.cx).2 = 0 := by decide +kernel
theorem witness_OneOperandResults : s0.canIssue { d := 1, a := 2 } [rg 1, rg 2] ∧ s0.canIssue { d := 1, a := 31 } [rg 1] ∧ ({ d := 1, a := 16 } : Ops).imms = [] ∧ ({ imms := [512, 0, 0, 0] } : Ops).imms.length = 4 := by decide +kernel
/-- The longest field, and the field of one bit at the top. -/
theorem witness_BitFieldResults :
    let a : Ops := { imms := [128], opnd := ob 2, d := 1 }
    let b : Ops := { imms := [3], opnd := ob 2, d := 1, a := 31 }
    (s0.canIssue a [rg a.dNum, rg a.moved] ∧ 1 ≤ a.imm.toNat / 64 % 128 ∧ a.imm.toNat % 64 + a.imm.toNat / 64 % 128 = 64)
    ∧ s0.canIssue b [rg b.dNum, rg b.moved] ∧ b.imm.toNat / 64 % 128 = 1 ∧ b.imm.toNat % 64 = 63 ∧ a.plainWords ≤ 4 ∧ ({ imms := [512] } : Ops).plainWords ≤ 4 := by decide +kernel
theorem witness_PredicateResults : s0.canIssue { d := 7, a := 1 } [rp 7, rp 7, rp 1] ∧ s0.canIssue { d := 7, a := 1 } [rp 7, rp 1] ∧ s0.cx.drained = true
    ∧ (∀ n, n < 5 → ({ imms := [0], d := 1, a := BitVec.ofNat 5 n } : Ops).imm = n) ∧ s0.cx.guard { imms := [0], d := 1, a := 4 } = true := by decide +kernel
/-- Codes 0 to 5 of the loop registers, a value 0, an even and an odd address, an active and an inactive level. -/
theorem witness_LoopAndSeedRegisterMoves :
    (∀ n, n < 6 → s0.canIssue { d := 1, a := BitVec.ofNat 5 n } [rg 1] ∧ s0.canIssue { d := BitVec.ofNat 5 n, a := 2 } [rg 2]) ∧ s0.cx.getG 0 = 0 ∧ (s0.cx.getG 2).getLsbD 0 = false ∧ (s0.cx.getG 3).getLsbD 0 = true
    ∧ s0.canIssue { imms := [1], d := 15 } [] ∧ s0.canIssue { d := 15, a := 2 } [rg 2] := by decide +kernel
theorem witness_NopYieldAndSoftwareTraps : s0.canIssue {} [] ∧ ({ imms := [511], a := 31 } : Ops).imm = 16383 ∧ s0.canIssue { imms := [511], a := 31 } [] := by decide +kernel
/-- A BR back and a RET, to an even and to an odd target. -/
theorem witness_BranchesTransfer : s0.canIssue { a := 31 } [] ∧ (s0.cx.pc + wordOf ({ a := 31 } : Ops).imm).getLsbD 0 = true ∧ (s0.cx.pc + wordOf ({ a := 30 } : Ops).imm).getLsbD 0 = false
    ∧ s0.canIssue { a := 2 } [rg 2] ∧ (s0.cx.getG 2).getLsbD 0 = false ∧ s0.canIssue { a := 3 } [rg 3] ∧ (s0.cx.getG 3).getLsbD 0 = true := by decide +kernel
/-- CALL to a register and to a label; LOOP with both levels free, inside level 1, at the end of an inactive level that holds writes, and with level 0 in use. -/
theorem witness_CallAndLoop :
    let o : Ops := { opnd := ob 3, d := 0, a := 4 }
    let in1 := one { regs [0, 0, 3] with l1 := { lc := 2, ls := 0, le := 0x100 } }
    let in0 := one { regs [0, 0, 3] with l0 := { lc := 2, ls := 0, le := 0x100 } }
    let at0 := one { regs [0, 0, 3] with l0 := { lc := 0, ls := 0, le := 2, heldLs := some 8, heldLe := some 16 } }
    s0.canIssue { d := 1, a := 2 } [rg 1, rg 2] ∧ s0.canIssue { imms := [1], d := 1 } [rg 1] ∧ s0.canIssue o [rg o.bNum] ∧ s0.cx.l0.lc = 0 ∧ s0.cx.l1.lc = 0
    ∧ in1.canIssue o [rg o.bNum] ∧ in1.cx.l0.lc = 0 ∧ (in1.cx.pc + BitVec.ofNat 64 (2 * (Instr.loop o).words)).toNat + o.imm.toNat ≤ in1.cx.l1.le.toNat
    ∧ in1.cx.l1.le ≠ in1.cx.pc + BitVec.ofNat 64 (2 * (Instr.loop o).words) - 2
    ∧ (at0.canIssue o [rg o.bNum] ∧ at0.cx.l0.lc = 0 ∧ at0.cx.l1.lc = 0 ∧ at0.cx.suspended 0 = false ∧ (at0.cx.loop 0).le = at0.cx.pc + BitVec.ofNat 64 (2 * (Instr.loop o).words) - 2 ∧ (at0.cx.loop 0).heldLe ≠ none)
    ∧ in0.canIssue o [rg o.bNum] ∧ in0.cx.l0.lc ≠ 0 := by decide +kernel
/-- At a checkpoint; HALT.retain of the whole of L-memory and of no range; and without a checkpoint. -/
theorem witness_HaltEndsContext :
    let o : Ops := { opnd := ob 2, a := 1 }
    let r (g2 : Word) : State := { one { regs [0x1000, g2] with sr := { hlimit := 0x8000000000, ckbase := 0x8000 } } with mem := [(0x8000, 1)] }
    sk.canIssue {} [] ∧ sk.atCheckpoint = true ∧ sk.cx.drained = true ∧ sk.co.awaitsMx 0 = false ∧ (let w : State := { sk with ctxs := [(0, sk.cx.mark true 1)] }; w.canIssue {} [] ∧ w.atCheckpoint = true ∧ w.cx.drained = false) ∧ (r 0x1800000000000).canIssue o [rg 1, rg 2] ∧ (r 0x1800000000000).atCheckpoint = true ∧ (r 0x1800000000000).cx.drained = true
    ∧ ((r 0x1800000000000).core 0).deque.length < 256 ∧ 0x1000 % 64 = 0 ∧ fld 0x1800000000000 17 15 = 0 ∧ fld 0x1800000000000 49 15 = 0 ∧ fld 0x1800000000000 0 17 + fld 0x1800000000000 32 17 = 0x18000
    ∧ (r 0).canIssue o [rg 1, rg 2] ∧ fld 0 32 17 = 0 ∧ (∀ b ∈ [false, true], let s : State := if b then r 0 else { r 0 with jobs := [(0, { kind := .commit 0x1000 0x300000, words := [] })] }
      s.canIssue o [rg 1, rg 2] ∧ s.atCheckpoint = true ∧ s.cx.drained = true ∧ s.bytesFree s.coreNo s.cx.trans (0x1000 + 24) 8 = b) ∧ s0.poison = [] ∧ s0.canIssue {} [] ∧ s0.atCheckpoint = false ∧ s0.canIssue o [rg 1, rg 2] := by decide +kernel

/-- The physical address that the heap of these states gives a byte. -/
def ph (pa : Nat) : Phys := { place := .here, pa, size := 0x8000000000 }

/-- An answer that holds a property. -/
def holds {ε α : Type} (x : Except ε α) (P : α → Bool) : Bool := match x with | .ok a => P a | .error _ => false

theorem of_holds {ε α : Type} {x : Except ε α} {P : α → Bool} (h : holds x P = true) : ∃ a, x = .ok a ∧ P a = true := by
  unfold holds at h
  split at h
  · exact ⟨_, rfl, h⟩
  · cases h

/-- With the byte 0x80 at 0x2000. -/
def s8 : State := { s0 with mem := [(0x2000, 0x80)] }

/-- The pair g2, g3, at the word 0x2000. -/
def o2 : Ops := { opnd := some { b := 0, dh := false, ah := false, bh := false, width := 1 }, d := 2, a := 2 }

/-- Each length of a load and a store, a pair of registers, and an address outside the heap. -/
theorem witness_LoadsAndStoresIssue :
    let o : Ops := { d := 1, a := 2 }
    let out := one (regs [0, 0x8000000000])
    s0.canIssue o (grp rg o.dNum 1 ++ addrRegs o)
    ∧ (∀ n ∈ [1, 2, 4, 8], s0.check .load (cutLdSt (effAddr o s0.cx) n) = .ok [({ off := 0, va := 0x2000, n }, ph 0x2000)] ∧ s0.check .store (cutLdSt (effAddr o s0.cx) n) = .ok [({ off := 0, va := 0x2000, n }, ph 0x2000)])
    ∧ groupSize o2 = 2 ∧ s0.canIssue o2 (grp rg o2.dNum 2 ++ addrRegs o2) ∧ s0.check .load (cutLdSt (effAddr o2 s0.cx) 16) = .ok [({ off := 0, va := 0x2000, n := 16 }, ph 0x2000)]
    ∧ out.canIssue o (grp rg o.dNum 1 ++ addrRegs o) ∧ (∀ n ∈ [1, 2, 4, 8], out.check .load (cutLdSt (effAddr o out.cx) n) = .error { cause := 4, xaddr := 0x8000000000, xinfo := 0x101 }
      ∧ out.check .store (cutLdSt (effAddr o out.cx) n) = .error { cause := 4, xaddr := 0x8000000000, xinfo := 0x201 }) := by decide +kernel
/-- A load of eight bytes across a line, its first piece performed; a load from the register window. -/
def two : State :=
  { one (regs []) with cores := [(0, { flight := [{ id := 0, slot := 0, kind := .load, dest := .gregs [(1, 0, 8, false)], pieces := [{ va := 0x203C, place := .here, pa := 0x203C, n := 4, off := 0, done := true, data := 7 }, { va := 0x2040, place := .here, pa := 0x2040, n := 4, off := 4 }] }], nextId := 1 })] }
def winLoad : State :=
  { one (regs []) with cores := [(0, { flight := [{ id := 0, slot := 0, kind := .load, dest := .gregs [(1, 0, 8, false)], pieces := [{ va := 0x8000000000, place := .window, pa := 2 ^ 40 + 8, n := 8 }] }], nextId := 1 })] }

theorem lastPiece_two : ∀ a p, two.findPiece 0 0 1 = some (a, p) → a.lastPiece 1 := by
  rintro a p h
  obtain ⟨rfl, -⟩ : a = { id := 0, slot := 0, kind := .load, dest := .gregs [(1, 0, 8, false)], pieces := [{ va := 0x203C, place := .here, pa := 0x203C, n := 4, off := 0, done := true, data := 7 }, { va := 0x2040, place := .here, pa := 0x2040, n := 4, off := 4 }] } ∧ True := by
    have : two.findPiece 0 0 1 = some ({ id := 0, slot := 0, kind := .load, dest := .gregs [(1, 0, 8, false)], pieces := [{ va := 0x203C, place := .here, pa := 0x203C, n := 4, off := 0, done := true, data := 7 }, { va := 0x2040, place := .here, pa := 0x2040, n := 4, off := 4 }] }, { va := 0x2040, place := .here, pa := 0x2040, n := 4, off := 4 }) := by decide +kernel
    rw [this] at h
    cases h
    exact ⟨rfl, trivial⟩
  refine ⟨fun j q hj hq => ?_, fun j k q r hjk hq hr => ?_⟩
  · match j, hj, hq with
    | 0, _, hq => cases hq; rfl
    | 1, hj, _ => exact absurd rfl hj
    | _ + 2, _, hq => cases hq
  · match j, k, hjk, hq, hr with
    | 0, 0, h, _, _ => exact absurd rfl h
    | 0, 1, _, hq, hr => cases hq; cases hr; decide
    | 1, 0, _, hq, hr => cases hq; cases hr; decide
    | 1, 1, h, _, _ => exact absurd rfl h
    | 0, _ + 2, _, _, hr => cases hr
    | 1, _ + 2, _, _, hr => cases hr
    | _ + 2, _, _, hq, _ => cases hq

/-- A whole piece, from memory and from a line of the data cache; the last piece of two; a piece in the register window. -/
theorem witness_AlignedLoadDelivers :
    let o : Ops := { d := 1, a := 2 }
    groupSize o = 1 ∧ (s8.canIssue o (grp rg o.dNum 1 ++ addrRegs o) ∧ (∀ n ∈ [1, 2, 4, 8], s8.check .load (cutLdSt (effAddr o s8.cx) n) = .ok [({ off := 0, va := effAddr o s8.cx, n }, ph 0x2000)] ∧ 0x2000 % 64 + n ≤ 64))
    ∧ (ph 0x2000).place = .here ∧ s8.clearAt 0x2000 8 ∧ s8.noCopy 0 0x2000 ∧ s8.plain 0x2000 8
    ∧ (let h := { s8 with cores := [(0, { dcache := [(0x80, 5)] })] }; h.clearAt 0x2000 8 ∧ bit0Of o 6 = false ∧ (ph 0x2000).c = true ∧ ordOf o 6 = 0 ∧ h.co.dcache.find? (fun e => e.1 == 0x80) = some (0x80, 5))
    ∧ (∃ a p, two.findPiece 0 0 1 = some (a, p) ∧ (two.still = false ∧ a.kind = .load ∧ a.dest = .gregs [(1, 0, 8, false)] ∧ two.pieceReady 0 a p = true ∧ two.poisoned a p = none ∧ p.place = .here ∧ p.pa % 64 + p.n ≤ 64 ∧ two.noCopy 0 p.pa) ∧ a.lastPiece 1 ∧ two.plain p.pa p.n)
    ∧ ∃ a p, winLoad.findPiece 0 0 0 = some (a, p) ∧ winLoad.still = false ∧ a.kind = .load ∧ winLoad.pieceReady 0 a p = true ∧ winLoad.poisoned a p = none ∧ p.place = .window := by
  refine ⟨rfl, by decide +kernel, rfl, ?_, ⟨rfl, rfl⟩, plain_of_empty rfl rfl, ?_, ⟨_, _, rfl, ?_, lastPiece_two _ _ rfl, plain_of_empty rfl rfl⟩, ⟨_, _, rfl, by decide +kernel⟩⟩ <;>
  · simp only [State.clearAt, State.noCopy]
    decide +kernel
/-- A store of two pieces, and one to the register window. -/
def stTwo : State :=
  { one (regs []) with cores := [(0, { flight := [{ id := 0, slot := 0, kind := .store, pieces := [{ va := 0x203C, place := .here, pa := 0x203C, n := 4, off := 0 }, { va := 0x2040, place := .here, pa := 0x2040, n := 4, off := 4 }] }], nextId := 1 })] }
def winStore : State :=
  { one (regs []) with cores := [(0, { flight := [{ id := 0, slot := 0, kind := .store, pieces := [{ va := 0x8000000000, place := .window, pa := 2 ^ 40 + 8, n := 8 }] }], nextId := 1 })] }

/-- Single registers and a pair; a piece of two; a piece in the register window. -/
theorem witness_AlignedStoreWrites :
    let o : Ops := { d := 1, a := 2 }
    (s0.canIssue o (grp rg o.dNum 1 ++ addrRegs o) ∧ groupSize o = 1 ∧ groupSize o2 = 2 ∧ s0.canIssue o2 (grp rg o2.dNum 2 ++ addrRegs o2)
      ∧ (∀ n ∈ [1, 2, 4, 8], s0.check .store (cutLdSt (effAddr o s0.cx) n) = .ok [({ off := 0, va := effAddr o s0.cx, n }, ph 0x2000)]) ∧ s0.check .store (cutLdSt (effAddr o2 s0.cx) 16) = .ok [({ off := 0, va := 0x2000, n := 16 }, ph 0x2000)])
    ∧ (ph 0x2000).place = .here ∧ s0.clearAt 0x2000 16 ∧ s0.plain 0x2000 16 ∧ s0.memWf = true
    ∧ (∃ a p, stTwo.findPiece 0 0 1 = some (a, p) ∧ (stTwo.still = false ∧ a.kind = .store ∧ stTwo.pieceReady 0 a p = true ∧ stTwo.poisoned a p = none ∧ p.place = .here ∧ stTwo.memWf = true) ∧ stTwo.plain p.pa p.n)
    ∧ ∃ a p, winStore.findPiece 0 0 0 = some (a, p) ∧ winStore.still = false ∧ a.kind = .store ∧ winStore.pieceReady 0 a p = true ∧ winStore.poisoned a p = none ∧ p.place = .window ∧ a.ord = 0 ∧ a.pieces = [p] ∧ a.dest = .nowhere := by
  refine ⟨by decide +kernel, rfl, ?_, plain_of_empty rfl rfl, by decide, ⟨_, _, rfl, by decide +kernel, plain_of_empty rfl rfl⟩, ⟨_, _, rfl, by decide +kernel⟩⟩
  simp only [State.clearAt]
  decide +kernel
/-- Both operand sizes, every operation, and a compare that succeeds and one that fails. -/
theorem witness_AtomicsReadModifyWrite :
    let o : Ops := { opnd := ob 4, d := 1, a := 2 }
    let o32 : Ops := { o with mod := mc 4 }
    (s0.canIssue o [rg 1, rg 2, rg 4] ∧ s0.canIssue o [rg 1, rg 2, rg 4, rg 5] ∧ s0.canIssue o32 [rg 1, rg 2, rg 4, rg 5] ∧ fld (s0.cx.getG o.aNum).toNat 0 56 = 0x2000
      ∧ (∀ op, op < 12 → ∀ n ∈ [4, 8], s0.check (.atomic op) [{ off := 0, va := 0x2000, n }] = .ok [({ off := 0, va := 0x2000, n }, ph 0x2000)])
      ∧ mread s0.mem 0x2000 8 ≠ fld (s0.cx.getG 4).toNat 0 64 ∧ mread { s0 with mem := [(0x2000, 4)] }.mem 0x2000 8 = fld (s0.cx.getG 4).toNat 0 64)
    ∧ s0.clearAt 0x2000 8 ∧ s0.plain 0x2000 8 ∧ s0.memWf = true := by
  refine ⟨by decide +kernel, ?_, plain_of_empty rfl rfl, by decide⟩
  simp only [State.clearAt]
  decide +kernel
theorem witness_MemoryIssueFrame : (∃ w n sg, ((.ld : Ops → Instr), w, n, sg) ∈ loadTable) ∧ (∃ t, exec (.ld { d := 1, a := 2 }) s0 = .next t ∧ true = true)
    ∧ ∃ t, exec (.vld { d := 2, a := 2 }) sv = .next t ∧ true = true :=
  ⟨⟨_, _, _, List.mem_cons_self ..⟩, of_goes (P := fun _ => true) (by decide +kernel), of_goes (P := fun _ => true) (by decide +kernel)⟩

/-- An access of slot 0 with one piece of 8 bytes at 0x2000, in flight. -/
def fl (c : Ctx) (kind : AccKind) : State :=
  { one c with cores := [(0, { flight := [{ id := 0, slot := 0, kind, pieces := [{ va := 0x2000, place := .here, pa := 0x2000, n := 8 }] }], nextId := 1 })] }

/-- A store and an atomic. -/
theorem witness_PieceChangesOnlyItsBytes :
    (fl (regs []) .store).memWf = true ∧ ((fl (regs []) .store).findPiece 0 0 0).map (fun e => (e.1.kind, e.2.place, e.2.n)) = some (.store, .here, 8) ∧ ((fl (regs []) (.atomic 0 8 1 0)).findPiece 0 0 0).map (fun e => (e.1.kind, e.2.place, e.2.n)) = some (.atomic 0 8 1 0, .here, 8)
    ∧ ∃ t, exec (.pierAccess 0 0 0) (fl (regs []) .store) = .next t ∧ true = true := ⟨by decide +kernel, by decide +kernel, by decide +kernel, of_goes (P := fun _ => true) (by decide +kernel)⟩
/-- The last word of L-memory; a copy under way into it; a range retained from its fourth byte on; a misaligned address; the word below 0 and the word above. -/
theorem witness_LocalMemoryMoves :
    let o : Ops := { d := 1, a := 2 }
    let at_ (x : Word) := one (regs [0, x])
    ((at_ 0x17FF8).canIssue o (grp rg o.dNum 1 ++ addrRegs o) ∧ effLocal o (at_ 0x17FF8).cx = 0x17FF8 ∧ (0x17FF8 : Int) % 8 = 0 ∧ (0x17FF8 : Int) + 8 ≤ 0x18000 ∧ (at_ 0x17FF8).co.busy 2 0x17FF8 0x18000 = false ∧ (at_ 0x17FF8).still = false ∧ (at_ 0x17FF8).co.results = []
      ∧ (∀ i, i < 8 → (at_ 0x17FF8).co.retained (0x17FF8 + i) (0x17FF8 + i + 1) = false) ∧ Mem.wf (at_ 0x17FF8).co.lmem = true)
    ∧ (let b := { at_ 8 with cores := [(0, { scores := [{ eng := false, cmd := 0, buf := 2, lo := 0, hi := 0x40 }] })] }; b.canIssue o (grp rg o.dNum 1 ++ addrRegs o) ∧ b.co.busy 2 8 16 = true ∧ ∀ i, i < 8 → b.co.retained (8 + i) (8 + i + 1) = false)
    ∧ (let r := { at_ 8 with cores := [(0, { kept := [{ rcd := 0, uid := 0, lo := 12, len := 4 }] })] }; r.canIssue o (grp rg o.dNum 1 ++ addrRegs o) ∧ r.co.retained (8 + 4) (8 + 4 + 1) = true ∧ ∀ i, i < 4 → r.co.retained (8 + i) (8 + i + 1) = false)
    ∧ ((at_ 4).canIssue o (grp rg o.dNum 1 ++ addrRegs o) ∧ effLocal o (at_ 4).cx % 8 ≠ 0) ∧ ((at_ 0x18000).canIssue o (grp rg o.dNum 1 ++ addrRegs o) ∧ effLocal o (at_ 0x18000).cx % 8 = 0 ∧ 0x18000 < effLocal o (at_ 0x18000).cx + 8)
    ∧ (at_ 0).canIssue { o with imms := [511], a := 31, opnd := ob 2 } (grp rg 1 1 ++ addrRegs { o with imms := [511], a := 31, opnd := ob 2 }) := by decide +kernel

/-- sk with the word 0x2000 empty. -/
def ske : State := sk.setFe 0x2000 false

/-- The forms on a full word, STF on an empty one, the waiting ones at a checkpoint. -/
theorem witness_FullEmptyFormsPerform :
    let o : Ops := { d := 1, a := 2 }
    let ok (s : State) (form : FeForm) : Prop := s.canIssue o (rg o.dNum :: addrRegs o) ∧ s.atCheckpoint = true ∧ effAddr o s.cx % 8 = 0 ∧ s.check form.kind [{ off := 0, va := effAddr o s.cx, n := 8 }] = .ok [({ off := 0, va := effAddr o s.cx, n := 8 }, ph 0x2000)]
    ((∀ form ∈ [FeForm.ldw, .ldc, .ste, .feget, .feset], ok sk form) ∧ sk.fe 0x2000 = true ∧ sk.waitBit 0x2000 = false ∧ ok ske .stf ∧ ske.fe 0x2000 = false ∧ ske.waitBit 0x2000 = false)
    ∧ sk.clearAt 0x2000 8 ∧ ske.clearAt 0x2000 8 ∧ sk.plain 0x2000 8 ∧ ske.plain 0x2000 8 ∧ sk.memWf = true ∧ ske.memWf = true := by
  refine ⟨by decide +kernel, ?_, ?_, plain_of_empty rfl rfl, plain_of_empty rfl rfl, by decide, by decide⟩ <;>
  · simp only [State.clearAt]
    decide +kernel

/-- A context that waits at an empty word 0x2000 at its checkpoint, for access 0 and evaluation j; the park table at 0x9000 has a free slot at 0xA000. -/
def wt (j : Nat) (ph : FePhase) (rb pk : Word) : State :=
  { (fl { regs [0x1000, 0x2000, 3] with sr := { hlimit := 0x8000000000, ckbase := 0x8000, rbudget := rb, parkctl := pk }, wait := .fe 0 j ph, held := some (.ldw { d := 1, a := 2 }), rcd := 0x7000 } (.fe .ldw)).setFe 0x2000 false with
    mem := [(0x8000, 1), (0x9009, 0xA0)], regs := { bstat := 5, pkbase := 0x9000 } }

/-- A word 0x2000 with a record parked on it, in the slot 0xB000 of a table of one bucket. -/
def parkedOn (full : Bool) (s : State) : State :=
  { s with
    lineMeta := [(0x80, if full then 0x1FF else 0x1FE)], mem := [(0xA001, 0xB0), (0xB041, 0x20)], regs := { bstat := 5, pkbase := 0x9000 }
    parked := [{ slot := 0xB000, ent := { rcd := 0x7000 }, word := 0x2000, cluster := 0, ctxid := 0, leaf := 0 }] }

/-- An LDC, which empties the word, and a FESET, which leaves it full. -/
theorem witness_FormsOnAWordWithWaiters :
    let p : Piece := { va := 0x2000, place := .here, pa := 0x2000, n := 8 }
    let a (form : FeForm) : Access := { id := 0, slot := 0, kind := .fe form, pieces := [p] }
    let c (form : FeForm) : Ctx := { regs [] with wait := if (AccKind.fe form).waits then .fe 0 0 .evaluating else .none }
    (∀ form ∈ [FeForm.ldc, .feset], let s := parkedOn true (fl (c form) (.fe form)); s.still = false ∧ s.findPiece 0 0 0 = some (a form, p) ∧ s.evaluating 0 (a form) = true ∧ s.pieceReady 0 (a form) p = true ∧ s.feHeld form p.pa = false
      ∧ s.poisoned (a form) p = none ∧ s.feHolds form p.pa = true ∧ s.waitBit p.pa = true ∧ s.memWf = true ∧ s.tableApart p.pa ∧ s.waitersOf p.pa = s.parked ∧ s.parked ≠ [] ∧ s.poison = [] ∧ ∀ q ∈ s.waitersOf p.pa, s.resident = some q.ctxid)
    ∧ (∀ form ∈ [FeForm.ldc, .feset], (parkedOn true (fl (c form) (.fe form))).plain 0x2000 8) := by
  refine ⟨?_, fun _ _ => plain_of_empty rfl rfl⟩
  simp only [State.tableApart, apart]
  decide +kernel

/-- An evaluation below, at and at a forbidden budget; a back-off not at its end and at it; a park request; a woken record behind one of another word. -/
theorem witness_FailedEvaluationsBackOffAndPark :
    let a : Access := { id := 0, slot := 0, kind := .fe .ldw, pieces := [{ va := 0x2000, place := .here, pa := 0x2000, n := 8 }] }
    let p : Piece := { va := 0x2000, place := .here, pa := 0x2000, n := 8 }
    let q (w : Nat) : Parked := { slot := 0xA000, ent := { rcd := 0x7000, prio := 3 }, word := w, cluster := 0, ctxid := 0, leaf := 0 }
    let wk : State := { s0 with wakes := [q 0x2000, q 0x2008] }
    (∀ e ∈ [wt 0 .evaluating 2 1, wt 2 .evaluating 2 1, wt 2 .evaluating 2 0], e.still = false ∧ e.findPiece 0 0 0 = some (a, p) ∧ e.pieceReady 0 a p = true ∧ e.feHeld .ldw p.pa = false ∧ e.poisoned a p = none ∧ e.fe p.pa = (FeForm.ldw == .stf) ∧ (e.ctx 0).preempt = false ∧ (e.dctx (e.ctx 0).dc).aborting = false)
    ∧ (0 : Nat) < ((wt 0 .evaluating 2 1).ctx 0).budget ∧ ((wt 2 .evaluating 2 1).ctx 0).budget ≤ 2 ∧ ((wt 2 .evaluating 2 1).ctx 0).parkEnable = true ∧ ((wt 2 .evaluating 2 0).ctx 0).budget ≤ 2 ∧ ((wt 2 .evaluating 2 0).ctx 0).parkEnable = false
    ∧ (wt 0 (.backoff 1) 2 1).tick < 1 ∧ ((wt 0 (.backoff 1) 2 1).ctx 0).wait = .fe 0 0 (.backoff 1)
    ∧ (0 : Nat) ≤ (wt 0 (.backoff 0) 2 1).tick ∧ (let c := (wt 0 (.backoff 0) 2 1).ctx 0; (wt 0 (.backoff 0) 2 1).checkAccess 0 c.trans ((wt 0 (.backoff 0) 2 1).core 0).capSuspended FeForm.ldw.kind [{ off := 0, va := 0x2000, n := 8 }] = .ok [({ off := 0, va := 0x2000, n := 8 }, ph 0x2000)])
    ∧ (let s := wt 2 .parking 2 1; s.still = false ∧ s.checkpoint 0 (s.ctx 0) (s.ctx 0).pc = some 1 ∧ (s.dropAccess 0 0).leaveReady 0 (s.entryWords 0 (s.ctx 0) 1) = true ∧ s.findPiece 0 0 0 = some (a, p) ∧ s.poison = [] ∧ (s.ctx 0).ecc = none
      ∧ holds (s.saveContext 0 1) (fun s1 => holds (s1.wcntUp 0) (fun s2 => s2.feHolds .ldw 0x2000 == false && s2.rd (s2.parkBase + 8) 8 == 0xA000)) = true)
    ∧ wk.wakes[1]? = some (q 0x2008) ∧ ∀ x ∈ wk.wakes.take 1, x.word ≠ 0x2008 := by decide +kernel

/-- A change of the word's bit, for a waiter of the resident device context and of another; its page's count is 1. -/
theorem witness_FailedEvaluationsBackOffAndPark_wake :
    ∀ dc ∈ [0, 1], let q : Parked := { slot := 0xB000, ent := { rcd := 0x7000 }, word := 0x2000, cluster := 0, ctxid := dc, leaf := 0xC000 }
      let s : State := { parkedOn true s0 with mem := [(0xA001, 0xB0), (0xB041, 0x20), (0xC007, 1)], parked := [q] }
      s.memWf = true ∧ s.poison = [] ∧ s.waitBit 0x2000 = true ∧ s.fe 0x2000 ≠ false ∧ s.bucketAt 0x2000 = 0xA000 ∧ s.rd 0xA000 8 = q.slot ∧ s.rd (q.slot + 56) 8 = 0 ∧ s.rd (q.slot + 64) 8 = 0x2000 ∧ s.parked = [q]
      ∧ s.rd (q.leaf + 7) 1 = 1 ∧ s.rd (s.parkBase + 64 + 16 * q.ctxid) 8 = 0 ∧ (s.resident = some q.ctxid ↔ dc = 0)
      ∧ apart 0xA000 8 s.parkBase 4096 ∧ apart 0xA000 8 q.slot 128 ∧ apart 0xA000 8 q.leaf 8 ∧ apart s.parkBase 4096 q.slot 128 ∧ apart s.parkBase 4096 q.leaf 8 ∧ apart q.slot 128 q.leaf 8 := by
  simp only [apart]
  decide +kernel
/-- A fence with nothing in flight; an acquire behind a store, and fences that wait: a release behind a store, an acquire behind a GACC. -/
theorem witness_PrefetchAndFences :
    let o : Ops := { d := 1, a := 2 }
    let f := fl (regs []) .store
    s0.canIssue o (addrRegs o) ∧ s0.canIssue {} [] ∧ s0.releaseReady s0.coreNo (s0.cur % 8) = true ∧ s0.performedAll s0.coreNo (s0.cur % 8) = true ∧ s0.canIssue { mod := mc 32 } [] ∧ ordOf { mod := mc 32 } 6 = 2
    ∧ (f.canIssue { mod := mc 16 } [] ∧ ordOf { mod := mc 16 } 6 = 1 ∧ f.co.flight.length = 1 ∧ ∀ a ∈ f.co.flight, a.kind.reads = false)
    ∧ (∀ e ∈ [(AccKind.store, 32), (.gacc [], 16)], let g := fl (regs []) e.1; g.canIssue { mod := mc e.2 } [] ∧ g.co.flight.length = 1 ∧ ∀ a ∈ g.co.flight, a.slot = g.cur % 8 ∧ (ordOf { mod := mc e.2 } 6 ≠ 1 ∨ a.kind.reads = true))
    ∧ s0.canIssue { mod := mc 16 } [] ∧ fld (({ mod := mc 16 } : Ops).clsOr 48) 4 2 = 1 := by decide +kernel

/-- A device with one job, and context 0 waiting for it. -/
def jb (kind : JobKind) (ws : List Nat) (n stage : Nat) : State :=
  { one { regs [0x2000, 0x2008, 3, 4] with wait := .pst2 0, held := some (.pst2 { opnd := ob 2, d := 3, a := 1 }) } with jobs := [(0, { kind, words := ws, emptied := n, stage })], nextJob := 1 }

/-- PST2 to two words, given in either order, and to one word twice. -/
theorem witness_Pst2RunsItsJob :
    let o : Ops := { opnd := ob 2, d := 3, a := 1 }
    let s := one (regs [0x2000, 0x2008, 3, 4])
    let ws := [(0x2000, 3), (0x2008, 4)]
    (s.canIssue o [rg 1, rg 2, rg 3, rg 4] ∧ s.releaseReady s.coreNo (s.cur % 8) = true ∧ s.check .feRmw [{ off := 0, va := 0x2000, n := 8 }, { off := 8, va := 0x2008, n := 8 }] = .ok [({ off := 0, va := 0x2000, n := 8 }, ph 0x2000), ({ off := 8, va := 0x2008, n := 8 }, ph 0x2008)])
    ∧ (let e := jb (.pst2 0 0 ws) [0x2000, 0x2008] 0 0; e.still = false ∧ thas e.jobs 0 = true ∧ [0x2000, 0x2008][0]? = some 0x2000 ∧ e.fe 0x2000 = true ∧ e.heldByOther 0 0x2000 = false)
    ∧ (let e := jb (.pst2 0 0 ws) [0x2000, 0x2008] 2 0; e.memWf = true ∧ thas e.jobs 0 = true ∧ 0x2000 + 8 ≤ 0x2008 ∧ e.plain 0x2000 8 ∧ e.plain 0x2008 8)
    ∧ (let e := jb (.pst2 0 0 ws) [0x2000, 0x2008] 2 1; thas e.jobs 0 = true ∧ (e.ctx 0).held = some (.pst2 o)) := by
  repeat' apply And.intro
  all_goals first | decide +kernel | exact plain_of_empty rfl rfl

/-- The translation of a page of record blocks: blocks at 0x100000, headers at 0x200000; the block's registers and what it arms are at 0x4000 and 0x5000. -/
def rc (c : Ctx) : State :=
  { one c with
    cores := [(0, { utlb := [{ ctxid := 0, va := 0x9000000000, size := 0x1000, w0 := 0x100103, w1 := 0x200000, entry := 0 }] })]
    mem := [(0x200001, 0x40), (0x200009, 0x50)] }

def rp0 : Phys := leafPhys 0x100103 0x200000 0 0x9000000000 0x1000 15 0x9000000000

theorem witness_RecordInstructionsRun :
    let o : Ops := { opnd := ob 2, d := 1, a := 1 }
    let s := rc ((regs [0x9000000000, 2]).setV 2 0x3F800000)
    (s.recordBlock 0x9000000000 = .ok (rp0, 0x200000) ∧ s.canIssue o [rg 1, rv 2, rm 1] ∧ s.canIssue o [rg 1] ∧ s.releaseReady s.coreNo 0 = true ∧ s.canIssue o [rg 1, rv 1] ∧ s.canIssue o [rg 1, rg 2]
      ∧ s.blockBusy rp0.pa 512 = false ∧ s.memWf = true ∧ rp0.pa + 512 ≤ 0x200000
      ∧ s.rd 0x200000 8 % 2 = 0 ∧ s.rd 0x200008 8 % 2 = 0 ∧ s.rd 0x200010 4 % 2 = 0 ∧ s.rd 0x200014 4 % 2 = 0
      ∧ (s.spanBase (fld (s.rd 0x200000 8) 0 56) (s.rd 0x200010 4)).isSome = true ∧ (s.spanBase (fld (s.rd 0x200008 8) 0 56) (s.rd 0x200014 4)).isSome = true)
    ∧ s.clearAt rp0.pa 128 := by
  refine ⟨by decide +kernel, ?_⟩
  simp only [State.clearAt]
  decide +kernel

/-- A record access in flight to the block at 0x100000; the header's byte 30 is its armed flag. -/
def ra (kind : AccKind) (m : Mem) : State :=
  { one { regs [] with wait := .access 0, held := some (.garr { a := 1 }) } with
    cores := [(0, { flight := [{ id := 0, slot := 0, kind, hdr := 0x200000, pieces := [{ va := 0x9000000000, place := .here, pa := 0x100000, n := 512 }] }], nextId := 1 })], mem := m }

/-- A GACC of the lane 1.0 on the grid of exponent 0; an arrival on a block that is not armed, and the last one of an armed block of one worker. -/
theorem witness_RecordAccessesPerform :
    let p : Piece := { va := 0x9000000000, place := .here, pa := 0x100000, n := 512 }
    let ready (s : State) (kind : AccKind) : Prop := s.still = false ∧ s.memWf = true ∧ s.findPiece 0 0 0 = some ({ id := 0, slot := 0, kind, hdr := 0x200000, pieces := [p] }, p) ∧ s.pieceReady 0 { id := 0, slot := 0, kind, hdr := 0x200000, pieces := [p] } p = true ∧ s.poisoned { id := 0, slot := 0, kind, hdr := 0x200000, pieces := [p] } p = none ∧ p.pa % 512 = 0
    let g := ra (.gacc [some 0x3F800000, none]) []
    let armed := ra .garr [(0x20001A, 1), (0x20001E, 1)]
    (Fmt.f32.decode 0x3F800000 = .fin false 0x800000 (-23) ∧ (0 : Int) - 96 ≤ -23 ∧ 0x800000 * 2 ^ (-23 + 96 - 0 : Int).toNat < 2 ^ 111)
    ∧ ready g (.gacc [some 0x3F800000, none]) ∧ g.hdrGet 0x200000 294 16 < 65535
    ∧ ready (ra .garr []) .garr ∧ (ra .garr []).hdrGet 0x200000 240 1 = 0
    ∧ ready armed .garr ∧ armed.hdrGet 0x200000 240 1 = 1 ∧ (armed.ctx 0).held = some (.garr { a := 1 }) ∧ (armed.hdrGet 0x200000 192 16 + 1) % 65536 = armed.hdrGet 0x200000 208 16 := by decide +kernel

/-- With a commit of the block at pa in progress. -/
def busyAt (pa : Nat) (s : State) : State := { s with jobs := [(0, { kind := .commit pa 0x300000, words := [] })], nextJob := 1 }

theorem witness_CommitStepsRun :
    let s (stage : Nat) : State := jb (.commit 0x100000 0x200000) [0x4000] 1 stage
    ∀ stage ∈ [0, 1, 2], (s stage).still = false ∧ (s stage).memWf = true ∧ thas (s stage).jobs 0 = true ∧ (tget (s stage).jobs 0 { kind := .commit 0 0, words := [] }).kind = .commit 0x100000 0x200000
      ∧ (tget (s stage).jobs 0 { kind := .commit 0 0, words := [] }).stage = stage ∧ (tget (s stage).jobs 0 { kind := .commit 0 0, words := [] }).emptied = 1 ∧ 0x100000 + 512 ≤ 0x200000 ∧ (s stage).late = []
      ∧ (let l : State := { s stage with late := [(0x100000, 8, 5)] }; l.memWf = true ∧ thas l.jobs 0 = true ∧ l.late = [(0x100000, 8, 5)]) := by decide +kernel

/-- g2 points to raw words and g4 to FP elements of a format that converts, in blocks of 16; g1 is a stride of 4; V3 holds offsets. -/
def cv : Ctx := ((regs [4, 0x2000, 0, 0x2100000000002000]).setV 2 0x3F800000).setV 3 0x400000000

def vv : State := one cv

/-- With its VLD's access complete. -/
def vw : State :=
  { one { cv with wait := .access 0, held := some (.vld { d := 2, a := 4 }) } with
    cores := [(0, { flight := [{ id := 0, slot := 0, kind := .load, dest := .conv 2 1 4 1 0xFFFFFFFF true, pieces := [{ va := 0x2000, place := .here, pa := 0x2000, n := 32, done := true }] }], nextId := 1 })] }

/-- The same in E5M2 with the flag INV enabled, its first byte a signalling NaN. -/
def vt : State :=
  { vw with
    ctxs := [(0, { (regs [4, 0x2000, 0, 0x2900000000002000]) with wait := .access 0, held := some (.vld { d := 2, a := 4 }), sr := { hlimit := 0x8000000000, xenable := 1 } })]
    cores := [(0, { flight := [{ id := 0, slot := 0, kind := .load, dest := .conv 2 1 5 1 0xFFFFFFFF true, pieces := [{ va := 0x2000, place := .here, pa := 0x2000, n := 32, done := true, data := 0x7D }] }], nextId := 1 })] }

/-- Raw and converting accesses, a completed converting load, stride and gather, and no active unit. -/
theorem witness_VectorMemoryAccesses :
    let raw : Ops := { d := 2, a := 2 }
    let conv : Ops := { d := 2, a := 4 }
    let str : Ops := { opnd := ob 1, d := 2, a := 2 }
    let gth : Ops := { opnd := ob 3, d := 2, a := 2 }
    let off : Ops := { raw with mod := some { sense := true, pred := 0, cls := 0 } }
    let ok {α ε : Type} (x : Except ε α) : Bool := holds x (fun _ => true)
    (vv.canIssueV raw 1 (grp rv 2 1 ++ addrRegs raw) ∧ noUnit cv raw = false ∧ (vaddr raw cv).trap 1 1 = none ∧ (vaddr raw cv).trap 1 2 = none ∧ converts (vaddr raw cv).fmt (vaddr raw cv).c = false
      ∧ ok (vv.check (.vload true) ((vaddr raw cv).parts cv raw 1)) = true ∧ ok (vv.check (.vstore true) ((vaddr raw cv).parts cv raw 1)) = true)
    ∧ (vv.canIssueV conv 1 (grp rv 2 1 ++ addrRegs conv) ∧ (vaddr conv cv).trap 1 1 = none ∧ (vaddr conv cv).trap 1 2 = none ∧ converts (vaddr conv cv).fmt (vaddr conv cv).c = true
      ∧ ok (vv.check (.vload false) ((vaddr conv cv).parts cv conv 1)) = true ∧ ok (vv.check (.vstore false) ((vaddr conv cv).parts cv conv 1)) = true)
    ∧ (let e := { vv with ctxs := [(0, { cv with sr := { cv.sr with xenable := 4 } })] }
      e.canIssueV conv 1 (grp rv 2 1 ++ addrRegs conv) ∧ noUnit e.cx conv = false ∧ (vaddr conv e.cx).trap 1 1 = none ∧ converts (vaddr conv e.cx).fmt (vaddr conv e.cx).c = true ∧ e.cx.sr.xenable.getLsbD 2 = true ∧ ok (e.check (.vload false) ((vaddr conv e.cx).parts e.cx conv 1)) = true)
    ∧ (vt.cx.occ = true ∧ vt.cx.wait = .access 0 ∧ (vt.waited.map (fun a => (a.complete, vt.cx.traps (convLanes (unitOn vt.cx conv) 5 (vaddr conv vt.cx).c 1 (a.bytes 0) 0).2))) = some (true, true) ∧ (vaddr conv vt.cx).fmt = 5 ∧ groupSize conv = 1)
    ∧ (vw.cx.occ = true ∧ vw.cx.wait = .access 0 ∧ (vw.waited.map (fun a => a.complete)) = some true ∧ vw.cx.sr.xenable = 0)
    ∧ (vv.canIssueV str 1 (grp rv 2 1 ++ [rg 2, rg 1]) ∧ fld (cv.getG 2).toNat 56 8 = 0 ∧ (∀ k ∈ [Kind.vload true, .vstore true], ok (vv.check k (elemParts cv str 0x2000 4 (fun k => (k : Int) * (cv.getG 1).toInt))) = true))
    ∧ (vv.canIssueV gth 1 (grp rv 2 1 ++ [rg 2, rv 3]) ∧ (∀ k ∈ [Kind.vload true, .vstore true], ok (vv.check k (elemParts cv gth 0x2000 4 (fun k => sgn (lane (cv.getV 3).toNat 32 k) 32))) = true))
    ∧ vv.canIssueV off 1 (grp rv 2 1 ++ addrRegs off) ∧ noUnit cv off = true ∧ ordOf off 6 = 0 := by decide +kernel

/-- The last vector of L-memory; an owned tile slot and one that is not; an accumulator in FP32 and whole. -/
theorem witness_LocalVectorMoves :
    let o : Ops := { d := 2, a := 1 }
    let t : Ops := { opnd := ob 3, d := 2 }
    let pair : Ops := { opnd := some { b := 1, dh := false, ah := false, bh := false, width := 1 }, d := 2 }
    let s : State := { one (regs [0x17F80]) with cores := [(0, { slots := [(3, .ctx 0)] })] }
    s.canIssueV o 1 (grp rv 2 1 ++ addrRegs o) ∧ effLocal o s.cx = 0x17F80 ∧ (0x17F80 : Int) + 128 ≤ 0x18000 ∧ unitsBusy s.cx s.co o 2 0x17F80 1 = false ∧ s.co.kept = []
    ∧ s.canIssueV t 1 (grp rv 2 1) ∧ s.co.own (tileAt t).1 = .ctx (s.cur % 8) ∧ unitsBusy s.cx s.co t (slotRange 3).1 (slotRange 3).2 1 = false ∧ s.co.slotInUse 3 = false
    ∧ s0.canIssueV t 1 (grp rv 2 1) ∧ s0.co.own (tileAt t).1 ≠ .ctx (s0.cur % 8) ∧ groupSize t = 1 ∧ accBusy s t.bNum = false ∧ groupSize pair = 2 ∧ s.canIssueV pair 1 (grp rv 2 2) ∧ accBusy s pair.bNum = false
    ∧ Mem.wf s.co.lmem = true := by decide +kernel

/-- Vector registers, and g1 = 5. -/
def sl : State := one ((((regs [5]).setV 2 0x3F800000).setV 3 0x40000000).setV 4 0x7F7F)

/-- A state with one token in the row of its core. -/
def tok (s : State) : State := { s with rows := [(0, { balance := 1 })] }

/-- The flag INV enabled and ∞ − ∞ in lane 0. -/
def slTrap : State := one { ((regs []).setV 2 0x7F800000).setV 3 0xFF800000 with sr := { hlimit := 0x8000000000, xenable := 1 } }

/-- The Ops of an instruction under a false mask. -/
def offOps (o : Ops) : Ops := { o with mod := some { sense := true, pred := 0, cls := 0 } }

theorem witness_LaneMovement :
    let o : Ops := { opnd := ob 4, d := 2, a := 3 }
    (sl.canIssueV { d := 2, a := 3 } 1 (grp rv 2 1 ++ grp rv 3 1) ∧ groupSize { d := 2, a := 3 } = 1)
    ∧ (∀ n, n < 4 → ({ opnd := ob 1, d := 2, a := BitVec.ofNat 5 n } : Ops).imm = n) ∧ sl.canIssueV { opnd := ob 1, d := 2, a := 3 } 1 [rv 2, rg 1]
    ∧ sl.canIssueV o 1 [rg 2, rv 4] ∧ sl.canIssueV o 1 [rv 2, rg 4] ∧ (let i : Ops := { imms := [15], opnd := ob 4, d := 2, a := 31 }; i.imm = 511 ∧ 8 * 2 ^ fld 256 7 2 * (fld 256 0 7 + 1) ≤ 1024)
    ∧ sl.canIssueV o 1 [rv 2, rv 3, rv 4] ∧ sl.canIssueV o 1 [rv 2, rv 3] ∧ sl.canIssueV o 1 [rm 2, rm 4] ∧ sl.canIssueV o 1 [rg 2, rm 3]
    ∧ (let z : Ops := { opnd := ob 4, d := 2 }; z.imm = 0 ∧ sl.canIssueV z 1 [rg 2, rm 4]) ∧ (o.imm ≠ 0 ∧ sl.canIssueV o 1 [rm 2, rg 4]) := by decide +kernel
/-- No token; flags that trap and flags that do not. -/
theorem witness_FloatLanes :
    let o : Ops := { opnd := ob 3, d := 4, a := 2 }
    let fl (s : State) : Nat := laneFlags s.cx o (vfLanes o) (fun k => (fAdd (vfFmt o) (vfMode o) (fLane (vfFmt o) s.cx (xyNum o).1 k) (fLane (vfFmt o) s.cx (xyNum o).2 k)).2)
    let fd (s : State) : Nat := laneFlags s.cx o 1 (fun k => (fDiv (vfFmt o) (vfMode o) (fLane (vfFmt o) s.cx (xyNum o).1 k) (fLane (vfFmt o) s.cx (xyNum o).2 k)).2)
    ((∃ r g, ((.vfadd : Ops → Instr), r, g) ∈ floatTable) ∧ ∃ r g, ((.vfdiv : Ops → Instr), r, g) ∈ lateTable)
    ∧ sl.canIssueV o (vfMaskRegs o) (vxyRegs o 1) ∧ (sl.row (sl.coreNo / 8)).balance = 0
    ∧ (∀ s ∈ [tok slTrap, tok sl], s.canIssueV o (vfMaskRegs o) (vxyRegs o 1) ∧ 1 ≤ (s.row (s.coreNo / 8)).balance ∧ s.co.results = [] ∧ s.still = false)
    ∧ (tok slTrap).cx.traps (fl (tok slTrap)) = true ∧ (tok slTrap).cx.traps (fd (tok slTrap)) = true ∧ (tok sl).cx.traps (fl (tok sl)) = false ∧ (tok sl).cx.traps (fd (tok sl)) = false :=
  ⟨⟨⟨_, _, List.mem_cons_self ..⟩, ⟨_, _, List.mem_cons_self ..⟩⟩, by decide +kernel⟩
/-- 32-bit lanes, and pairs of 64-bit lanes at the end of the file; a saturated sum that traps. -/
theorem witness_IntegerLanes :
    let o : Ops := { opnd := ob 3, d := 2, a := 2 }
    let pair : Ops := { opnd := ob 30, mod := mc 3, d := 30, a := 28 }
    let sat : Ops := { opnd := ob 3, mod := mc 34, d := 2, a := 2 }
    let s := one { ((regs []).setV 2 0x7FFFFFFF).setV 3 1 with sr := { hlimit := 0x8000000000, xenable := 0x3F } }
    viRegs o = 1 ∧ o.dNum + viRegs o ≤ 64 ∧ viRegs pair = 2 ∧ pair.dNum + viRegs pair ≤ 64 ∧ sl.canIssueV o (viMaskRegs o) (vxyRegs o (viRegs o)) ∧ sl.canIssueV pair (viMaskRegs pair) (vxyRegs pair (viRegs pair))
    ∧ sl.canIssueV o (viMaskRegs o) (grp rv o.dNum (viRegs o) ++ grp rv o.aNum (viRegs o)) ∧ sl.canIssueV o (viMaskRegs o) (grp rv o.dNum (viRegs o) ++ [rg o.aNum, rg o.bNum])
    ∧ (∃ g, ((.vadd : Ops → Instr), g) ∈ intTable)
    ∧ (viSat sat = true ∧ viSigned sat = true ∧ viBits sat = 32 ∧ s.canIssueV sat (viMaskRegs sat) (vxyRegs sat (viRegs sat))
      ∧ s.cx.traps (laneFlags s.cx sat (viLanes sat) (fun k => if (clamped (viSat sat) (viSigned sat) 32 (iVal sat s.cx (xyNum sat).1 k + iVal sat s.cx (xyNum sat).2 k)).2 then SAT else 0)) = true) := by
  repeat' apply And.intro
  all_goals first | decide +kernel | exact ⟨_, List.mem_cons_self ..⟩
/-- 8-bit lanes, which fill four mask registers up to the last; a comparison of FP32 that traps on a signalling NaN and one that does not. -/
theorem witness_ComparesAndSelect :
    let o : Ops := { opnd := ob 3, mod := mc 2, d := 4, a := 2 }
    let f : Ops := { opnd := ob 3, d := 7, a := 2 }
    let s := tok (one { ((regs []).setV 2 0x7F800001).setV 3 0 with sr := { hlimit := 0x8000000000, xenable := 1 } })
    let fl (s : State) : Nat := laneFlags s.cx f 32 (fun k => (fCond (16 + fld (f.clsOr 0) 0 4) (fLane .f32 s.cx f.aNum k) (fLane .f32 s.cx f.bNum k)).2)
    (fld (o.clsOr 0) 0 2 = 2 ∧ sl.canIssueV o 4 (maskGroup o 128 ++ grp rv 2 1 ++ grp rv 3 1) ∧ 0 < o.dNum ∧ o.dNum + 4 ≤ 8)
    ∧ (Fmt.ofTy (fld (f.clsOr 0) 4 2) = .f32 ∧ sl.canIssueV f 1 (maskGroup f 32 ++ [rv 2, rv 3]) ∧ 0 < f.dNum ∧ f.dNum + 1 ≤ 8 ∧ (tok sl).cx.traps (fl sl) = false ∧ (tok sl).canIssueV f 1 (maskGroup f 32 ++ [rv 2, rv 3]) ∧ 1 ≤ ((tok sl).row ((tok sl).coreNo / 8)).balance)
    ∧ s.canIssueV f 1 (maskGroup f 32 ++ [rv 2, rv 3]) ∧ 1 ≤ (s.row (s.coreNo / 8)).balance ∧ s.cx.traps (fl s) = true
    ∧ sl.canIssueV f (viMaskRegs f) (grp rv f.dNum (viRegs f) ++ grp rv f.aNum (viRegs f) ++ grp rv f.bNum (viRegs f)) ∧ f.dNum + viRegs f ≤ 64 := by decide +kernel
/-- A context with every flag enabled and V2 and V3 given. -/
def allOn (x y : Nat) : State := one { ((regs [5]).setV 2 (BitVec.ofNat 1024 x)).setV 3 (BitVec.ofNat 1024 y) with sr := { hlimit := 0x8000000000, xenable := 0x3F } }

/-- The greatest lane 1.0 of V2 is lane 0, since the others hold 0; a signalling NaN in lane 0; no active lane; a clamp in VRED.sat and in VDOT4.sat; flags that are enabled and not. -/
theorem witness_ReductionsAndDots :
    let sl := tok sl
    let o : Ops := { opnd := ob 3, d := 1, a := 2 }
    let sat : Ops := { o with mod := mc 34 }
    let off := offOps { d := 1, a := 2 }
    let nan := tok (allOn 0x7F800001 0)
    let red (x : Nat) : Nat := (treeSum (fun x y => let r := clamped true true 32 (sgn x 32 + sgn y 32); (r.1, if r.2 then SAT else 0)) 5 (x :: x :: List.replicate 30 0)).2
    1 ≤ (sl.row (sl.coreNo / 8)).balance
    ∧ (sl.canIssueV o (viMaskRegs o) (rg o.dNum :: grp rv o.aNum (viRegs o)) ∧ viSat o = false ∧ viSat sat = true ∧ viSigned sat = true ∧ sl.canIssueV sat (viMaskRegs sat) (rg o.dNum :: grp rv o.aNum (viRegs sat)) ∧ sl.canIssueV o (vfMaskRegs o) [rg 1, rv 2])
    ∧ (let s := allOn (0x7FFFFFFF * (1 + 2 ^ 32)) 0; viLanes sat = 32 ∧ s.canIssueV sat (viMaskRegs sat) (rg o.dNum :: grp rv o.aNum (viRegs sat)) ∧ iLane sat s.cx 2 0 = 0x7FFFFFFF ∧ iLane sat s.cx 2 1 = 0x7FFFFFFF ∧ s.cx.traps (red 0x7FFFFFFF) = true ∧ sl.cx.traps (red 0x7FFFFFFF) = false)
    ∧ (sl.canIssueV off (vfMaskRegs off) [rg 1, rv 2] ∧ ∀ k, k < vfLanes off → laneOn sl.cx off k = false)
    ∧ (vfLanes o = 32 ∧ laneOn sl.cx o 0 = true ∧ (∀ j, j < 32 → (fLane (vfFmt o) sl.cx o.aNum j).isNan = false) ∧ (∀ j, j < 32 → (fLane (vfFmt o) sl.cx o.aNum 0).lt (fLane (vfFmt o) sl.cx o.aNum j) = false))
    ∧ (1 ≤ (nan.row (nan.coreNo / 8)).balance ∧ nan.canIssueV o (vfMaskRegs o) [rg 1, rv 2] ∧ laneOn nan.cx o 0 = true ∧ (fLane (vfFmt o) nan.cx o.aNum 0).isNan = true ∧ nan.cx.traps (laneFlags nan.cx o 32 (fun j => if signals (fLane (vfFmt o) nan.cx o.aNum j) then NV else 0)) = true
      ∧ nan.cx.traps (laneFlags nan.cx o 32 (fun k => (if laneOn nan.cx o k then convert .f32 RNE 0 false (fLane (vfFmt o) nan.cx o.aNum k) else (2 ^ 31, 0)).2)) = true)
    ∧ sl.canIssueV o 1 [rv 1, rv 2, rv 3] ∧ (∀ n, sl.cx.traps n = false ↔ n &&& 0 = 0) := by
  repeat' apply And.intro
  all_goals first | decide +kernel | (intro n; simp [Ctx.traps, show (tok sl).cx.sr.xenable.toNat = 0 by decide +kernel])
theorem witness_LaneConversions :
    let o : Ops := { opnd := ob 3, mod := mc 1, d := 8, a := 4 }
    let p (n : Nat) : Ops := { opnd := ob 4, d := 8, a := BitVec.ofNat 5 n }
    sl.cx.sr.xenable = 0 ∧ (let s := allOn (2 ^ 24 + 1) 0; let i : Ops := { d := 8, a := 2 }
      s.canIssueV i 1 [rv 8, rv 2] ∧ s.cx.traps (laneFlags s.cx i 32 (fun k => (convert .f32 (vfMode i) 0 false (Num.ofInt (sgn (lane (s.cx.getV i.aNum).toNat 32 k) 32))).2)) = true)
    ∧ sl.canIssueV o (vfMaskRegs o) (rv o.dNum :: grp rv o.aNum (wideRegs o)) ∧ sl.canIssueV o (vfMaskRegs o) (rv o.aNum :: grp rv o.dNum (wideRegs o)) ∧ o.dNum + wideRegs o ≤ 64
    ∧ sl.canIssueV o 1 [rv 8, rv (if o.hasImm then o.bNum else o.aNum)]
    ∧ (∀ n, n < 4 → (p n).imm = n ∧ ∀ w ∈ [8, 16], sl.canIssueV (p n) (32 / w) (rv (p n).dNum :: grp rv (p n).bNum (32 / w)))
    ∧ sl.canIssueV o 4 (rv o.dNum :: rg o.bNum :: grp rv o.aNum 4) := by decide +kernel
theorem witness_BlockConversions :
    let o : Ops := { opnd := ob 3, d := 1, a := 2 }
    let off := offOps o
    sl.cx.sr.xenable = 0 ∧ (let s := allOn 0x7F800001 0; s.canIssueV o 1 [rg 1, rv 2] ∧ s.cx.traps (if (((List.range 32).filter (laneOn s.cx o)).map (fLane .f32 s.cx o.aNum)).any signals then NV else 0) = true)
    ∧ sl.canIssueV o 1 [rv 1, rv 2, rg 3] ∧ sl.canIssueV o 1 [rv 1, rv 2] ∧ sl.canIssueV o 1 [rg 1, rv 2] ∧ sl.canIssueV o 1 [rv 1, rv 2, rv 3]
    ∧ (∀ k, k < 32 → laneOn sl.cx off k = false) ∧ sl.canIssueV off 1 [rv 1, rv 2, rv 3] ∧ laneOn sl.cx o 0 = true := by decide +kernel

/-- A claimed run: A slot 0 and W slot 0; accumulator 0 bound to slot 5; `mctl` of one slice each, FP8, for M = m and N = n. -/
def mx (m n : Nat) : Ctx :=
  { regs [0x1000, 0x2000, 3] with tc := (Vector.replicate 32 none).set 0 (some 5), sr := { hlimit := 0x8000000000, mctl := BitVec.ofNat 128 (n + 64 * m + 1 * 2 ^ 32 + 4 * 2 ^ 39) } }

def mcore : Core := { slots := [(0, .ctx 0), (32, .ctx 0)], accs := [(5, { own := .ctx 0 })] }

def sx (m n : Nat) : State := { one (mx m n) with cores := [(0, mcore)], rows := [(0, { balance := 256 })] }

/-- Runs at the ends of the buffers; a slot of another context; an owned and a bound slot to free; the last block of S-memory; an accepted `mctl` and one with format 0. -/
theorem witness_MatrixClaimsAndConfiguration :
    let a : Ops := { d := 31 }
    let other : State := { s0 with cores := [(0, { slots := [(31, .ctx 3)] })] }
    let acc : Ops := { mod := mc 2, d := 0 }
    let sc : Ops := { imms := [15], d := 1, a := 31 }
    let rt (h : Instr) (r : Nat) (cc : Ctx) : State := one { cc with wait := .retry 0 r, held := some h }
    (s0.canIssue a [] ∧ runOf a ≠ [] ∧ (∀ n ∈ runOf a, (s0.co.own n = .free ∨ s0.co.own n = .ctx (s0.cur % 8)) ∧ s0.co.slotBusy n = false ∧ s0.co.slotInUse n = false) ∧ fld (a.clsOr 0) 0 2 ≠ 2)
    ∧ (other.canIssue a [] ∧ ∃ n ∈ runOf a, ¬(other.co.own n = .free ∨ other.co.own n = .ctx (other.cur % 8)))
    ∧ ((sx 1 1).canIssue acc [] ∧ fld (acc.clsOr 0) 0 2 = 2 ∧ acc.aNum = 0 ∧ acc.dNum < 32 ∧ vget (sx 1 1).cx.tc acc.dNum none = some 5 ∧ (sx 1 1).co.mat = [])
    ∧ (s0.canIssue sc [rg 1] ∧ (s0.cx.getG 1).toNat % 16 = 0 ∧ (s0.cx.getG 1).toNat + 256 ≤ 0x18000 ∧ s0.co.busy 2 0x1000 0x1100 = false ∧ s0.co.smemInUse sc.imm.toNat = false ∧ Mem.wf s0.co.smem = true)
    ∧ (let o : Ops := { opnd := some { b := 0, dh := false, ah := false, bh := false, width := 1 }, a := 2 }; bit0Of o 0 = false ∧ s0.canIssue o [rg 2, rg 3] ∧ mctlBad 0 ((s0.cx.getG 2).toNat + 2 ^ 64 * (s0.cx.getG 3).toNat) = true
      ∧ mctlBad 0 (1 + 64 + 2 ^ 32 + 4 * 2 ^ 39) = false)
    ∧ (let o : Ops := { mod := mc 1, a := 2 }; bit0Of o 0 = true ∧ s0.canIssue o [rg 2])
    ∧ (let s := rt (.tclaim a) 0 (regs []); s.still = false ∧ (s.ctx 0).occ = true ∧ 0 ≤ s.tick ∧ (s.ctx 0).held = some (.tclaim a) ∧ ∀ n ∈ runOf a, ((s.core 0).own n = .free ∨ (s.core 0).own n = .ctx 0) ∧ (s.core 0).slotBusy n = false)
    ∧ (let s := rt (.tzero a) 0 (regs []); a.dNum < 32 ∧ (s.ctx 0).held = some (.tzero a) ∧ vget (s.ctx 0).tc a.dNum none = none ∧ (s.core 0).freeAccs.head? = some 0) := by decide +kernel

/-- The slice of core 0 with one operation. -/
def sm1 (running : Bool) : State := { sx 1 1 with cores := [(0, { mcore with mat := [{ matOp 1 {} 0 0 0 (mx 1 1) 0 with tc := 5, running }] })] }

/-- Cores 0 and 1 of a gang of the mask 3, both at the join. -/
def gm (till : Nat) (met : Bool := false) : State :=
  let c : Ctx := { mx 1 1 with sr := { (mx 1 1).sr with mctl := BitVec.ofNat 128 (1 + 64 + 2 ^ 32 + 4 * 2 ^ 39 + 3 * 2 ^ 56) }, wait := .gang till met, held := some (.mma { mod := mc 2 }) }
  { one c with ctxs := [(0, c), (8, c)], cores := [(0, mcore), (1, mcore)], rows := [(0, { balance := 256 })] }

/-- The slice of core 0 with a running MSAMP of `b` draws on one chain of one operand, of the norms given; `hi` is or-ed into its `mctl`. -/
def mo2 (b hi : Nat) (na nb : List Nat) : MatOp :=
  { matOp 2 {} 0 0 b (mx 1 1) 0 with tc := 5, running := true, mctl := BitVec.ofNat 128 ((mx 1 1).sr.mctl.toNat ||| hi), na, nb }
def sm2 (b hi : Nat) (na nb : List Nat) : State := { sx 1 1 with cores := [(0, { mcore with mat := [mo2 b hi na nb] })] }

/-- R205: the last member to come, with a budget of 0, meets the other at the join, and neither wait ends at its budget. -/
theorem test_gang_budget_zero :
    let s := gm 9
    let t := after (.mma { mod := mc 2 }) { s with cur := 8, ctxs := [(0, s.ctx 0), (8, { s.ctx 8 with wait := .none, held := none, sr := { (s.ctx 8).sr with rbudget := 0 } })] }
    ((t.ctx 0).wait, (t.ctx 8).wait) = (.gang 9 true, .gang t.tick true) := by decide +kernel

/-- Two cores of a gang whose held instruction is an MSAMP. -/
def gs2 : State := { gm 9 with ctxs := (gm 9).ctxs.map (fun e => (e.1, { e.2 with held := some (.msamp { imms := [0], opnd := ob 0, mod := mc 2, a := 1 }) })) }

/-- Numbers: 1.5, −0 and 2; a NaN second; ∞ · 0. Running totals 3, 3 and 5. No rows, and one row and one column for each operation; with a counter and without; a held and a running operation;
an MSAMP of weights that are 0, of one that is no number, of no more weights than draws, and of more, below a limit on its bound and past it; a gang that joins, dense and sampled, and a member whose wait has ended or not. -/
theorem witness_MatrixProducts :
    let o : Ops := { opnd := ob 0 }
    let key := gangKey (matOp 1 { mod := mc 2 } 0 0 0 ((gm 9).ctx 0) 0)
    let ms := [(0, 0, matOp 1 { mod := mc 2 } 0 0 0 ((gm 9).ctx 0) 0), (8, 0, matOp 1 { mod := mc 2 } 0 0 0 ((gm 9).ctx 8) 1)]
    let q (m : MatOp) : List Nat := (weights m).map (quantised (largest (weights m)))
    let nz (m : MatOp) : Nat := ((q m).filter (· != 0)).length
    let ones := List.replicate 8 0x3F800000
    ([Num.fin false 3 (-1), .fin true 0 0, .fin false 1 1].all isFin = true ∧ ([Num.fin false 1 0, .nan false 1 false] = [.fin false 1 0] ++ .nan false 1 false :: []) ∧ (exactMul (.inf false) (.fin false 0 0)).2 = NV ∧ 4 < [3, 0, 2].sum)
    ∧ (let z := sm2 1 0 (List.replicate 8 0) ones; z.still = false ∧ (z.core 0).mat = [mo2 1 0 (List.replicate 8 0) ones] ∧ (∀ w ∈ weights (mo2 1 0 (List.replicate 8 0) ones), w = 0) ∧ 256 ≤ (z.row 0).balance)
    ∧ (∃ w ∈ weights (mo2 1 0 (0x7F800000 :: ones) ones), isFin (Fmt.f32.decode w) = false)
    ∧ (∀ m ∈ [mo2 8 0 ones ones, mo2 7 0 ones ones, mo2 1 (2 ^ 52) ones ones], m.b < 256 ∧ m.seed < 2 ^ 32 ∧ m.stale ≤ 256 ∧ (q m).sum < 2 ^ 32 ∧ mLen m.mctl ≠ 0 ∧ (∀ w ∈ weights m, isFin (Fmt.f32.decode w) = true) ∧ ∃ w ∈ weights m, w ≠ 0)
    ∧ (nz (mo2 8 0 ones ones) ≤ 8 ∧ 7 < nz (mo2 7 0 ones ones) ∧ mf (mo2 7 0 ones ones).mctl 52 4 = 0 ∧ 1 < nz (mo2 1 (2 ^ 52) ones ones)
      ∧ (sampled mcore mcore (mo2 1 (2 ^ 52) ones ones) (q (mo2 1 (2 ^ 52) ones ones))).exceeds = true)
    ∧ (let ms := (List.range 2).map (fun c => (gangMember gs2 c).getD (0, 0, matOp 1 {} 0 0 0 {} 0)); (bitsOf (3 : BitVec 8).toNat 8).map (fun j => gangMember gs2 (8 * 0 + j)) = ms.map some
      ∧ ∀ e ∈ ms, e.2.2.op = 2 ∧ mGang e.2.2.mctl = 3 ∧ some (gangKey e.2.2) = ms.head?.map (fun d => gangKey d.2.2) ∧ (gs2.core (e.1 / 8)).mat = [] ∧ (gs2.core (e.1 / 8)).operandsBusy e.2.2 = false ∧ (vget (gs2.ctx e.1).tc e.2.1 none).isSome = true)
    ∧ (∀ s ∈ [sx 0 1, sx 1 1], s.canIssue o [] ∧ productBad 1 false s.cx.sr.mctl 0 0 = false ∧ productBad 2 false s.cx.sr.mctl 0 0 = false ∧ productBad 3 false s.cx.sr.mctl 0 0 = false ∧ productBad 4 false s.cx.sr.mctl 0 0 = false
      ∧ bitOf (o.clsOr 0) 1 = false ∧ (∀ k, k < mLen s.cx.sr.mctl → s.co.own (0 + k) = .ctx (s.cur % 8) ∧ s.co.own (32 + 0 + k) = .ctx (s.cur % 8)))
    ∧ (mM (mx 0 1).sr.mctl = 0 ∧ bitOf (mx 0 1).sr.mctl.toNat 31 = false ∧ bitOf (2 ^ 31 + (mx 0 1).sr.mctl.toNat) 31 = true ∧ mM (BitVec.ofNat 128 (2 ^ 31 + (mx 0 1).sr.mctl.toNat)) = 0) ∧ (mM (mx 1 1).sr.mctl ≠ 0 ∧ mN (mx 1 1).sr.mctl ≠ 0 ∧ o.dNum < 32 ∧ vget (sx 1 1).cx.tc o.dNum none = some 5 ∧ (sx 1 1).co.mat.length < 4 ∧ min (productCost 1 0 (mx 1 1).sr.mctl) 256 ≤ ((sx 1 1).row 0).balance)
    ∧ (∀ r ∈ [false, true], (sm1 r).still = false ∧ ((sm1 r).core 0).mat.map (fun m => (m.running, m.gang, m.op, bitOf m.mctl.toNat 31, (sm1 r).co.awaits m)) = [(r, false, 1, false, false)])
    ∧ ((gm 9).still = false ∧ ms ≠ [] ∧ (bitsOf (3 : BitVec 8).toNat 8).map (fun j => gangMember (gm 9) (8 * 0 + j)) = ms.map some
      ∧ (∀ e ∈ ms, mGang e.2.2.mctl = 3 ∧ gangKey e.2.2 = key ∧ e.2.2.op ≠ 2 ∧ ((gm 9).core (e.1 / 8)).mat = [] ∧ ((gm 9).core (e.1 / 8)).operandsBusy e.2.2 = false ∧ (vget ((gm 9).ctx e.1).tc e.2.1 none).isSome = true ∧ ((gm 9).ctx e.1).wait = .gang 9 false) ∧ (gm 9).tick < 9 ∧ 256 ≤ ((gm 9).row 0).balance
      ∧ (ms.map (fun e => e.2.2.ta)).headD 0 + mLen ((ms.map (fun e => e.2.2.mctl)).headD 0) ≤ 32)
    ∧ (∀ met ∈ [false, true], (gm 0 met).still = false ∧ ((gm 0 met).ctx 0).wait = .gang 0 met ∧ (gangOp (gm 0 met) 0).isSome = true ∧ 0 ≤ (gm 0 met).tick)
    ∧ (let g : State := { gm 9 with ctxs := [(0, { (gm 9).ctx 0 with wait := .none, held := none })] }
      let m := g.cx.sr.mctl
      g.canIssue { mod := mc 2 } [] ∧ bitOf (({ mod := mc 2 } : Ops).clsOr 0) 1 = true ∧ productBad 1 true m 0 0 = false ∧ (bitsOf (mGang m) 8).head? = some (g.coreNo % 8) ∧ mM m ≠ 0 ∧ mN m ≠ 0
      ∧ (∀ k, k < mLen m → g.co.own (0 + k) = .ctx (g.cur % 8) ∧ g.co.own (32 + 0 + k) = .ctx (g.cur % 8)) ∧ vget g.cx.tc 0 none ≠ none) := by
  repeat' apply And.intro
  all_goals first | decide +kernel
theorem witness_TileTransfers :
    let o : Ops := { d := 0, a := 1 }
    let lo : Ops := { o with mod := mc 1 }
    let s := sx 1 1
    let tn : Ops := { d := 2, a := 0 }
    let wa : State := { s with ctxs := [(0, { s.cx with wait := .access 0 })] }
    let done : State := { wa with cores := [(0, { mcore with flight := [{ id := 0, slot := 0, kind := .load, dest := .image none, pieces := [{ va := 0x2000, place := .here, pa := 0x2000, n := 64, done := true }] }] })] }
    let ok {α ε : Type} (x : Except ε α) : Bool := holds x (fun _ => true)
    (s.canIssue tn [rv 2] ∧ bit0Of tn 0 = false ∧ s.co.own 0 = .ctx (s.cur % 8) ∧ s.co.slotBusy 0 = false ∧ s.co.slotInUse 0 = false ∧ accBusy s 0 = false)
    ∧ (s.canIssue o [] ∧ vget s.cx.tc o.dNum none = some 5)
    ∧ (s.canIssue o [rg 1] ∧ s.co.kept = [] ∧ s.co.scores = [] ∧ Mem.wf s.co.lmem = true ∧ mN s.cx.sr.mctl ≤ 32 ∧ mM s.cx.sr.mctl ≤ 32 ∧ 0x1000 % ((Fmt.ofTy (fld (o.clsOr 0) 0 3)).bits / 8) = 0 ∧ 0x1000 + 32 * 4 * 32 ≤ 0x18000)
    ∧ (s.canIssue lo [rg 1] ∧ bit0Of lo 0 = true ∧ 0x1000 % 16 = 0 ∧ 0x1000 + 5184 ≤ 0x18000)
    ∧ (bit0Of o 0 = false ∧ fld 0x1000 0 56 % 64 = 0 ∧ ok (s.check (.vstore false) (imageParts 0x1000 5184)) = true ∧ ok (s.check (.vload false) (imageParts 0x1000 5184)) = true)
    ∧ (wa.cx.occ = true ∧ wa.cx.wait = .access 0 ∧ wa.waited = none ∧ (done.waited.map (fun a => a.complete)) = some true) := by decide +kernel

/-- A copy of one row of 8 bytes from 0x2000 to L-memory 0x100, which adds 1 to counter 3 on its end; its pieces when built. -/
def cw : List Word := [BitVec.ofNat 64 (2 ^ 60 + 2 * 2 ^ 56 + 2 ^ 49 + 3 * 2 ^ 45), 0x2000, 0x100, 0x10008, 0, 0, 0, 0]
def rdP : EPiece := { space := 3, va := 0x2000, place := .here, pa := 0x2000, n := 8, off := 0 }
def wrP : EPiece := { space := 2, va := 0x100, pa := 0x100, n := 8, off := 0 }
def cmd0 (tr : Trans) : Cmd := { id := 0, w := cw, trans := tr, uid := 0 }

/-- Core 0 with a copy engine; the descriptor stands at 0 of L-memory. -/
def en (e : Engine) (c : Ctx) : State := { one c with cores := [(0, { copy := e, nextId := 1 })] }

def flt (tr : Trans) : EFault := { cause := 2, addr := 0x2000, xsp := 0, index := 0xFFFF, ec := some 3, cmd := cmd0 tr }

/-- Descriptor addresses at both ends of L-memory, one under a copy, and a misaligned one; an engine that is idle, and one that has stopped. -/
theorem witness_EngineInstructions :
    let o : Ops := { d := 15, a := 1 }
    let at_ (x : Nat) := one (regs [BitVec.ofNat 64 x])
    let q : State := { sk with cur := 0 }
    let f : State := { sk with cores := [(0, { copy := { fault := some (flt {}) } })] }
    (∀ x ∈ [0, 0x17FC0], (at_ x).canIssue o [rg 1] ∧ (∀ i ∈ [false, true], ((at_ x).co.engine i).waiting < 16) ∧ (at_ x).co.scores.length < 16 ∧ (at_ x).co.busy 2 x (x + 64) = false)
    ∧ (let b := { at_ 0x40 with cores := [(0, { scores := [{ eng := false, cmd := 0, buf := 2, lo := 0x7F, hi := 0x80 }] })] }; b.canIssue o [rg 1] ∧ b.co.busy 2 0x40 0x80 = true)
    ∧ (0x17FC0 % 64 = 0 ∧ 0x17FC0 + 64 ≤ 0x18000 ∧ (at_ 4).canIssue o [rg 1] ∧ (4 : Nat) % 64 ≠ 0) ∧ (q.canIssue o [] ∧ q.atCheckpoint = true ∧ (q.co.engine (bit0Of o 0)).fault = none ∧ (q.co.engine (bit0Of o 0)).quiet = true)
    ∧ (f.canIssue o [] ∧ f.atCheckpoint = true ∧ (f.co.engine (bit0Of o 0)).fault.isSome = true)
    ∧ (s0.canIssue o (valueRegs o) ∧ o.dNum < 16) := by
  repeat' apply And.intro
  all_goals first | decide +kernel
/-- A command that starts, sound and malformed; its source and destination pieces, the latter to device and to local memory; its end; a fault, on a running engine and on a stopped one; a program that begins, reads its
first descriptor, meets its end, and has ended, the next one running. -/
theorem witness_EngineStepsWait :
    let tr := s0.cx.trans
    let list : Cmd := { id := 0, trans := tr, uid := 0, w := [BitVec.ofNat 64 (2 ^ 62 + 2 * 2 ^ 56), 0x100000, 0, 0x10004, 0x3000, 0, 0, 0] }
    let held : State := { one (regs []) with cores := [(0, { index := { queue := [.cmd list] }, nextId := 1 })], jobs := [(0, { kind := .commit 0x100000 0x200000, words := [] })], nextJob := 1 }
    let out : EPiece := { rdP with pa := 0x2000, va := 0x2000 }
    let c (fem : Nat) : Cmd := { cmd0 tr with w := [BitVec.ofNat 64 (2 ^ 60 + 2 ^ 59 + 2 * 2 ^ 56 + fem * 2 ^ 54), 0x2000, 0x100, 0x10008, 0, 0, 0, 0], rd := [{ wrP with done := true }], wr := [out] }
    let s (fem : Nat) : State := parkedOn true (en { flight := [c fem] } (regs []))
    (held.still = false ∧ (held.core 0).starting true = some list ∧ list.w ≠ [] ∧ list.malformed true = false ∧ held.listHeld 0 list = true)
    ∧ (∀ fem ∈ [2, 3], (s fem).still = false ∧ (s fem).findCmd 0 false 0 = some (c fem) ∧ (c fem).wr[0]? = some out ∧ out.done = false ∧ (s fem).engReady (c fem) true out = true ∧ (∀ q ∈ (c fem).rd, q.done = true) ∧ out.space = 3 ∧ out.place = .here
      ∧ out.n = 8 ∧ out.pa % 8 = 0 ∧ (s fem).memWf = true ∧ (c fem).fem ≠ 0 ∧ (s fem).waitBit out.pa = true ∧ (s fem).tableApart out.pa ∧ (c fem).newFe out.off = (fem == 2))
    ∧ ∀ fem, (s fem).plain out.pa out.n := by
  refine ⟨by decide +kernel, ?_, fun _ => plain_of_empty rfl rfl⟩
  simp only [State.tableApart, apart]
  decide +kernel

theorem witness_EngineStepsRun :
    let tr := s0.cx.trans
    let c := cmd0 tr
    let bad : Cmd := { c with w := [BitVec.ofNat 64 (5 * 2 ^ 60)] }
    let st := en { queue := [.cmd c] } (regs [])
    let read := en { flight := [{ c with rd := [rdP], wr := [wrP] }] } (regs [])
    let out : EPiece := { rdP with pa := 0x3000, va := 0x3000 }
    let write := en { flight := [{ c with rd := [{ rdP with done := true }], wr := [out, wrP] }] } (regs [])
    let done := en { flight := [{ c with rd := [{ rdP with done := true }], wr := [{ wrP with done := true }] }] } (regs [])
    let start := en { queue := [.cmd bad] } (regs [])
    let fail (f : Option EFault) := en { flight := [{ bad with bad := some (6, 4, 0) }], fault := f } (regs [])
    let pq := en { queue := [.prog 0 none tr 0] } (regs [])
    let pr := en { prog := some { addr := 0 } } (regs [])
    let pe := en { prog := some { addr := 0, id := 1 }, ends := [{ addr := 0, id := 2, ec := some 1 }] } (regs [])
    let pn := { pr with cores := [(0, { copy := { prog := some { addr := 0 } }, lmem := [(7, 16)] })] }
    (st.still = false ∧ (st.core 0).starting false = some c ∧ st.listHeld 0 c = false ∧ holds (st.build 0 false c) (fun _ => true) = true ∧ c.bytes ≠ 0 ∧ (c.range false).isSome = true)
    ∧ ((start.core 0).starting false = some bad ∧ bad.malformed false = true ∧ start.build 0 false bad = .error (6, 4, 0))
    ∧ ((read.findCmd 0 false 0).map (fun c => c.rd[0]?) = some (some rdP) ∧ rdP.done = false ∧ read.engReady c false rdP = true)
    ∧ ((write.findCmd 0 false 0).map (fun c => (c.wr[0]?, c.wr[1]?, c.rd.all (fun q => q.done))) = some (some out, some wrP, true) ∧ out.done = false ∧ write.engReady c true out = true ∧ out.space = 3 ∧ out.place = .here ∧ write.memWf = true ∧ c.fem = 0
      ∧ wrP.done = false ∧ wrP.space < 3 ∧ Mem.wf ((write.core 0).buf wrP.space) = true)
    ∧ write.plain out.pa out.n
    ∧ ((done.findCmd 0 false 0).map (fun c => (c.bad, (c.rd ++ c.wr).all (fun p => p.done))) = some (none, true))
    ∧ (∀ f ∈ [none, some (flt tr)], ((fail f).core 0).copy.fault = f ∧ ((fail f).faultOf 0 false 0).map (fun e => e.2) = some (6, 4, 0))
    ∧ ((pq.core 0).starting false = none ∧ (pq.core 0).copy.fault = none ∧ (pq.core 0).copy.prog = none ∧ (pq.core 0).copy.queue = .prog 0 none tr 0 :: [])
    ∧ (∀ s ∈ [pn, pr], (s.core 0).starting false = none ∧ (s.core 0).copy.fault = none ∧ (s.core 0).copy.prog = some { addr := 0 } ∧ (s.core 0).copy.queue = [])
    ∧ (fld (mread (pn.core 0).lmem 0 8) 60 4 ≠ 0 ∧ fld (mread (pr.core 0).lmem 0 8) 60 4 = 0)
    ∧ ((pe.core 0).copy.ends = { addr := 0, id := 2, ec := some 1 } :: [] ∧ (pe.core 0).copy.flight = [] ∧ (pe.core 0).copy.queue = [] ∧ (pe.core 0).copy.fault = none) ∧ (pr.core 0).copy.ends = [] := by
  repeat' apply And.intro
  all_goals first | decide +kernel | exact plain_of_empty rfl rfl

/-- sk with group 1 of cores 0 and 1 of a row. -/
def bg (cores : Tbl Core) : State := { sk with truss := (Vector.replicate 8 {}).set 1 { level := 1, mask := 3 }, cores }

/-- A member that has arrived and one that has not; a core that is no member; a phase to latch and to complete. -/
theorem witness_BarrierPhases :
    let o : Ops := { opnd := ob 1, d := 1, a := 1 }
    let bar1 (b : Bar) : Core := { bars := (Vector.replicate 8 {}).set 1 b }
    let all := bg [(0, bar1 { arrived := true }), (1, bar1 { arrived := true })]
    (∀ s ∈ [bg [], all], s.canIssue o [] ∧ s.canIssue o [rg 1] ∧ (1 < 8 ∧ (s.group 1).member s.coreNo = true ∧ s.isLatched s.coreNo 1 = false) ∧ s.barReady o.dNum = true ∧ s.atCheckpoint = true)
    ∧ (let a := bg [(0, bar1 { waiters := [(0, 1)] })]; let k := bg [(0, bar1 { kept := [.mx 1 0 1] })]; (a.bar 0 1).awaited 0 = true ∧ (k.bar 0 1).awaited 0 = true ∧ a.coreNo = 0 ∧ a.cur % 8 = 0 ∧ a.barReady 1 = true)
    ∧ (let l := { all with latched := [(1, 0)] }; l.canIssue o [] ∧ l.isLatched l.coreNo 1 = true ∧ l.barReady o.dNum = true)
    ∧ (let w := bg [(0, { flight := [{ id := 0, slot := 0, kind := .store, pieces := [{ va := 0x2000, place := .here, pa := 0x2000, n := 8 }] }] })]; w.canIssue o [] ∧ (w.group 1).member w.coreNo = true ∧ w.barReady o.dNum = false)
    ∧ (((bg [(1, bar1 { arrived := true })]).group 1).members (spanOf 1 0) = [0, 1] ∧ s0.canIssue o [rg 1])
    ∧ (let w := { bg [(0, bar1 { arrived := true, mx := 5, waiters := [(0, 1)] })] with ctxs := [(8, { wait := .barw 1 0, held := some (.barw { d := 1 }) })], latched := [(1, 0)] }
      (w.bar 0 1).waiters = [(0, 1)] ∧ (w.ctx (8 * 1 + 0)).wait = .barw 1 0 ∧ (w.ctx (8 * 1 + 0)).held = some (.barw { d := 1 }) ∧ 1 ∈ (w.group 1).members 0 ∧ ∀ c ∈ spanCores 1 0, (w.bar c 1).kept = [])
    ∧ ((bg []).bar 0 1).arrived = false ∧ (all.bar 0 1).arrived = true ∧ (s0.canIssue o [] ∧ (s0.group o.dNum).member s0.coreNo = false)
    ∧ (all.still = false ∧ (all.group 1).level ≠ 0 ∧ (all.group 1).members 0 = [0, 1] ∧ (1, 0) ∉ all.latched ∧ (∀ c ∈ [0, 1], (all.bar c 1).arrived = true)
      ∧ ((spanCores 1 0).filter (fun c => !(all.core c).fenced)).foldl (fun (x : Int) c => x + (all.bar c 1).pc.toInt) 0 = 0)
    ∧ (let t := { all with latched := [(1, 0)] }; (1, 0) ∈ t.latched ∧ ∀ c ∈ spanCores 1 0, (t.bar c 1).kept = []) := by
  repeat' apply And.intro
  all_goals decide +kernel

/-- FORK to a record at 0x1000 without a join word and with one that names a counter at 0x3000; JOIN of 0, and of a counter of 2, 1 and 0, and one whose results have come or not; a record to push; the deques
empty and not, and of fenced cores; a port's queue. -/
theorem witness_ForkJoinAndDeques :
    let o : Ops := { opnd := ob 2, d := 3, a := 1 }
    let jn (v : Byte) : State := { sk with mem := [(0x1000, v), (0x8000, 1)] }
    let dq (l : List QEnt) : State := { one (regs []) with cores := [(0, { deque := l })] }
    let fn : State := { one (regs []) with cores := [(0, { deque := [{ rcd := 0x40 }], fenced := true })] }
    let pq : State := { one (regs []) with ports := [(0, { queue := [(3, 0x4000)] })] }
    let fk (s : State) : Prop := s.canIssue o [rg 1, rg 2] ∧ 0x1000 % 64 = 0 ∧ (s.cx.getG 2).getLsbD 0 = false ∧ s.releaseReady s.coreNo (s.cur % 8) = true ∧ s.co.deque.length < 256 ∧ s.memWf = true
      ∧ s.check .store [{ off := 0, va := 0x1000, n := 8 }, { off := 16, va := 0x1010, n := 8 }, { off := 24, va := 0x1018, n := 8 }]
        = .ok [({ off := 0, va := 0x1000, n := 8 }, ph 0x1000), ({ off := 16, va := 0x1010, n := 8 }, ph 0x1010), ({ off := 24, va := 0x1018, n := 8 }, ph 0x1018)]
      ∧ s.homesFree [({ off := 0, va := 0x1000, n := 8 }, ph 0x1000), ({ off := 16, va := 0x1010, n := 8 }, ph 0x1010), ({ off := 24, va := 0x1018, n := 8 }, ph 0x1018)] = true
    let sj : State := { s0 with mem := [(0x1011, 0x30)] }
    (fk s0 ∧ s0.readHome .here 0x1010 8 = 0)
    ∧ (s0.plain 0x1000 8 ∧ ∀ v, (s0.stored (ph 0x1000) v).devctxs = [] ∧ (s0.stored (ph 0x1000) v).armed = [])
    ∧ (fk sj ∧ sj.readHome .here 0x1010 8 = 0x3000 ∧ 0x3000 % 8 = 0 ∧ sj.check (.atomic 0) [{ off := 0, va := 0x3000, n := 8 }] = .ok [({ off := 0, va := 0x3000, n := 8 }, ph 0x3000)] ∧ sj.blockBusy 0x3000 8 = false)
    ∧ (∀ s ∈ [jn 2, jn 1], s.canIssue o [rg 1] ∧ s.atCheckpoint = true ∧ s.cx.getG o.aNum ≠ 0 ∧ s.releaseReady s.coreNo (s.cur % 8) = true ∧ s.cx.drained = true ∧ s.memWf = true
      ∧ s.check (.atomic 0) [{ off := 0, va := 0x1000, n := 8 }] = .ok [({ off := 0, va := 0x1000, n := 8 }, ph 0x1000)] ∧ s.blockBusy 0x1000 8 = false)
    ∧ ((jn 2).plain 0x1000 8 ∧ (jn 1).plain 0x1000 8)
    ∧ ((sk.canIssue { a := 0 } [rg 0] ∧ sk.cx.getG 0 = 0) ∧ mread sk.mem 0x1000 8 = 0)
    ∧ (∀ b ∈ [false, true], let c : Ctx := { (if b then regs [] else (regs []).mark true 5) with wait := .access (2 ^ 64) }; (one c).cx.occ = true ∧ (one c).cx.wait = .access (2 ^ 64) ∧ (one c).cx.drained = b)
    ∧ (s0.canIssue o [rg 1] ∧ s0.releaseReady s0.coreNo (s0.cur % 8) = true ∧ s0.check .load [{ off := 0, va := 0x1018, n := 8 }] = .ok [({ off := 0, va := 0x1018, n := 8 }, ph 0x1018)] ∧ s0.homesFree [({ off := 0, va := 0x1018, n := 8 }, ph 0x1018)] = true)
    ∧ ((dq []).canIssue o [rg 3] ∧ (dq []).co.deque = [] ∧ (dq [{ rcd := 0x40 }]).canIssue o [rg 3] ∧ (dq [{ rcd := 0x40 }]).co.deque = [] ++ [{ rcd := 0x40 }])
    ∧ ((dq [{ rcd := 0x40, pin := some 0 }]).canIssue o [rg 3, rg 1] ∧ ((dq []).cx.getG 1).toNat ≤ 31 ∧ (∀ e ∈ (dq [{ rcd := 0x40, pin := some 0 }]).co.deque, e.pin ≠ none) ∧ fn.canIssue o [rg 3, rg 1] ∧ fn.co.fenced = true
      ∧ ((dq [{ rcd := 0x40 }]).core 0).fenced = false ∧ ((dq [{ rcd := 0x40 }]).core 0).deque = [] ++ { rcd := 0x40 } :: [])
    ∧ (pq.canIssue o [rg 3, rg 4, rg 1] ∧ pq.coreNo / 32 = 2 * 0 ∧ (pq.port 0).queue = (3, 0x4000) :: [] ∧ ((dq []).port 0).queue = []) := by
  repeat' apply And.intro
  all_goals first | decide +kernel | exact plain_of_empty rfl rfl | exact fun v => ⟨rfl, rfl⟩

/-- Superstep mode, at a checkpoint, with region 2 owned by core 0. -/
def ss (c : Ctx) : State :=
  { one { c with sr := { c.sr with capmode := 1, ckbase := 0x8000 } } with mem := [(0x8000, 1)], devctxs := [(0, { regions := [(2, { base := 0x4000, log2 := 12, owner := 0 })] })] }

/-- L-memory of a core whose ring 0 lies at 0, with 256 bytes, and holds a message of 4 bytes when the tail is 32. -/
def rg0 (tail : Byte) (size : Byte) : Mem := [(0, 4), (0x17FC5, size), (0x17FCC, tail)].filter (fun e => e.2 != 0)

/-- The same with core 0 the one member of its group 7. -/
def ssm (c : Ctx) : State := { ss c with truss := (Vector.replicate 8 {}).set 7 { level := 1, mask := 1 } }

/-- HANDOFF of an owned region, of another core's, with a number too great and outside superstep mode; CAPQ of a region and of none; SSEND outside the mode, of no member, and at each of its steps; a ring that is empty, holds a message, or
a pad marker behind its tail or at it; a send with room, with room past a pad marker, and with none; a retry with room and with none; an arrival; the two completions of group 7. -/
theorem witness_RegionsAndMessages :
    let o : Ops := { opnd := ob 2, d := 3, a := 1 }
    let s := ss (regs [2, 5])
    let m := ssm (regs [2, 5])
    let r : Region := { base := 0x4000, log2 := 12, owner := 0 }
    let other : State := { s with devctxs := [(0, { regions := [(2, { r with owner := 1 })] })] }
    let mr (t z : Byte) (more : Mem) : State := { one (regs []) with cores := [(0, { lmem := more ++ rg0 t z })] }
    let pad (t : Nat) : State := { one (regs []) with cores := [(0, { lmem := [(0x20, 0xFF), (0x21, 0xFF), (0x17FC5, 1), (0x17FC8, 0x20), (0x17FCC, BitVec.ofNat 8 t)].filter (fun e => e.2 != 0) })] }
    let snd (len h t : Nat) (c : Ctx) : State := { one { c with g := (regs [0x1000, BitVec.ofNat 64 (len + 2 ^ 32)]).g } with cores := [(1, { lmem := [(0x17FC5, 0x20), (0x17FC9, BitVec.ofNat 8 h), (0x17FCD, BitVec.ofNat 8 t)].filter (fun e => e.2 != 0) })] }
    let re (h t : Nat) : State := snd 4096 h t { regs [] with wait := .retry 0 0, held := some (.msgsend o), sr := { rbudget := 2 } }
    let sw (w : Wait) (st g1 : Nat) (m : Option SsMark) : State :=
      { ssm { regs [BitVec.ofNat 64 g1] with wait := w, sstep := BitVec.ofNat 2 st, held := if w = .none then none else some (.ssend o) } with cores := [(0, { ss := m.toList.map (fun x => (0, x)) })] }
    let mark (u : State) : Option SsMark := (u.co.ss.find? (fun e => e.1 == u.cx.uid)).map (fun e => e.2)
    let tb (t : State) : State := { t with jobs := [(0, { kind := .commit 0 0x300000, words := [] })] }
    let tr : State := { s with devctxs := [(0, { regions := [(2, { r with transit := some (5, 0, []) })] })] }
    let l7 (st : Nat) : State := { sw (.barw 7 0) st 0 (some (.arrived st)) with latched := [(7, 0)], devctxs := [(0, { regions := [(2, { r with owner := 0xFFFF, sharer := 3 })] })] }
    (s.canIssue o [rg 1, rg 2] ∧ s.cx.sr.capmode.getLsbD 0 = true ∧ (s.cx.getG 1).toNat ≤ 4095 ∧ (s.cx.getG 2).toNat ≤ 1535 ∧ s.regionOf 0 2 = some r ∧ r.shown = s.coreNo ∧ s.memWf = true ∧ s.co.awaitsMx (s.cur % 8) = false ∧ s.blockBusy (s.ownerAt 0 2) 4 = false ∧ (tb s).canIssue o [rg 1, rg 2] ∧ (tb s).blockBusy ((tb s).ownerAt 0 2) 4 = true
      ∧ (let w : State := { s with cores := [(0, { bars := (Vector.replicate 8 {}).set 1 { waiters := [(0, 1)] } })] }; w.canIssue o [rg 1, rg 2] ∧ w.regionOf 0 2 = some r ∧ w.co.awaitsMx (w.cur % 8) = true))
    ∧ (other.canIssue o [rg 1, rg 2] ∧ other.regionOf 0 2 = some { r with owner := 1 } ∧ ({ r with owner := 1 } : Region).shown ≠ other.coreNo ∧ s0.canIssue o [rg 1, rg 2] ∧ 4095 < (s0.cx.getG 1).toNat
      ∧ (let n := one (regs [2, 0xFFFF]); n.canIssue o [rg 1, rg 2] ∧ n.cx.sr.capmode.getLsbD 0 = false ∧ (n.cx.getG 2).toNat = 0xFFFF))
    ∧ (s.canIssue o [rg 3, rg 1] ∧ s0.canIssue o [rg 3, rg 1] ∧ s0.cx.sr.capmode.getLsbD 0 = false ∧ (ss (regs [3])).canIssue o [rg 3, rg 1] ∧ (ss (regs [3])).regionOf 0 3 = none)
    ∧ (sk.canIssue o [rg 1] ∧ sk.atCheckpoint = true ∧ sk.cx.sr.capmode.getLsbD 0 = false ∧ s.canIssue o [rg 1] ∧ s.atCheckpoint = true ∧ (s.group 7).member s.coreNo = false ∧ s.cx.sstep ≠ 2)
    ∧ (∀ u ∈ [m, { m with latched := [(7, 0)] }], u.canIssue o [rg 1] ∧ u.atCheckpoint = true ∧ (u.group 7).member u.coreNo = true ∧ u.cx.sstep = 0 ∧ u.barReady 7 = true)
    ∧ (∀ st ∈ [1, 3], ∀ m ∈ [SsMark.arrived st, .kept st], let u := sw .none st 0 (some m); u.canIssue o [rg 1] ∧ u.atCheckpoint = true ∧ u.cx.sr.capmode.getLsbD 0 = true ∧ (u.group 7).member u.coreNo = true ∧ u.cx.sstep = BitVec.ofNat 2 st ∧ mark u = some m ∧ m ≠ .ended)
    ∧ (∀ st ∈ [1, 3], ∀ g1 ∈ [0, 0x40], ∀ ph ∈ [0, 1], ∀ m ∈ [none, some (SsMark.arrived st), some .ended], let u := sw (.barw 7 (BitVec.ofNat _ ph)) st g1 m
      u.cx.occ = true ∧ u.cx.wait = .barw 7 (BitVec.ofNat _ ph) ∧ u.cx.sr.capmode.getLsbD 0 = true ∧ (u.group 7).member u.coreNo = true ∧ u.cx.sstep = BitVec.ofNat 2 st ∧ mark u = m ∧ (u.bar u.coreNo 7).phase = 0 ∧ u.co.copy.waiting < 16)
    ∧ ((∀ st ∈ [2, 3], let u := sw .erdv st 0 none; u.cx.occ = true ∧ u.cx.wait = .erdv ∧ u.cx.sr.capmode.getLsbD 0 = true ∧ u.cx.sstep = BitVec.ofNat 2 st ∧ mark u = none ∧ u.co.copy.fault = none ∧ u.co.copy.quiet = true ∧ (u.group 7).member u.coreNo = true ∧ u.barReady 7 = true)
      ∧ ({ sw .erdv 2 0 none with cores := [(0, { copy := { fault := some (flt {}) } })] } : State).co.copy.fault = some (flt {}))
    ∧ (let g (t z : Byte) := (mr t z []).co.ring 0
      (mr 32 1 []).canIssue { d := 3 } [rg 3] ∧ (g 32 0).size = 0 ∧ ((g 0 1).head = (g 0 1).tail ∧ (g 0 1).size = 256) ∧ ((g 32 1).size ≠ 0 ∧ (g 32 1).head ≠ (g 32 1).tail ∧ mread (mr 32 1 []).co.lmem 0 2 ≠ 0xFFFF ∧ Mem.wf (mr 32 1 []).co.lmem = true)
      ∧ (mr 32 1 []).co.busy 2 (ringAt 0) (ringAt 0 + 16) = false)
    ∧ (∀ t ∈ [0, 0x10], let q := (pad t).co.ring 0; (pad t).canIssue { d := 3 } [rg 3] ∧ q.size ≠ 0 ∧ q.head = 0x20 ∧ q.tail = t ∧ mread (pad t).co.lmem (q.base + q.head) 2 = 0xFFFF ∧ Mem.wf (pad t).co.lmem = true ∧ (pad t).co.busy 2 q.base (q.base + 16) = false)
    ∧ (∀ e ∈ [(4096, 0, 0, some (0, false)), (4000, 0x10, 0x12, some (0, true)), (4096, 0x10, 0x0F, none)], let u := snd e.1 e.2.1 e.2.2.1 (regs []); u.canIssue o [rg 1, rg 2] ∧ u.maySend 0x1000 (e.1 + 2 ^ 32) ∧ (u.cx.getG 2).toNat = e.1 + 2 ^ 32 ∧ ((u.core 1).ring 0).place (16 + roundUp e.1 16) = e.2.2.2)
    ∧ (∀ e ∈ [(0, 0, some (0, false)), (0x10, 0x0F, none)], let u := re e.1 e.2.1; u.still = false ∧ (u.ctx 0).occ = true ∧ (u.ctx 0).wait = .retry 0 0 ∧ 0 ≤ u.tick ∧ (u.ctx 0).held = some (.msgsend o) ∧ ({ u with cur := 0 } : State).maySend 0x1000 (4096 + 2 ^ 32) ∧ ((u.core 1).ring 0).place (16 + roundUp 4096 16) = e.2.2 ∧ 0 + 1 < (u.ctx 0).budget)
    ∧ (tr.still = false ∧ tr.resident = some 0 ∧ tr.regionOf 0 2 = some { r with transit := some (5, 0, []) } ∧ (tr.core 0).flight = [] ∧ tr.memWf = true ∧ tr.blockBusy (tr.ownerAt 0 2) 4 = false ∧ (tb tr).blockBusy ((tb tr).ownerAt 0 2) 4 = true)
    ∧ ((l7 1).still = false ∧ (7, 0) ∈ (l7 1).latched ∧ (∀ c ∈ ((l7 1).group 7).members 0, ((l7 1).core c).ssends 3 = [] ∧ ((l7 1).core c).ssends 1 = [0]) ∧ (∃ c ∈ ((l7 3).group 7).members 0, ((l7 3).core c).ssends 3 ≠ []) ∧ (l7 3).resident = some 0
      ∧ (l7 3).regionOf 0 2 = some { r with owner := 0xFFFF, sharer := 3 } ∧ ({ r with owner := 0xFFFF, sharer := 3 } : Region).transit = none ∧ (((l7 3).dctx 0).regions.map (fun e => e.1)).Nodup) := by
  repeat' apply And.intro
  all_goals first | decide +kernel | (simp only [State.maySend]; decide +kernel)

/-- The registers of the state after reset and of one with a context. -/
theorem regsWf_small : ({ State.reset with turns := [.issue 0] } : State).regsWf ∧ s0.regsWf := by
  constructor <;>
  · simp only [State.regsWf]
    decide +kernel

/-- A step from a state whose registers keep their limits, and an instruction that leaves its context where it was; a supervisor that reads and writes registers, an aligned and an odd `tvec`; a user that may write `xflags` and not `xstat`; TRET to an even and an odd `xpc`; a private address, its last, and one whose sum leaves the address space. -/
theorem witness_StatusRegistersAndTrapReturn :
    let m (a : BitVec 5) : Ops := { d := 2, a }
    let w (d : BitVec 5) (a : BitVec 5) : Ops := { d, a }
    let pv (x : Word) : State := one { regs [0, x] with sr := { prvbase := 0x00FFFFFFFFFFFFFF } }
    let ret (x : Nat) : State := one { regs [] with sr := { xstat := 1, xpc := BitVec.ofNat 64 x } }
    ({ State.reset with turns := [.issue 0] } : State).regsWf ∧ (∃ t, step { State.reset with turns := [.issue 0] } = .next t)
    ∧ (∃ t, exec (.add { d := 1, a := 2 }) s0 = .next t ∧ ((s0.ctx 0).occ && (t.ctx 0).occ && (t.ctx 0).uid == (s0.ctx 0).uid) = true) ∧
    (su.cx.super = true ∧ (18, (0 : Word)) ∈ su.statusValues ∧ su.canIssue (m 18) [rg 2] ∧ su.canIssue (m 10) [rg 2, rg 3])
    ∧ ((∀ e ∈ statusTable, e.1 < 18 ∨ e.1 = 21) ∧ su.canIssue (w 5 1) [rg 1] ∧ (su.cx.getG 1).toNat % 2 = 0 ∧ su.canIssue (w 5 3) [rg 3] ∧ (su.cx.getG 3).toNat % 2 = 1 ∧ (su.cx.getG 3).toNat % 64 ≠ 0)
    ∧ (su.canIssue (w 0 1) [rg 1] ∧ (w 0 1).clsOr 0 % 4 = 0) ∧ (su.canIssue (w 10 2) [rg 2, rg 3] ∧ mctlBad 0 (0x2000 + 2 ^ 64 * 3) = true ∧ mctlBad 0 (1 + 64 + 2 ^ 32 + 4 * 2 ^ 39) = false)
    ∧ (s0.cx.super = false ∧ s0.canIssue (w 8 1) [rg 1] ∧ (6 ≤ (w 8 1).dNum ∧ (w 8 1).dNum ≤ 11) ∧ s0.canIssue (m 0) [rg 2] ∧ ¬(s0.cx.super = true ∨ (6 ≤ (m 0).aNum ∧ (m 0).aNum ≠ 16)) ∧ s0.canIssue (w 0 1) [rg 1] ∧ s0.canIssue {} [])
    ∧ (∀ x ∈ [0x4000, 0x4001], (ret x).cx.super = true ∧ (ret x).cx.drained = true ∧ (ret x).canIssue {} []) ∧ (ret 0x4000).cx.sr.xpc.getLsbD 0 = false ∧ (ret 0x4001).cx.sr.xpc.getLsbD 0 = true
    ∧ ((pv 5).canIssue (m 2) [rg 2, rg 2] ∧ (0x00FF000000000000 : Nat) < 2 ^ 56 ∧ 0x00FFFFFFFFFFFFFF + (0x00FF000000000000 - 0x00FF000000000000) < 2 ^ 56 ∧ 2 ^ 56 ≤ 0x00FFFFFFFFFFFFFF + (0x00FF000000000001 - 0x00FF000000000000)) := by
  repeat' apply And.intro
  all_goals first | decide +kernel | exact regsWf_small.1 | exact ⟨_, rfl⟩ | exact of_goes (by decide +kernel)
/-- WAITC on counter 0 at 1 that does not hold and on counter 0 at 0 that does; one whose counter has a flag, raised or reported; one that parks; a probe of the full word 0x2000, for "full" and for "empty"; a time-out; IDLE at its tick; a trap that waits; a result; two traps in a window. -/
theorem witness_WaitsEnd :
    let o : Ops := { opnd := ob 2, d := 1, a := 1 }
    let cnt (k : Nat) : State := { sk with ctxs := [(0, { sk.cx with g := (regs [BitVec.ofNat 64 (2 ^ 60 + k), 9]).g })] }
    let pb (kind : Nat) (dl : Nat) : State := one { regs [BitVec.ofNat 64 (kind * 2 ^ 60 + 0x2000), 9] with wait := .waitc dl [{}], held := some (.waitc o) }
    let flag (f : EcFlag) : State := { cnt 1 with cores := [(0, { ecf := (Vector.replicate 16 .clear).set 0 f })] }
    let op : Ops := { o with mod := mc 16 }
    let pk : State := { sk with ctxs := [(0, { sk.cx with g := (regs [BitVec.ofNat 64 (2 ^ 60 + 1), 0]).g, rcd := 0x7000 })] }
    let idl : State := one { regs [] with wait := .idle 0, held := some (.idle o) }
    let trp : State := one { regs [] with trap := some { cause := 11 } }
    let res : State := { one (regs []) with cores := [(0, { results := [{ slot := 0, g := [(63, 7)] }] })] }
    let win : State := { one (regs []) with clusters := [(0, { window := [(3, 5, 0x10), (1, 6, 0x20)] })] }
    (∀ k ∈ [0, 1], let s := cnt k; let ws := condWords o s.cx; s.canIssue o (grp rg 1 1 ++ [rg 2, rp 1] ++ condMasks ws) ∧ groupSize o = 1 ∧ s.atCheckpoint = true ∧ ws.any condBad = false ∧ waitcWords s ws = none ∧ (∀ n ∈ condCounters ws, vget s.co.ecf n .clear = .clear)
      ∧ combination s.co (waitcAll o) ws (firstProbes s.cx ws) = (k == 0) ∧ s.cx.getG 2 ≠ 0)
    ∧ (∀ f ∈ [EcFlag.raised, .reported], let s := flag f; let ws := condWords o s.cx; s.canIssue o (grp rg 1 1 ++ [rg 2, rp 1] ++ condMasks ws) ∧ s.atCheckpoint = true ∧ ws.any condBad = false ∧ waitcWords s ws = none ∧ condCounters ws = [0] ∧ vget s.co.ecf 0 .clear = f
      ∧ reportedCounter s.co ws = if f = .reported then some 0 else none)
    ∧ (let ws := condWords op pk.cx; pk.canIssue op (grp rg 1 1 ++ [rg 2, rp 1] ++ condMasks ws) ∧ pk.atCheckpoint = true ∧ ws.any condBad = false ∧ waitcWords pk ws = none ∧ (∀ n ∈ condCounters ws, vget pk.co.ecf n .clear = .clear)
      ∧ combination pk.co (waitcAll op) ws (firstProbes pk.cx ws) = false ∧ bitOf (op.clsOr 0) 4 = true ∧ pk.cx.getG 2 = 0 ∧ (∀ w ∈ ws, condKind w ≤ 1) ∧ pk.checkpoint pk.coreNo pk.cx pk.cx.pc = some 1
      ∧ pk.leaveReady pk.cur (pk.entryWords pk.coreNo pk.cx 1) = true ∧ holds (pk.saveContext pk.cur 1) (fun _ => true) = true)
    ∧ (sk.canIssue { a := 0 } [rg 0] ∧ sk.atCheckpoint = true ∧ (sk.cx.getG 0).toNat ≤ sk.now.toNat ∧ sk.now.toNat < (sk.cx.getG 1).toNat ∧ s0.atCheckpoint = false)
    ∧ (∀ kind ∈ [2, 3], let s := pb kind 1; let ws := condWords o (s.ctx 0); s.still = false ∧ (s.ctx 0).held = some (.waitc o) ∧ ws.length = 1 ∧ ws.all condOnWord = true ∧ (∀ w ∈ ws, s.probe 0 w = some true) ∧ 0 ≤ s.tick ∧ condCounters ws = []
      ∧ combination (s.core 0) (waitcAll o) ws [{ answer := some true, j := 1, till := 1 }] = (kind == 2))
    ∧ (let s := { pb 3 1 with now := 1 }; (1 : Nat) ≠ 0 ∧ 1 ≤ s.tick ∧ combination (s.core 0) (waitcAll o) (condWords o (s.ctx 0)) [{}] = false)
    ∧ (let s := { pb 2 1 with now := 1 }; 1 ≤ s.tick ∧ (∀ w ∈ condWords o (s.ctx 0), s.probe 0 w = some true))
    ∧ ((idl.ctx 0).wait = .idle 0 ∧ (idl.ctx 0).held = some (.idle o) ∧ 0 ≤ idl.tick) ∧ ((trp.ctx 0).trap = some { cause := 11 } ∧ (trp.ctx 0).drained = true)
    ∧ (res.still = false ∧ (res.core 0).results[0]? = some { slot := 0, g := [(63, 7)] }) ∧ (win.still = false ∧ (win.cluster 0).window ≠ []) := by
  repeat' apply And.intro
  all_goals first | decide +kernel

/-- A page table at 0x10000 that maps the 1 GiB page at 0x8000000000 to physical address 0: `v` is the low byte of its leaf. -/
def ptm (v : Byte) : Mem := [(0x10000, 1), (0x10001, 0x20), (0x10002, 1), (0x12010, 1), (0x12011, 0x40), (0x12012, 1), (0x14000, v)]

def pt (v : Byte) (s : State) : State := { s with mem := ptm v, devctxs := [(0, { ptroot := 0x10000 })] }

theorem witness_CachesTlbsAndFirmwareCalls :
    let o : Ops := { opnd := ob 2, d := 3, a := 1 }
    let kinds : List Ops := [o, { o with mod := mc 1 }, { o with mod := mc 2 }, { o with mod := mc 4 }]
    let fw (imms : List (BitVec 10)) : Ops := { opnd := ob 2, imms, d := 3, a := 4 }
    (s0.canIssue o [rg 1] ∧ s0.cx.super = false)
    ∧ (∀ q ∈ kinds, su.canIssue q [rg 1] ∧ su.cx.super = true) ∧ su.releaseReady su.coreNo (su.cur % 8) = true ∧ (∀ i, i < 32 → su.flushed .all i = true ∧ su.flushed (.ctx 0x1000) i = true ∧ su.flushed (.pages su.cx.trans.ctxid [(globalVa su.cx.trans 0x1000, 1)]) i = true)
    ∧ (su.cx.getG 1 = 0x1000 ∧ globalVa su.cx.trans 0x1000 < 2 ^ 56)
    ∧ (let p := one { regs [0x00FF000000000001] with sr := { xstat := 1, prvbase := 0x00FFFFFFFFFFFFFF } }; p.canIssue o [rg 1] ∧ p.cx.super = true ∧ 2 ^ 56 ≤ globalVa p.cx.trans (0x00FF000000000001 % 2 ^ 56))
    ∧ (s0.canIssue o [rg 1, rg 2] ∧ s0.canIssue { o with mod := mc 1 } [rg 1, rg 2] ∧ bit0Of o 0 = false ∧ bit0Of { o with mod := mc 1 } 0 = true ∧ s0.writtenBack 0 (s0.cacheHit { o with mod := mc 1 } 0) = true ∧ s0.writtenBack 0 (s0.cacheHit o 1) = true)
    ∧ (let r : State := { s0 with cores := [(0, { flight := [{ id := 0, slot := 1, kind := .store, pieces := [{ va := 0x2000, place := .remote 5, pa := 0x2000, n := 8 }] }] })] }
      r.canIssue { o with mod := mc 3 } [rg 1, rg 2] ∧ bit0Of { o with mod := mc 3 } 0 = true ∧ r.writtenBack 0 (r.cacheHit { o with mod := mc 3 } 0) = false ∧ r.writtenBack 0 (r.cacheHit { o with mod := mc 2 } 1) = false)
    ∧ (s0.canIssue (fw [16]) [rg 3, rg 2] ∧ (512 : Int) ≤ (fw [16]).imm ∧ (0 : Int) ≤ (fw []).imm ∧ (fw []).imm < 512 ∧ (fw []).imm ∉ [(0 : Int), 1, 2, 3, 512, 516, 517, 520, 530] ∧ (fw [16]).imm ∈ [(0 : Int), 1, 2, 3, 512, 516, 517, 520, 530] ∧ su.releaseReady su.coreNo (su.cur % 8) = true)
    ∧ ((pt 0x2B s0).still = false ∧ (0x8000000000 : Word).toNat < 2 ^ 56 ∧ (pt 0x2B s0).resident = some 0 ∧ (pt 0x2B s0).walk 0 0x8000000000 = .leaf 0x2B 0 0x14000 0x8000000000 0x40000000 2) := by
  repeat' apply And.intro
  all_goals first | decide +kernel

/-- A device with a request to Cethen at the head of its queue, from the context of slot 0. -/
def ak (svc : Nat) (arg : Word) (s : State) : State :=
  let tr : Trans := { hlimit := 0x8000000000 }
  { s with fwq := [{ id := 0, core := 0, slot := 0, svc, arg, dc := 0, trans := tr }], nextFw := 1, ctxs := [(0, { regs [] with wait := .fw 0, held := some (.fwcall { opnd := ob 2, d := 3, a := 4 }) })] }

/-- The header of an image with no body: its magic. -/
def im : Mem := [(0x2000, 0x48), (0x2001, 0x54), (0x2002, 0x45), (0x2003, 0x43)]

theorem image_not_malformed {img : List Nat} {len v : Nat} (h : ¬(leAt img 0 4 ≠ 0x43455448 ∨ leAt img 8 4 % 64 ≠ 0 ∨ len ≠ 5325 + leAt img 8 4)) : imageError img len v ≠ 2 := by
  unfold imageError
  rw [if_neg h]
  split
  · decide
  split
  · decide
  split <;> decide

/-- Each service: a quote into the heap and one whose nonce lies outside the address space; an image that is whole, and one that is not mapped; a page that is resident, out, with the staging buffer big enough and too small, in the heap, and of no
mapping; an answer of the driver to the request posted, and another; each service with what it accesses free of commits, and with a commit in progress there. -/
theorem witness_CethenAnswers :
    let o : Ops := { opnd := ob 2, d := 3, a := 4 }
    let q (svc : Nat) (arg : Word) : FwReq := { id := 0, core := 0, slot := 0, svc, arg, dc := 0, trans := { hlimit := 0x8000000000 } }
    let pg (v : Byte) (l : Word) : State := { pt v s0 with regs := { bstat := 5, mbslen := l } }
    let po : State := { ak 516 0x8000000000 s0 with posted := some { req := q 516 0x8000000000, op := 1, va := 0x8000000000, size := 2 ^ 30, entry := 0x14000, count := 1, pa := 0, seq := 1 } }
    let ui : State := { ak 530 0x2000 s0 with mem := im }
    let ue : State := { ak 530 0x7FFFFFFFC0 s0 with mem := im.map (fun e => (e.1 - 0x2000 + 0x7FFFFFFFC0, e.2)) }
    (∀ svc ∈ [0, 1, 2, 3, 512, 516, 517, 520, 530], let s := ak svc 0x2000 s0; s.ready = true ∧ s.posted = none ∧ s.fwq = q svc 0x2000 :: [] ∧ (s.ctx 0).wait = .fw 0 ∧ (s.ctx 0).held = some (.fwcall o))
    ∧ (holds ((ak 3 0x2000 s0).checkAccess 0 (q 3 0).trans true .load (cutScalar 0 0x2000 64)) (fun _ => true) = true ∧ holds ((ak 3 0x2000 s0).checkAccess 0 (q 3 0).trans true .store (cutScalar 0 0x2040 5389)) (fun _ => true) = true
      ∧ holds ((ak 3 0x7FFFFFFFC0 s0).checkAccess 0 (q 3 0).trans true .load (cutScalar 0 0x7FFFFFFFC0 64)) (fun _ => true) = true ∧ holds ((ak 3 0x7FFFFFFFC0 s0).checkAccess 0 (q 3 0).trans true .store (cutScalar 0 0x8000000000 5389)) (fun _ => true) = false
      ∧ holds ((ak 3 0 s0).checkAccess 0 (q 3 0).trans true .load (cutScalar 0 (2 ^ 56) 64)) (fun _ => true) = false)
    ∧ ((ak 530 (2 ^ 55) s0).readVa 0 (q 3 0).trans (2 ^ 55) 64 = none ∧ (∃ h, ui.readVa 0 (q 3 0).trans 0x2000 64 = some h ∧ leAt (toBytes 64 h) 8 4 = 0 ∧ imageError (toBytes 64 h) 5325 0 ≠ 2) ∧ (ui.readVa 0 (q 3 0).trans 0x2000 5325).isSome = true
      ∧ (ak 530 0x3000 s0).readVa 0 (q 3 0).trans 0x3000 64 = some 0 ∧ imageError (toBytes 64 0) (5325 + leAt (toBytes 64 0) 8 4) 0 = 2
      ∧ (∃ h, ue.readVa 0 (q 3 0).trans 0x7FFFFFFFC0 64 = some h ∧ leAt (toBytes 64 h) 8 4 = 0 ∧ imageError (toBytes 64 h) 5325 0 ≠ 2) ∧ ue.readVa 0 (q 3 0).trans 0x7FFFFFFFC0 5325 = none)
    ∧ (((pg 0x2A 0x1000000).pageCase (q 0 0).trans 0x8000000000 = .out 0x14000 0x8000000000 10) ∧ ((pg 0x2B 0x1000000).pageCase (q 0 0).trans 0x8000000000 = .valid 0x14000 0x8000000000 10 0) ∧ (s0.pageCase (q 0 0).trans 0x2000 = .heap) ∧ (s0.pageCase (q 0 0).trans 0x8000000000 = .noMapping))
    ∧ ((0x1000000 : Word).toNat = 2 ^ pageLog 10 / 64 ∧ (0 : Word).toNat < 2 ^ pageLog 10 / 64 ∧ mread (pg 0x2B 0).mem (0x14000 + 7) 1 = 0 ∧ mread ((0x14007, 1) :: []) (0x14000 + 7) 1 ≠ 0 ∧ (∀ k ∈ (pg 0x2B 0).cores, (pg 0x2B 0).flushed (.pages 0 [(0x8000000000, 2 ^ pageLog 10)]) k.1 = true))
    ∧ (po.still = false ∧ po.posted.map (fun p => (p.req, p.seq)) = some (q 516 0x8000000000, 1) ∧ (po.ctx 0).wait = .fw 0 ∧ (po.ctx 0).held = some (.fwcall o) ∧ (1 : Word).toNat % 2 ^ 32 = 1 ∧ (2 : Word).toNat % 2 ^ 32 ≠ 1)
    ∧ (∀ b ∈ [false, true], let s := if b then busyAt 0x2000 (ak 3 0x2000 s0) else ak 3 0x2000 s0
      (s.ready = true ∧ s.posted = none ∧ s.fwq = q 3 0x2000 :: [] ∧ (s.ctx 0).wait = .fw 0 ∧ (s.ctx 0).held = some (.fwcall o)) ∧ holds (s.checkAccess 0 (q 3 0).trans true .store (cutScalar 0 0x2040 5389)) (fun ws => ws.any (fun e => s.placeHeld e.2.place e.2.pa e.1.n) == b) = true
        ∧ holds (s.checkAccess 0 (q 3 0).trans true .load (cutScalar 0 0x2000 64)) (fun rs => rs.any (fun e => s.placeHeld e.2.place e.2.pa e.1.n) == b) = true)
    ∧ (ui.bytesFree 0 (q 3 0).trans 0x2000 64 = true ∧ ui.bytesFree 0 (q 3 0).trans 0x2000 5325 = true ∧ (ak 530 0x3000 s0).bytesFree 0 (q 3 0).trans 0x3000 5325 = true ∧ ue.bytesFree 0 (q 3 0).trans 0x7FFFFFFFC0 5325 = true
      ∧ (ak 530 (2 ^ 55) s0).bytesFree 0 (q 3 0).trans (2 ^ 55) 64 = true ∧ (busyAt 0x2000 ui).bytesFree 0 (q 3 0).trans 0x2000 64 = false
      ∧ (busyAt 0x3000 ui).bytesFree 0 (q 3 0).trans 0x2000 64 = true ∧ (busyAt 0x3000 ui).bytesFree 0 (q 3 0).trans 0x2000 5325 = false ∧ ((busyAt 0x3000 ui).readVa 0 (q 3 0).trans 0x2000 64).isSome = true)
    ∧ (let e := (pg 0x2B 0x1000000); (e.blockBusy 0x14000 (16 * groupCount 10) || e.blockBusy (fld e.regs.mbstage.toNat 12 44 * 4096) (2 ^ pageLog 10 / 64)) = false ∧ (busyAt 0x14000 e).blockBusy 0x14000 (16 * groupCount 10) = true)
    ∧ (po.answerHeld = false ∧ (busyAt 0x14000 po).answerHeld = true) := by
  repeat' apply And.intro
  all_goals first | decide +kernel | rfl | exact ⟨0x43455448, by decide +kernel, by decide +kernel, image_not_malformed (by decide +kernel)⟩

/-- A page whose group has no poisoned line and one whose group has; an answer of the driver that meets none, and one that does. -/
theorem witness_CethenAnswers_poison :
    let t : Trans := { hlimit := 0x8000000000 }
    let pg (v : Byte) (ls : List Nat) : State := { pt v s0 with regs := { bstat := 5 }, poison := ls }
    let p : Posted := { req := { id := 0, core := 0, slot := 0, svc := 516, arg := 0x8000000000, dc := 0, trans := t }, op := 1, va := 0x8000000000, size := 2 ^ 12, entry := 0x14000, count := 1, pa := 0, seq := 1 }
    let po (ls : List Nat) : State := { ak 516 0x8000000000 s0 with posted := some p, poison := ls }
    let sound (s : State) : Bool := s.sound (fld s.regs.mbstage.toNat 12 44 * 4096) (p.size / 64) && s.sound p.entry (16 * p.count)
    ((pg 0x2B []).sound 0x14000 (16 * groupCount 10) = true ∧ (match (pg 0x2F [0x501]).pageCase t 0x8000000000 with | .valid e _ sz _ => e == 0x14000 && sz == 11 | _ => false) = true ∧ (pg 0x2F [0x501]).sound 0x14000 (16 * groupCount 11) = false)
    ∧ sound (po []) = true ∧ (∀ l ∈ [0, 0x500], sound (po [l]) = false ∧ (po [l]).answerHeld = false) := by decide +kernel

/-- Device context 0 with a queue of four entries at 0x2000, one of them valid, whose words differ from 0 in the bytes listed; its template at 0x1000 gives the heap. -/
def qu (m : Mem) : State :=
  { one {} with ctxs := [], mem := (0x1024, 0x80) :: m, devctxs := [(0, { qbasep := 0x2000, qsize := 4, qtail := 1, tmplp := 0x1000, template := Vector.ofFn (fun i : Fin 16 => if i.val = 4 then 0x8000000000 else 0) })] }

/-- Word i of the entry at the head. -/
def qw (s : State) (i : Nat) : Nat := mread s.mem ((s.dctx 0).entryAt + 8 * i) 8

/-- A launch of one record at 0x4000 with its completion at 0x3000: the spread byte of w5, the top byte of w7 and the window of w17 and w18 as given. -/
def la (sp top win : Byte) : State := qu ([(0x2028, 1), (0x202A, sp), (0x2039, 0x40), (0x203C, top), (0x208A, win), (0x2090, win <<< 6), (0x2099, 0x30), (0x20F8, 1)].filter (fun e => e.2 != 0))

theorem witness_QueuesLaunchesAndScheduling :
    let lw (m : Mem) : State := qu m
    let lc : State := { qu [] with devctxs := [(0, { launch := some { entry := 0, completion := some ((List.range 32).map (0x3000 + ·)), created := 1 } })] }
    let fenced : State := { la 0x40 0 0 with cores := [(0, { fenced := true })] }
    let ovl : State := { la 0 0 1 with digests := [(1, { base := 0x10000, size := 64 })] }
    let tm (s : State) : State := (s.readTemplate 0).getD {}
    let pk : State := { qu [] with cores := [(0, { deque := [{ rcd := 0x4000 }] })] }
    let pe : State := one { regs [] with wait := .idle 5, held := some (.idle {}) }
    let pc : State := { sk with ctxs := [(0, { sk.cx with wait := .idle 5, held := some (.idle {}) })] }
    let lv : State := { sk with ctxs := [(0, { sk.cx with preempt := true, rcd := 0x7000 })] }
    let hs : State := { one { regs [] with dc := 0 } with incoming := some 1, now := 10000, cores := [(0, { preemptAt := some 0 })] }
    let ag : State := { one (regs []) with now := 7, clusters := [(0, { queues := (Vector.replicate 4 []).set 2 [{ rcd := 0x40 }] })], devctxs := [(0, { template := Vector.ofFn (fun i : Fin 16 => if i.val = 9 then 7 else 0) })] }
    let sw : State := { qu [] with incoming := some 63 }
    let ab : State := { lc with fwq := [{ id := 0, core := 0, slot := 0, svc := 512, arg := 0, dc := 0 }] }
    let ax : State := { ab with fwq := [{ id := 0, core := 0, slot := 0, svc := 512, arg := 0, dc := 1 }], devctxs := ab.devctxs ++ [(1, { launch := some { entry := 0, completion := none } })] }
    let ae : State := { qu [] with devctxs := [(0, { launch := some { entry := 0, completion := none }, aborting := true })] }
    (s0.still = false ∧ (63 < 64) ∧ ((qu []).dctx 0).qsize.toNat ≤ 4 ∧ 3 < ((qu []).dctx 0).qsize.toNat ∧ ((qu []).dctx 0).launch = none ∧ (lc.dctx 0).launch ≠ none ∧ s0.resident = some 0 ∧ s0.resident ≠ some 63)
    ∧ ((qu []).takes 0 = true ∧ (qu []).physOk ((qu []).dctx 0).entryAt 256 = true ∧ (∀ i, i < 32 → qw (qu []) i = 0))
    ∧ (3 < qw (lw [(0x20F8, 4)]) 31 % 256)
    ∧ (let s := lw [(0x2000, 0x80), (0x20F8, 2)]; qw s 31 = 2 ∧ (∀ i, i < 31 → 1 ≤ i → qw s i = 0) ∧ qw s 0 % 128 = 0 ∧ qw s 0 + 2048 ≤ 0x8000000000 ∧ s.badLine [] (qw s 0) 2048 = none ∧ s.jobs = [] ∧ s.memWf = true)
    ∧ (let s := lw [(0x2001, 0x50), (0x2008, 7), (0x20F8, 3)]; qw s 31 = 3 ∧ (∀ i, i < 31 → 2 ≤ i → qw s i = 0) ∧ qw s 0 = 0x5000 ∧ s.badLine [] (qw s 0) 8 = none ∧ s.plain 0x5000 8 ∧ s.memWf = true)
    ∧ (let s := { lw [(0x20F8, 1)] with poison := [0x40] }; qw s 31 % 256 = 1 ∧ s.readTemplate 0 = none ∧ s.takes 0 = true ∧ s.physOk 0x2000 256 = true)
    ∧ ((lw [(0x20F8, 1)]).readTemplate 0).isSome = true ∧ launchOk (qw (lw [(0x20F8, 1)])) = false
    ∧ (launchOk (qw fenced) = true ∧ (tm fenced).spreadFenced (qw fenced) = true)
    ∧ (let s := la 0 0x80 0; launchOk (qw s) = true ∧ (tm s).spreadFenced (qw s) = false ∧ (tm s).storable 0 (qw s 7) 64 = false)
    ∧ (∀ s ∈ [la 0 0 1, ovl], launchOk (qw s) = true ∧ (tm s).spreadFenced (qw s) = false ∧ (tm s).storable 0 (qw s 19) 32 = true ∧ (tm s).xlate 0 ((tm s).cethenTrans 0) (qw s 19) = .ok (ph 0x3000) ∧ (tm s).storable 0 (qw s 7) 64 = true ∧ qw s 5 % 2 ^ 21 = 1 ∧ qw s 6 = 0)
    ∧ (tm ovl).digestOverlaps 0 (qw ovl 17) (qw ovl 18) = true ∧ (tm (la 0 0 1)).digestOverlaps 0 (qw (la 0 0 1) 17) (qw (la 0 0 1) 18) = false
    ∧ (lc.ready = true ∧ lc.resident = some 0 ∧ (lc.dctx 0).live = 0 ∧ (lc.dctx 0).aborting = false ∧ lc.cores = [] ∧ lc.plainFor 0x3000 32 ∧ lc.memWf = true)
    ∧ (pk.incoming = none ∧ (pk.ctx 0).occ = false ∧ (pk.core 0).fenced = false ∧ (pk.core 0).deque = [] ++ [{ rcd := 0x4000 }] ∧ pk.takeable 0 { rcd := 0x4000 } = true ∧ pk.recCkid 0 { rcd := 0x4000 } = 0 ∧ (pk.readVa 0 (pk.recTrans 0) 0x4000 8).isSome = true)
    ∧ ((pe.ctx 0).occ = true ∧ (pe.ctx 0).stopped = false ∧ (pe.ctx 0).wait = .idle 5 ∧ (pc.ctx 0).wait = .idle 5 ∧ ((pc.endWait 0).checkpoint 0 ((pc.endWait 0).ctx 0) (pc.ctx 0).pc).isSome = true)
    ∧ (lv.mayLeave 0 = true ∧ lv.checkpoint 0 (lv.ctx 0) (lv.ctx 0).pc = some 1 ∧ lv.leaveReady 0 (lv.entryWords 0 (lv.ctx 0) 1) = true ∧ holds (lv.saveContext 0 1) (fun _ => true) = true ∧ (lv.ctx 0).pinned = false)
    ∧ (let p := { lv with ctxs := [(0, { lv.ctx 0 with pinned := true })] }; p.mayLeave 0 = true ∧ p.checkpoint 0 (p.ctx 0) (p.ctx 0).pc = some 1 ∧ p.leaveReady 0 (p.entryWords 0 (p.ctx 0) 1) = true ∧ holds (p.saveContext 0 1) (fun _ => true) = true ∧ (p.ctx 0).pinned = true ∧ (p.core 0).deque.length < 256)
    ∧ (hs.incoming ≠ none ∧ (hs.core 0).preemptAt = some 0 ∧ 0 + fld (hs.dctx 0).dlctl.toNat 0 32 ≤ hs.tick ∧ (hs.ctx 0).occ = true ∧ (hs.ctx 0).dc = 0 ∧ hs.resident = some 0 ∧ (hs.ctx 0).trap = none ∧ (hs.dctx 0).aborting = false ∧ (∀ u ∈ [hs, { hs with ctxs := [(0, { hs.ctx 0 with wait := .idle 5, held := some (.idle {}) })] }], ((u.endWait 0).ctx 0).drained = true ∧ ((u.endWait 0).ctx 0).wait = .none ∧ (u.endWait 0).releaseReady 0 0 = true))
    ∧ ((vget (ag.cluster 0).queues 2 [])[0]? = some { rcd := 0x40 } ∧ ageOf (ag.dctx 0).template 2 = 7 ∧ ageOf (ag.dctx 0).template 2 ≠ 0 ∧ 7 ≤ ag.tick - 0 ∧ ag.ready = true ∧ ag.resident = some 0)
    ∧ (sw.ready = true ∧ sw.incoming = some 63 ∧ sw.switchable 0 = true)
    ∧ (ab.posted = none ∧ (ab.dctx 0).aborting = false ∧ (ab.dctx 0).launch ≠ none) ∧ (ax.posted = none ∧ (ax.dctx 0).aborting = false ∧ (ax.dctx 1).launch ≠ none ∧ ax.ready = true ∧ ax.resident = some 0)
    ∧ ((ae.dctx 0).aborting = true ∧ (ae.dctx 0).launch = some { entry := 0, completion := none } ∧ ae.abortReady = true ∧ ae.completionHeld none = false)
    ∧ ((qu []).placeHeld (placeOf ((qu []).dctx 0).entryAt) ((qu []).dctx 0).entryAt 256 = false ∧ (let b := busyAt 0x2000 (qu []); b.takes 0 = true ∧ b.physOk (b.dctx 0).entryAt 256 = true ∧ b.placeHeld (placeOf (b.dctx 0).entryAt) (b.dctx 0).entryAt 256 = true))
    ∧ (∀ b ∈ [false, true], let s := lw [(0x2001, 0x50), (0x2008, 7), (0x20F8, 3)]; let t := if b then busyAt 0x5000 s else s; t.takes 0 = true ∧ qw t 0 = 0x5000 ∧ t.badLine [] 0x5000 8 = none ∧ t.blockBusy 0x5000 8 = b ∧ t.placeHeld (placeOf 0x2000) 0x2000 256 = false)
    ∧ (∀ s ∈ [lw [(0x20F8, 1)], fenced, ovl, la 0 0 1, la 0 0x80 0], s.launchHeld 0 (qw s) = false) ∧ (let s := { lw [(0x20F8, 1)] with poison := [0x40] }; s.launchHeld 0 (qw s) = false) ∧ (let s := busyAt 0x1000 (la 0 0 1); s.launchHeld 0 (qw s) = true ∧ s.takes 0 = true ∧ s.placeHeld (placeOf 0x2000) 0x2000 256 = false)
    ∧ (let r := some ((List.range 32).map (0x3000 + ·)); lc.completionHeld r = false ∧ (busyAt 0x3000 lc).completionHeld r = true) := by
  repeat' apply And.intro
  all_goals first | decide +kernel | exact plainFor_of_empty rfl (by decide +kernel) (by decide +kernel) | exact plain_of_for (plainFor_of_empty rfl (by decide +kernel) (by decide +kernel)) (by decide +kernel)

/-- For each event a state in which its clause applies. -/
theorem witness_DeviceEventsHappen :
    let bs (n len : Word) : State := { regs := { bstat := n, bootlen := len } }
    let po (st : Word) : State := { one (regs []) with ports := [(23, { ulstat := st })] }
    let rm : State := { one (regs []) with now := 100000, routes := [(5, 1)], cores := [(0, { flight := [{ id := 0, slot := 0, kind := .load, pieces := [{ va := 0x2000, place := .remote 5, pa := 0x2000, n := 8 }] }] })] }
    let tp : State := { one (regs []) with rows := [(0, { taper := some 0 })], now := 1000 }
    let up : State := { rm with ports := [(0, { ulstat := 2 })] }
    let lost : State := { rm with cores := [(0, { flight := [{ id := 0, slot := 0, kind := .load, pieces := [{ va := 0x2000, place := .remote 5, pa := 0x2000, n := 8, lost := some 0 }] }] })] }
    let fz : State := { busyAt 0x2000 sf with cores := [(0, { flight := [{ id := 0, slot := 0, kind := .load, pieces := [{ va := 0x3000, place := .here, pa := 0x3000, n := 8 }] }] })] }
    let dq : State := { one (regs []) with ports := [(23, { queue := [(0, 128 * 255)], used := BitVec.ofNat 256 (2 ^ 255) })] }
    (sf.bootState = 7 ∧ s0.bootState ≠ 7 ∧ 1 < 2 ^ 32)
    ∧ (fz.bootState = 7 ∧ onPier 4 0x2000 = true ∧ onPier 6 0x3000 = true ∧ (fz.core 0).awaitsMx 0 = false ∧ fz.jobs ≠ [])
    ∧ ((∀ n, 1 ≤ n → n ≤ 4 → (bs (BitVec.ofNat 64 n) 3).still = false ∧ (bs (BitVec.ofNat 64 n) 3).bootState = n) ∧ (bs 1 3).pcieUp = true ∧ ({ bs 1 3 with pcieUp := false } : State).bootState = 1
      ∧ (List.range 4).all (bs 4 3).mgmtRuns = true ∧ (List.range 4).all ({ bs 4 3 with mgmt := mgmtStart [0x00, 0xE0] 0 } : State).mgmtRuns = false)
    ∧ (let m (b : Nat) (l : List Nat) : State := { bs (BitVec.ofNat 64 b) 3 with mgmt := mgmtStart l 0 }
      (∀ b ∈ [4, 5], (m b [0x44, 0x08]).mgmtOn = true ∧ (m b [0x44, 0x08]).mgmtView.nextInstr 8 = .ok (.mov { d := 1, a := 2 }) ∧ onMgmt (.mov { d := 1, a := 2 }) = true
        ∧ goesTo ((m b [0x44, 0x08]).mgmtView.issueSlot 1) (fun u => u.ctxs.all (fun e => !e.2.entered && e.2.trap.isNone) && (u.ctx 8).pc == 2) = true)
      ∧ (let f := m 4 [0x18, 0xF8, 0x86, 0x00]; let i := Instr.vadd { d := 2, a := 3 }; f.mgmtView.nextInstr 8 = .ok i ∧ f.mgmtView.offers 8 = true ∧ onMgmt i = false)
      ∧ goesTo ((m 4 [0x03, 0xD8]).mgmtView.issueSlot 1) (fun u => u.ctxs.any (fun e => e.2.entered)) = true)
    ∧ ((up.core 0).flight.length = 1 ∧ (up.core 0).flight.all (fun a => a.pieces.length == 1 && a.pieces.all (fun p => p.done == false && p.lost.isNone && p.place == .remote 5 && (up.core 0).freeToGo a p)) = true)
    ∧ (s0.still = false ∧ (bs 2 3).still = false ∧ (bs 2 3).bootState = 2 ∧ (bs 2 3).regs.bootlen ≠ 0 ∧ ([1, 2, 3] : List Byte).length = (bs 2 3).regs.bootlen.toNat)
    ∧ ((bs 2 0).regs.bootlen = 0 ∧ { bs 2 0 with now := 1000000000 }.fetchStart + 1000000000 ≤ { bs 2 0 with now := 1000000000 }.tick ∧ (bs 3 0).bootState = 3 ∧ (bs 4 0).bootState = 4 ∧ (bs 2 3).memWf = true)
    ∧ ((po 1).portState 23 = 1 ∧ (po 1).tick ≤ ((po 1).port 23).since + 2000000 ∧ (∃ lanes, 1 ≤ lanes ∧ lanes ≤ ((po 0x11).port 23).lanes) ∧ ((po 1).port 23).since + 2000000 ≤ { po 1 with now := 2000000 }.tick ∧ (po 2).portState 23 = 2)
    ∧ ((rm.core 0).flight.find? (fun x => x.id == 0)).map (fun a => a.pieces.map (fun p => (p.place, p.done))) = some [(.remote 5, false)] ∧ rm.portTo 5 0x2000 = some 0 ∧ rm.portUp 0 = false ∧ ((rm.port 0).since + 100000 ≤ rm.tick ∧ (rm.ctx 0).occ = true)
    ∧ ((lost.core 0).flight.find? (fun x => x.id == 0)).map (fun a => a.pieces.map (fun p => (p.place, p.done, p.lost))) = some [(.remote 5, false, some 0)] ∧ 0 + 100000 ≤ lost.tick ∧ up.portState 0 = 2 ∧ up.portTo 5 0x2000 = some 0
    ∧ (0x7FFFFFFFF8 + 8 ≤ 0x8000000000 ∧ s0.blockBusy 0x7FFFFFFFF8 8 = false ∧ s0.poisonedPart 0x7FFFFFFFF8 8 = false ∧ s0.plain 0x7FFFFFFFF8 8 ∧ s0.memWf = true)
    ∧ ((po 2).portState 23 = 2 ∧ ((po 2).port 23).used.getLsbD 0 = false ∧ ((po 2).port 23).rqbase.toNat / 2 ^ 15 % 2 ^ 41 * 2 ^ 15 + 128 * 0 + 128 ≤ 0x8000000000 ∧ (po 2).plainFor 0 128 ∧ (po 2).memWf = true ∧ (po 2).blockBusy 0 128 = false ∧ (busyAt 0 (po 2)).blockBusy 0 128 = true ∧ (255 : Word).toNat ≤ 255)
    ∧ ((dq.port 23).queued (255 : Word).toNat = true ∧ ((po 2).port 23).queued (255 : Word).toNat = false)
    ∧ (tp.budgetAt + 1000 ≤ tp.tick ∧ (∀ k, k < 1536 → (tp.core k).fduty.toNat ≤ 16) ∧ (tp.row 0).taper = some 0 ∧ 0 ≤ tp.tick)
    ∧ ((s0.ctx (8 * 0 + 0)).occ = true ∧ (s0.core 0).eccCount = 0 ∧ (1 : Word).getLsbD 0 = true ∧ (0 : Word).getLsbD 0 = false ∧ (0 : Word).getLsbD 63 = false)
    ∧ ((one { regs [] with wait := .idle 0, held := some (.idle {}) }).due = true ∧ s0.due = false) := by
  repeat' apply And.intro
  all_goals first
    | decide +kernel
    | exact plain_of_empty rfl rfl
    | exact plainFor_of_empty rfl (by decide +kernel) (by decide +kernel)
    | exact ⟨1, by decide +kernel, by decide +kernel⟩
    | (show ([0] : List Nat)[Config.portHash (0x2000 / 64) % 1]? = some 0
       rw [Nat.mod_one]
       rfl)

/-- Hypotheses of the clauses about exact values (FloatLanes, LaneConversions, BlockConversions). -/
theorem witness_ExactNumbers : (isFin (.fin true 3 0) = true ∧ isFin (.inf false) = false ∧ 0 ≤ numValue (.fin false 3 0) ∧ numValue (.fin false 3 0) ≠ 0 ∧ numValue (.fin false 0 0) = 0)
    ∧ (Fmt.f16 ∈ formats ∧ |numValue (.fin true 3 0)| ≤ numValue (Fmt.f16.decode Fmt.f16.maxPat))
    ∧ (0x4200 < 2 ^ Fmt.f16.bits ∧ isFin (Fmt.f16.decode 0x4200) = true ∧ 0 < numValue (Fmt.f16.decode 0x4200) ∧ numValue (Fmt.f16.decode 0x4200) ≠ 0)
    ∧ (fld (128 * 2 ^ 256) 256 8 ≠ 255) := by
  have h : Fmt.f16.decode Fmt.f16.maxPat = .fin false 2047 5 := by decide +kernel
  have g : Fmt.f16.decode 0x4200 = .fin false 0x600 (-9) := by decide +kernel
  rw [h, g]
  refine ⟨⟨rfl, rfl, ?_, ?_, ?_⟩, ⟨by decide +kernel, ?_⟩, ⟨by decide +kernel, rfl, ?_, ?_⟩, by decide +kernel⟩ <;> norm_num [numValue]

end Sys2Proof.Tests
end

section
/-! SUPPORT. What every operation of the device keeps: the canonical form of the memories, the reserved bits and ranges of the registers, and of each context
that stays in its slot the mode and the suspensions. -/

set_option Elab.async false

namespace Sys2Proof.Machine

open Sys2Proof

/-- What a context shows of itself to the rules of R6 and R246: its slot's occupation, its continuation, its mode with the suspensions, and the enabled flags. -/
def Ctx.shown (c : Ctx) : Bool × Nat × Word × Word := (c.occ, c.uid, c.sr.xstat, c.sr.xenable)

/-- The reserved bits of `xstat` and `xenable` are 0 (R6, R246). -/
def Ctx.tidyBits (c : Ctx) : Prop := c.sr.xstat.toNat < 64 ∧ c.sr.xenable.toNat < 64

/-- Two values of `xstat` have the same mode and the same suspensions (R246). -/
def sameMode (x y : Word) : Prop := ∀ b, b = 0 ∨ b = 2 ∨ b = 3 → y.getLsbD b = x.getLsbD b

/-- A slot that holds a context afterwards held the same continuation before, in the same mode and with the same suspensions. -/
def Ctx.Stays (c d : Ctx) : Prop := d.occ = true → c.occ = true ∧ d.uid = c.uid ∧ sameMode c.sr.xstat d.sr.xstat

/-- What the rules of the buffers and of the duty look at in a core. -/
def Core.shown (c : Core) : Mem × Mem × Mem × Mem × BitVec 5 := (c.lmem, c.abuf, c.wbuf, c.smem, c.fduty)

/-- The memories of a core are in canonical form. -/
def Core.memWf (c : Core) : Prop := Mem.wf c.lmem = true ∧ Mem.wf c.abuf = true ∧ Mem.wf c.wbuf = true ∧ Mem.wf c.smem = true

/-- A duty lies from 1 to 16 (R381). -/
def Core.dutyWf (c : Core) : Prop := 1 ≤ c.fduty.toNat ∧ c.fduty.toNat ≤ 16

/-- The contexts that a switch keeps for a device context have tidy registers. -/
def DevCtx.savedWf (d : DevCtx) : Prop := ∀ v, d.saved = some v → ∀ e ∈ v.ctxs, e.2.tidyBits

/-- What the invariants look at in the device. -/
def State.shown (s : State) : (Mem × Mem × Mem) × Tbl Ctx × Tbl Core × Tbl Row × Tbl DevCtx :=
  ((s.mem, s.rmem, s.mgmt.mem), s.ctxs, s.cores, s.rows, s.devctxs)

/-- The three invariants carry over from one state to another. -/
structure Forms (s t : State) : Prop where
  mem : s.memWf = true → t.memWf = true
  buffers : s.buffersWf → t.buffersWf
  regs : s.regsWf → t.regsWf

/-- An operation that takes no trap: the invariants carry over, and every context that is in its slot afterwards has stayed there. -/
structure Keeps (s t : State) : Prop extends Forms s t where
  stays : ∀ k, (s.ctx k).Stays (t.ctx k)

theorem sameMode.refl (x : Word) : sameMode x x := fun _ _ => rfl

theorem sameMode.trans {x y z : Word} (h : sameMode x y) (g : sameMode y z) : sameMode x z := fun b hb => (g b hb).trans (h b hb)

theorem Ctx.Stays.refl (c : Ctx) : c.Stays c := fun h => ⟨h, rfl, .refl _⟩

theorem Ctx.Stays.trans {c d e : Ctx} (h : c.Stays d) (g : d.Stays e) : c.Stays e := fun he =>
  have ⟨hd, hu, hm⟩ := g he
  have ⟨hc, hv, hn⟩ := h hd
  ⟨hc, hu.trans hv, hn.trans hm⟩

theorem Ctx.shown_iff {c d : Ctx} : d.shown = c.shown ↔ d.occ = c.occ ∧ d.uid = c.uid ∧ d.sr.xstat = c.sr.xstat ∧ d.sr.xenable = c.sr.xenable := by
  simp only [Ctx.shown, Prod.mk.injEq]

theorem Ctx.Stays.of_shown {c d : Ctx} (h : d.shown = c.shown) : c.Stays d := by
  obtain ⟨ho, hu, hx, -⟩ := Ctx.shown_iff.1 h
  exact fun hd => ⟨ho ▸ hd, hu, hx ▸ .refl _⟩

theorem Ctx.tidyBits_of_shown {c d : Ctx} (h : d.shown = c.shown) (hc : c.tidyBits) : d.tidyBits := by
  obtain ⟨-, -, hx, he⟩ := Ctx.shown_iff.1 h
  exact ⟨hx ▸ hc.1, he ▸ hc.2⟩

theorem Core.shown_iff {c d : Core} : d.shown = c.shown ↔ d.lmem = c.lmem ∧ d.abuf = c.abuf ∧ d.wbuf = c.wbuf ∧ d.smem = c.smem ∧ d.fduty = c.fduty := by
  simp only [Core.shown, Prod.mk.injEq]

theorem Core.memWf_of_shown {c d : Core} (h : d.shown = c.shown) (hc : c.memWf) : d.memWf := by
  obtain ⟨hl, ha, hw, hs, -⟩ := Core.shown_iff.1 h
  unfold Core.memWf at *
  rwa [hl, ha, hw, hs]

theorem Core.dutyWf_of_shown {c d : Core} (h : d.shown = c.shown) (hc : c.dutyWf) : d.dutyWf := by
  obtain ⟨-, -, -, -, hf⟩ := Core.shown_iff.1 h
  unfold Core.dutyWf at *
  rwa [hf]

theorem Ctx.tidyBits_default : ({} : Ctx).tidyBits := ⟨by decide, by decide⟩
theorem Core.memWf_default : ({} : Core).memWf := ⟨rfl, rfl, rfl, rfl⟩
theorem Core.dutyWf_default : ({} : Core).dutyWf := ⟨by decide, by decide⟩
theorem DevCtx.savedWf_default : ({} : DevCtx).savedWf := fun _ h => nomatch h

/-! Entries of a table. -/

/-- Every entry of a table after a write stood in it before or is the one written. -/
theorem mem_tset {α : Type} {t : Tbl α} {k : Nat} {v : α} {e : Nat × α} (h : e ∈ tset t k v) : e ∈ t ∨ e = (k, v) := by
  induction t with
  | nil => exact .inr (List.mem_singleton.1 h)
  | cons f r ih =>
    obtain ⟨j, x⟩ := f
    simp only [tset] at h
    split at h
    · exact (List.mem_cons.1 h).symm
    · split at h
      · exact (List.mem_cons.1 h).elim .inr (fun h => .inl (List.mem_cons_of_mem _ h))
      · rcases List.mem_cons.1 h with rfl | h
        · exact .inl List.mem_cons_self
        · exact (ih h).imp_left (List.mem_cons_of_mem _)

/-- What every entry of a table has, a write of a value that has it keeps. -/
theorem all_tset {α : Type} {P : α → Prop} {t : Tbl α} (h : ∀ e ∈ t, P e.2) (k : Nat) {v : α} (hv : P v) : ∀ e ∈ tset t k v, P e.2 := fun e he => by
  rcases mem_tset he with he | rfl
  · exact h e he
  · exact hv

/-- What every entry of a table and the default have, a read has. -/
theorem tget_all {α : Type} {P : α → Prop} {t : Tbl α} {d : α} (h : ∀ e ∈ t, P e.2) (hd : P d) (k : Nat) : P (tget t k d) := by
  induction t with
  | nil => exact hd
  | cons f r ih =>
    obtain ⟨j, x⟩ := f
    simp only [tget]
    split
    · exact h _ List.mem_cons_self
    · exact ih fun e he => h e (List.mem_cons_of_mem _ he)

/-- A read of a table whose entries have been mapped: the mapped entry, or the default. -/
theorem tget_map {α : Type} (f : α → α) (t : Tbl α) (k : Nat) (d : α) :
    tget (t.map (fun e => (e.1, f e.2))) k d = f (tget t k d) ∨ tget (t.map (fun e => (e.1, f e.2))) k d = d := by
  induction t with
  | nil => exact .inr rfl
  | cons e r ih =>
    obtain ⟨j, x⟩ := e
    simp only [List.map_cons, tget]
    split
    · exact .inl rfl
    · exact ih

/-! The units of a state whose registers are well-formed. -/

theorem State.regsWf_iff {s : State} : s.regsWf ↔ (∀ e ∈ s.ctxs, e.2.tidyBits) ∧ (∀ e ∈ s.devctxs, e.2.savedWf) ∧ (∀ e ∈ s.cores, e.2.dutyWf) ∧ ∀ e ∈ s.rows, e.2.balance ≤ 256 := .rfl

theorem State.regsWf.ctx {s : State} (h : s.regsWf) (k : Nat) : (s.ctx k).tidyBits := tget_all h.1 Ctx.tidyBits_default k
theorem State.regsWf.dctx {s : State} (h : s.regsWf) (n : Nat) : (s.dctx n).savedWf := tget_all h.2.1 DevCtx.savedWf_default n
theorem State.regsWf.core {s : State} (h : s.regsWf) (k : Nat) : (s.core k).dutyWf := tget_all h.2.2.1 Core.dutyWf_default k
theorem State.regsWf.row {s : State} (h : s.regsWf) (k : Nat) : (s.row k).balance ≤ 256 := tget_all (P := fun r : Row => r.balance ≤ 256) h.2.2.2 (by decide) k

theorem State.buffersWf_iff {s : State} : s.buffersWf ↔ ∀ k, (s.core k).memWf := .rfl

theorem State.shown_iff {s t : State} : t.shown = s.shown ↔ (t.mem = s.mem ∧ t.rmem = s.rmem ∧ t.mgmt.mem = s.mgmt.mem) ∧ t.ctxs = s.ctxs ∧ t.cores = s.cores ∧ t.rows = s.rows ∧ t.devctxs = s.devctxs := by
  simp only [State.shown, Prod.mk.injEq]

theorem Forms.refl (s : State) : Forms s s := ⟨id, id, id⟩
theorem Forms.trans {s t u : State} (h : Forms s t) (g : Forms t u) : Forms s u := ⟨g.mem ∘ h.mem, g.buffers ∘ h.buffers, g.regs ∘ h.regs⟩

/-- An operation that leaves alone what the invariants look at keeps them. -/
theorem Forms.of_shown {s t : State} (h : t.shown = s.shown) : Forms s t := by
  obtain ⟨⟨hm, hr, hg⟩, hc, hk, hw, hd⟩ := State.shown_iff.1 h
  refine ⟨fun hs => ?_, fun hs => ?_, fun hs => ?_⟩
  · rwa [State.memWf_iff, hm, hr, hg, ← State.memWf_iff]
  · simpa only [State.buffersWf, State.core, hk] using hs
  · simpa only [State.regsWf, hc, hk, hw, hd] using hs

namespace Keeps

variable {s t u : State}

protected theorem refl (s : State) : Keeps s s := ⟨.refl s, fun _ => .refl _⟩
protected theorem rfl : Keeps s s := .refl s
protected theorem trans (h : Keeps s t) (g : Keeps t u) : Keeps s u := ⟨h.toForms.trans g.toForms, fun k => (h.stays k).trans (g.stays k)⟩

theorem of_shown (h : t.shown = s.shown) : Keeps s t :=
  ⟨.of_shown h, fun k => by simp only [State.ctx, (State.shown_iff.1 h).2.1, Ctx.Stays.refl]⟩

/-- An update of fields that the invariants do not look at. -/
theorem same (h : Keeps s t) (hu : u.shown = t.shown := by unfold State.shown; rfl) : Keeps s u := h.trans (of_shown hu)

/-- A write of a context whose registers stay tidy and that stays in its slot. -/
theorem setCtx' (h : Keeps s t) {k : Nat} {c : Ctx} (hb : (t.ctx k).tidyBits → c.tidyBits) (hc : (t.ctx k).Stays c) : Keeps s (t.setCtx k c) := by
  refine h.trans ⟨⟨id, id, fun ht => ⟨all_tset (P := Ctx.tidyBits) ht.1 k (hb (ht.ctx k)), ht.2⟩⟩, fun j => ?_⟩
  rw [State.ctx_setCtx]
  split
  · subst_vars
    exact hc
  · exact .refl _

theorem setCtx (h : Keeps s t) {k : Nat} {c : Ctx} (hc : c.shown = (t.ctx k).shown := by unfold Ctx.shown; rfl) : Keeps s (t.setCtx k c) :=
  h.setCtx' (Ctx.tidyBits_of_shown hc) (.of_shown hc)

theorem setCx (h : Keeps s t) {c : Ctx} (hc : c.shown = t.cx.shown := by unfold Ctx.shown; rfl) : Keeps s (t.setCx c) := h.setCtx hc

/-- An empty slot holds nothing that could have stayed. -/
theorem clearCtx (h : Keeps s t) {k : Nat} : Keeps s (t.setCtx k {}) := h.setCtx' (fun _ => Ctx.tidyBits_default) (fun he => nomatch he)

/-- A write of a core whose memories stay canonical and whose duty stays in its range. -/
theorem setCore' (h : Keeps s t) {k : Nat} {c : Core} (hm : (t.core k).memWf → c.memWf) (hf : (t.core k).dutyWf → c.dutyWf) : Keeps s (t.setCore k c) := by
  refine h.trans ⟨⟨id, fun ht => State.buffersWf_iff.2 fun j => ?_, fun ht => ⟨ht.1, ht.2.1, all_tset (P := Core.dutyWf) ht.2.2.1 k (hf (ht.core k)), ht.2.2.2⟩⟩, fun _ => .refl _⟩
  rw [State.core_setCore]
  split
  · exact hm (ht k)
  · exact ht j

theorem setCore (h : Keeps s t) {k : Nat} {c : Core} (hc : c.shown = (t.core k).shown := by unfold Core.shown; rfl) : Keeps s (t.setCore k c) :=
  h.setCore' (Core.memWf_of_shown hc) (Core.dutyWf_of_shown hc)

theorem setCo (h : Keeps s t) {c : Core} (hc : c.shown = t.co.shown := by unfold Core.shown; rfl) : Keeps s (t.setCo c) := h.setCore hc

/-- One update of every listed core. -/
theorem mapCores (h : Keeps s t) {f : Core → Core} (hf : ∀ c, (f c).shown = c.shown) (hu : u.shown = State.shown { t with cores := t.cores.map (fun (e : Nat × Core) => (e.1, f e.2)) }) : Keeps s u := by
  refine Keeps.same (t := { t with cores := t.cores.map (fun (e : Nat × Core) => (e.1, f e.2)) }) (h.trans ?_) hu
  refine ⟨⟨id, fun ht => State.buffersWf_iff.2 fun k => ?_, fun ht => ⟨ht.1, ht.2.1, fun e he => ?_, ht.2.2.2⟩⟩, fun _ => .refl _⟩
  · rcases tget_map f t.cores k {} with hk | hk
    · simp only [State.core, hk]
      exact Core.memWf_of_shown (hf _) (ht k)
    · simp only [State.core, hk]
      exact Core.memWf_default
  · obtain ⟨d, hd, rfl⟩ := List.mem_map.1 he
    exact Core.dutyWf_of_shown (hf _) (ht.2.2.1 d hd)

theorem setRow (h : Keeps s t) {k : Nat} {r : Row} (hw : (t.row k).balance ≤ 256 → r.balance ≤ 256) : Keeps s (t.setRow k r) :=
  h.trans ⟨⟨id, id, fun ht => ⟨ht.1, ht.2.1, ht.2.2.1, all_tset (P := fun r : Row => r.balance ≤ 256) ht.2.2.2 k (hw (ht.row k))⟩⟩, fun _ => .refl _⟩

/-- A write of a device context whose saved contexts have tidy registers. -/
theorem setDctx' (h : Keeps s t) {n : Nat} {d : DevCtx} (hd : t.regsWf → d.savedWf) : Keeps s (t.setDctx n d) :=
  h.trans ⟨⟨id, id, fun ht => ⟨ht.1, all_tset (P := DevCtx.savedWf) ht.2.1 n (hd ht), ht.2.2⟩⟩, fun _ => .refl _⟩

theorem setDctx (h : Keeps s t) {n : Nat} {d : DevCtx} (hd : d.saved = (t.dctx n).saved := by rfl) : Keeps s (t.setDctx n d) :=
  h.setDctx' fun ht v hv => ht.dctx n v (hd ▸ hv)

theorem setCluster (h : Keeps s t) {k : Nat} {c : Cluster} : Keeps s (t.setCluster k c) := h.same
theorem setPort (h : Keeps s t) {k : Nat} {p : Port} : Keeps s (t.setPort k p) := h.same
theorem setMetaBit (h : Keeps s t) {a b : Nat} {v : Bool} : Keeps s (t.setMetaBit a b v) := h.same
theorem setWaitBit (h : Keeps s t) {a : Nat} {v : Bool} : Keeps s (t.setWaitBit a v) := h.same
theorem setBoot (h : Keeps s t) {n : Nat} : Keeps s (t.setBoot n) := h.same
theorem bootFail (h : Keeps s t) {n : Nat} : Keeps s (t.bootFail n) := h.same
theorem doFreeze (h : Keeps s t) : Keeps s t.doFreeze := h.same
theorem fresh (h : Keeps s t) : Keeps s t.fresh := h.same

/-- What every step of a fold keeps, the fold keeps. -/
theorem foldl {α : Type} {f : State → α → State} (h : Keeps s t) (hf : ∀ u a, Keeps u (f u a)) {l : List α} : Keeps s (l.foldl f t) :=
  foldl_keeps (P := Keeps s) (fun u a hu => hu.trans (hf u a)) l h

/-- A branch. -/
theorem ite {p : Prop} [Decidable p] (ht : p → Keeps s t) (hu : ¬p → Keeps s u) : Keeps s (if p then t else u) := by
  split
  · exact ht ‹_›
  · exact hu ‹_›

end Keeps

/-! Memory. -/

namespace State

/-- What the digest and the caches do beside a pier's write is in no field that the invariants look at (R282, R324). -/
theorem digestLine_shown (s : State) (m : Mem) (a : Nat) : (s.digestLine m a).shown = s.shown := by
  unfold digestLine
  split <;> rfl

theorem uncache_shown (s : State) (a : Nat) : (s.uncache a).shown = s.shown := by
  unfold uncache
  split <;> rfl

theorem pierWrite_shown (s : State) (pa n v : Nat) : (s.pierWrite pa n v).shown = shown { s with mem := mwrite s.mem pa n v } := by
  have hl := lines_keep shown (mwrite s.mem pa n v) (fun t a => digestLine_shown t _ a) (fun t a => uncache_shown t a) (linesAt pa n)
    (if n = 64 ∧ pa % 64 = 0 then { s with poison := s.poison.filter (· != pa / 64) } else s)
  have hp : shown (if n = 64 ∧ pa % 64 = 0 then { s with poison := s.poison.filter (· != pa / 64) } else s) = s.shown := by split <;> rfl
  obtain ⟨⟨-, hr, hg⟩, hc, hk, hw, hd⟩ := shown_iff.1 (hl.trans hp)
  exact shown_iff.2 ⟨⟨rfl, hr, hg⟩, hc, hk, hw, hd⟩

end State

namespace Keeps

variable {s t u : State}

/-- A write of device memory that keeps its canonical form. -/
theorem setMem (h : Keeps s t) (hm : Mem.wf t.mem = true → Mem.wf u.mem = true) (hu : u.shown = State.shown { t with mem := u.mem }) : Keeps s u := by
  refine Keeps.same (t := { t with mem := u.mem }) (h.trans ⟨⟨fun ht => ?_, id, id⟩, fun _ => .refl _⟩) hu
  rw [State.memWf_iff] at *
  exact ⟨hm ht.1, ht.2⟩

theorem pierWrite (h : Keeps s t) {pa n v : Nat} : Keeps s (t.pierWrite pa n v) :=
  h.setMem (fun hm => wf_mwrite hm _ _ _) (State.pierWrite_shown t pa n v)

theorem pierBlit (h : Keeps s t) {pa : Nat} {bs : List Nat} : Keeps s (t.pierBlit pa bs) := by
  induction bs generalizing t pa with
  | nil => exact h
  | cons b r ih => exact ih h.pierWrite

theorem writePlace (h : Keeps s t) {p : Place} {pa n v : Nat} : Keeps s (t.writePlace p pa n v) := by
  cases p with
  | here => exact h.pierWrite
  | host => exact h.setMem (fun hm => wf_mwrite hm _ _ _) rfl
  | remote d =>
    refine h.trans ⟨⟨fun ht => ?_, id, id⟩, fun _ => .refl _⟩
    exact t.memWf_writePlace ht _ _ _ _
  | window => exact h
  | absent => exact h

theorem lateWrite (h : Keeps s t) {pa n v : Nat} : Keeps s (t.lateWrite pa n v) := .ite (fun _ => h.same) (fun _ => h.pierWrite)

end Keeps

end Sys2Proof.Machine
end

section
/-! SUPPORT. What the operations on a context, on a core's units, on memory and on the register window keep, and what taking a trap does. -/

set_option Elab.async false

namespace Sys2Proof.Machine

open Sys2Proof

/-! Registers of a context, and its place in the program. -/

namespace Ctx

variable (c : Ctx)

@[simp] theorem shown_setG (n : Nat) (x : Word) : (c.setG n x).shown = c.shown := by
  unfold setG
  split <;> rfl

@[simp] theorem shown_setV (n : Nat) (x : Vec) : (c.setV n x).shown = c.shown := rfl
@[simp] theorem shown_setSd (n : Nat) (x : BitVec 32) : (c.setSd n x).shown = c.shown := rfl

@[simp] theorem shown_setP (n : Nat) (b : Bool) : (c.setP n b).shown = c.shown := by
  unfold setP
  split <;> rfl

@[simp] theorem shown_setVm (n : Nat) (x : BitVec 32) : (c.setVm n x).shown = c.shown := by
  unfold setVm
  split <;> rfl

@[simp] theorem shown_setVs (n w x : Nat) : (c.setVs n w x).shown = c.shown := by
  induction w generalizing c n x with
  | zero => rfl
  | succ w ih => exact ih _ _ _

@[simp] theorem shown_setLoop (k : Nat) (l : Loop) : (c.setLoop k l).shown = c.shown := by
  unfold setLoop
  split <;> rfl

@[simp] theorem shown_addFlags (fl : Nat) : (c.addFlags fl).shown = c.shown := rfl

@[simp] theorem shown_mark (b : Bool) (r : Nat) : (c.mark b r).shown = c.shown := by
  unfold mark
  dsimp only
  split
  · split <;> rfl
  · rfl
  · split <;> rfl
  · split <;> rfl

@[simp] theorem shown_marks (b : Bool) (rs : List Nat) : (c.marks b rs).shown = c.shown :=
  foldl_keeps (P := fun d => Ctx.shown d = c.shown) (fun d r hd => (shown_mark d b r).trans hd) rs rfl

@[simp] theorem shown_maskWrite (o : Ops) (n : Nat) (f : Nat → Bool) : (maskWrite c o n f).shown = c.shown := by
  refine foldl_keeps (P := fun d => Ctx.shown d = c.shown) (fun d r hd => ?_) _ rfl
  dsimp only
  split
  · exact hd
  · exact (d.shown_setVm _ _).trans hd

theorem shown_loopLevel (k : Nat) (base : Word) : (c.loopLevel k base).2.shown = c.shown := by
  unfold loopLevel
  dsimp only
  split
  · rfl
  · split
    · exact c.shown_setLoop k _
    · exact c.shown_setLoop k _

theorem shown_loopBack (base : Word) : (c.loopBack base).shown = c.shown := by
  unfold loopBack
  dsimp only
  split
  · exact c.shown_loopLevel 0 base
  · exact ((c.loopLevel 0 base).2.shown_loopLevel 1 base).trans (c.shown_loopLevel 0 base)

@[simp] theorem shown_retire (i : Instr) (m : Bool) : (c.retire i m).shown = c.shown := shown_loopBack ({ c with pc := c.npc i }) _
@[simp] theorem shown_jump (m : Bool) (pc : Word) : (c.jump m pc).shown = c.shown := rfl

end Ctx

/-! Units of a core. -/

namespace Core

variable (c : Core)

@[simp] theorem shown_setAcc (n : Nat) (a : Acc) : (c.setAcc n a).shown = c.shown := rfl

theorem shown_setKept (l : List Kept) : ({ c with kept := l } : Core).shown = c.shown := rfl

@[simp] theorem shown_setEngine (index : Bool) (e : Engine) : (c.setEngine index e).shown = c.shown := by
  unfold setEngine
  split <;> rfl

theorem shown_foldl {α : Type} {f : Core → α → Core} (hf : ∀ d a, (f d a).shown = d.shown) (l : List α) : (l.foldl f c).shown = c.shown :=
  foldl_keeps (P := fun d => d.shown = c.shown) (fun d a hd => (hf d a).trans hd) l rfl

@[simp] theorem shown_releaseCtx (slot : Nat) : (c.releaseCtx slot).shown = c.shown := by
  refine (shown_foldl _ (fun d n => ?_) _).trans (shown_foldl _ (fun d n => ?_) _)
  · dsimp only
    split <;> rfl
  · split <;> rfl

@[simp] theorem shown_entitle (slot uid : Nat) : (c.entitle slot uid).shown = c.shown := by
  unfold entitle
  dsimp only
  split <;> rfl

@[simp] theorem shown_releaseKept (rcd : Word) : (c.releaseKept rcd).shown = c.shown := by
  unfold releaseKept
  refine (shown_setKept _ _).trans ((shown_foldl _ (fun d n => ?_) _).trans (shown_foldl _ (fun d n => ?_) _))
  · dsimp only
    split <;> rfl
  · split <;> rfl

@[simp] theorem shown_waitcEval (all : Bool) (ws : List Nat) (ps : List Probe) : (waitcEval c all ws ps).2.shown = c.shown := by
  unfold waitcEval
  dsimp only
  split
  · rfl
  · split <;> rfl

end Core

namespace Keeps

variable {s t u : State}

/-! Records, counters, the park table and the row's tokens. -/

theorem pendResult (h : Keeps s t) {r : Result} {regs : List Nat} : Keeps s (pendResult r regs t) := (h.setCx (by simp)).setCo

theorem writeLink (h : Keeps s t) {core : Nat} {e : QEnt} : Keeps s (t.writeLink core e) := by
  unfold State.writeLink
  split
  · exact .ite (fun _ => h.lateWrite) (fun _ => h)
  · exact h

theorem enqueue (h : Keeps s t) {cl lvl : Nat} {e : QEnt} : Keeps s (t.enqueue cl lvl e) := h.writeLink.setCluster

theorem pushDeque (h : Keeps s t) {core : Nat} {e : QEnt} : Keeps s (t.pushDeque core e) :=
  .ite (fun _ => h.enqueue) (fun _ => h.writeLink.setCore)

theorem completeHeld (h : Keeps s t) {k : Nat} {f : Ctx → Ctx} (hf : ∀ c, (f c).shown = c.shown) : Keeps s (t.completeHeld k f) := by
  unfold State.completeHeld
  dsimp only
  split
  · exact h
  · exact h.setCtx (by simp [hf])

theorem setBar (h : Keeps s t) {core g : Nat} {b : Bar} : Keeps s (t.setBar core g b) := h.setCore

theorem latch (h : Keeps s t) {g d : Nat} : Keeps s (t.latch g d) := .ite (fun _ => h.same) (fun _ => h)

theorem latchOf (h : Keeps s t) {core g : Nat} : Keeps s (t.latchOf core g) := h.latch

theorem latchAll (h : Keeps s t) : Keeps s t.latchAll :=
  h.foldl fun _ _ => Keeps.rfl.foldl fun _ _ => .ite (fun _ => Keeps.rfl.latch) (fun _ => .rfl)

theorem liveDown (h : Keeps s t) {dc : Nat} : Keeps s (t.liveDown dc) := h.setDctx

theorem idleRow (h : Keeps s t) {k : Nat} : Keeps s (t.idleRow k) := .ite (fun _ => h) (fun _ => h.setRow id)

theorem freeCtx (h : Keeps s t) {k : Nat} : Keeps s (t.freeCtx k) := h.clearCtx.idleRow

theorem endContext (h : Keeps s t) {k : Nat} : Keeps s (t.endContext k) := by
  have hc := (((t.core (k / 8)).entitle (k % 8) (t.ctx k).uid).shown_releaseCtx (k % 8)).trans (Core.shown_entitle _ _ _)
  exact liveDown (freeCtx (h.setCore (by simpa only [Core.shown] using hc)))

theorem reevaluate (h : Keeps s t) {k : Nat} : Keeps s (t.reevaluate k) := by
  unfold State.reevaluate
  dsimp only
  split
  · refine .ite (fun _ => h) (fun _ => ?_)
    split
    · exact h
    · exact (h.setCore (Core.shown_waitcEval _ _ _ _)).completeHeld (by simp)
  · exact h

theorem poke (h : Keeps s t) {core : Nat} : Keeps s (t.poke core) := h.foldl fun _ _ => Keeps.rfl.reevaluate

theorem counterChanged (h : Keeps s t) {core n : Nat} : Keeps s (t.counterChanged core n) :=
  poke (foldl (h.setCore) fun _ _ => Keeps.rfl.enqueue)

theorem setCounter (h : Keeps s t) {core n : Nat} {v : BitVec 32} : Keeps s (t.setCounter core n v) := counterChanged (h.setCore)

theorem addCounter (h : Keeps s t) {core n : Nat} {v : BitVec 32} : Keeps s (t.addCounter core n v) := h.setCounter

theorem acquire (h : Keeps s t) {core scope : Nat} : Keeps s (t.acquire core scope) := .ite (fun _ => h) (fun _ => (h.setCore).setCluster)

theorem writeChain (h : Keeps s t) {head off : Nat} {l : List Nat} : Keeps s (t.writeChain head off l) := by
  induction l generalizing t head with
  | nil => exact h.pierWrite
  | cons a r ih => exact ih h.pierWrite

theorem freeSlot (h : Keeps s t) {a : Nat} : Keeps s (t.freeSlot a) := .ite (fun _ => h) (fun _ => h.pierWrite.pierWrite.pierWrite)

theorem wcntUp {e : Nat} (h : Keeps s t) (hu : t.wcntUp e = .ok u) : Keeps s u := by
  unfold State.wcntUp at hu
  split at hu
  · cases hu
    exact h
  · split at hu
    · cases hu
    · split at hu
      · cases hu
      · cases hu
        exact h.pierWrite

theorem wcntDown (h : Keeps s t) {e : Nat} : Keeps s (t.wcntDown e) := .ite (fun _ => h) (fun _ => h.pierWrite)

theorem wakeOne (h : Keeps s t) {p : Parked} : Keeps s (t.wakeOne p) :=
  .ite (fun _ => h.wcntDown.freeSlot.same)
    (fun _ => pierWrite (.ite (fun _ => h.wcntDown.pierWrite.pierWrite) (fun _ => h.wcntDown.pierWrite.pierWrite)))

theorem wakeWord (h : Keeps s t) {pa : Nat} : Keeps s (t.wakeWord pa) :=
  .ite (fun _ => h) (fun _ => h.writeChain.setWaitBit.foldl fun _ _ => Keeps.rfl.wakeOne)

theorem setFe (h : Keeps s t) {pa : Nat} {v : Bool} : Keeps s (t.setFe pa v) :=
  .ite (fun _ => h) (fun _ => .ite (fun _ => h.setMetaBit.wakeWord) (fun _ => h.setMetaBit))

theorem charge {core cost : Nat} (h : Keeps s t) (hu : t.charge core cost = some u) : Keeps s u := by
  unfold State.charge at hu
  dsimp only at hu
  split at hu
  · cases hu
  · obtain rfl := Option.some.inj hu
    exact .ite (fun _ => h) (fun _ => h.setRow fun hb => Nat.le_trans (Nat.sub_le _ _) hb)

/-! The register window. -/

theorem reply (h : Keeps s t) {q : FwReq} {n : Nat} : Keeps s (t.reply q n) := by
  unfold State.reply
  dsimp only
  split
  · exact .ite (fun _ => (h.completeHeld (by simp)).acquire) (fun _ => h)
  · exact h

theorem finish (h : Keeps s t) {q : FwReq} {n : Nat} : Keeps s (t.finish q n) := reply (h.same)

theorem mapGroup (h : Keeps s t) {entry pa n : Nat} : Keeps s (t.mapGroup entry pa n) := by
  induction n generalizing t with
  | zero => exact h
  | succ n ih => exact ih h.pierWrite

theorem restoreFe (h : Keeps s t) {stage pa n : Nat} : Keeps s (t.restoreFe stage pa n) := h.same

theorem mailboxWrite (h : Keeps s t) {v : Word} : Keeps s (t.mailboxWrite v) := by
  unfold State.mailboxWrite
  dsimp only
  split
  · exact h.same
  · refine .ite (fun _ => h.same) (fun _ => .ite (fun _ => .ite (fun _ => ?_) (fun _ => ?_)) (fun _ => ?_))
    · exact finish (h.same)
    · exact (mapGroup (restoreFe (h.same))).finish
    · exact finish (h.same)

theorem qsizeWrite (h : Keeps s t) {n : Nat} {v : Word} : Keeps s (t.qsizeWrite n v) := .ite (fun _ => h) (fun _ => h.setDctx)

theorem qtailWrite (h : Keeps s t) {n : Nat} {v : Word} : Keeps s (t.qtailWrite n v) := h.setDctx (by split <;> rfl)

theorem ulctlSet (h : Keeps s t) {p : Nat} {v : Word} : Keeps s (t.ulctlSet p v) := h.setPort

theorem rqrelSet (h : Keeps s t) {p : Nat} {v : Word} : Keeps s (t.rqrelSet p v) := .ite (fun _ => h) (fun _ => h.setPort)

theorem frzSet (h : Keeps s t) {v : Word} : Keeps s (t.frzSet v) := .ite (fun _ => doFreeze (h.same)) (fun _ => h.same)

theorem crepSet (h : Keeps s t) {c : Nat} {v : Word} : Keeps s (t.crepSet c v) := .ite (fun _ => h) (fun _ => h.setCluster)

theorem cstopSet (h : Keeps s t) {c : Nat} {v : Word} : Keeps s (t.cstopSet c v) := .ite (fun _ => h) (fun _ => h.setCluster)

theorem plainWrite (h : Keeps s t) {off : Nat} {v : Word} : Keeps s (t.plainWrite off v) := by
  refine .ite (fun _ => .ite (fun _ => h) (fun _ => ?_)) (fun _ => .ite (fun _ => .ite (fun _ => h) (fun _ => ?_))
    (fun _ => .ite (fun _ => .ite (fun _ => h.setPort) (fun _ => h)) (fun _ => .ite (fun _ => h.same) (fun _ => h.same))))
  · split
    · exact h.setDctx
    · exact h.setDctx
    · exact h
  · split
    · exact h.setDctx
    · exact h.setDctx
    · exact h.setDctx
    · exact h.setDctx
    · exact h

theorem winSet (h : Keeps s t) {off : Nat} {v : Word} : Keeps s (t.winSet off v) :=
  .ite (fun _ => h.plainWrite) (fun _ => .ite (fun _ => h.frzSet) (fun _ => .ite (fun _ => h.mailboxWrite) (fun _ =>
    .ite (fun _ => .ite (fun _ => h.qsizeWrite) (fun _ => h.qtailWrite)) (fun _ => .ite (fun _ => .ite (fun _ => h.crepSet) (fun _ => h.cstopSet))
      (fun _ => .ite (fun _ => h.ulctlSet) (fun _ => h.rqrelSet))))))

theorem winWrite (h : Keeps s t) {off n v : Nat} : Keeps s (t.winWrite off n v) := h.winSet

/-! Save areas, and the stop of a context at its handler. -/

theorem putLines (h : Keeps s t) {pa n : Nat} {line : Nat → Nat} : Keeps s (t.putLines pa n line) :=
  h.foldl fun _ _ => .ite (fun _ => Keeps.rfl.pierWrite) (fun _ => .rfl)

theorem putOpen (h : Keeps s t) {pa n : Nat} : Keeps s (t.putOpen pa n) := h.putLines.same

theorem putSaved (h : Keeps s t) {k : Nat} : Keeps s (t.putSaved k) := h.putLines

end Keeps

end Sys2Proof.Machine
end

section
/-! SUPPORT. Taking a trap, and what an instruction and an event lead to: the invariants carry over, and a context that is still in its slot keeps its mode and its
suspensions, or has taken a trap and stands at its handler (R246, R352). -/

set_option Elab.async false

namespace Sys2Proof.Machine

open Sys2Proof

/-- In supervisor mode at the handler, as taking a trap leaves a context (R352). -/
def Ctx.AtHandler (c : Ctx) : Prop := c.super = true ∧ c.pc = c.sr.tvec

/-- What a step may do to the mode and the suspensions of a continuation that stays in its slot (R246). -/
def Ctx.Ends (c d : Ctx) : Prop := c.occ = true → d.occ = true → d.uid = c.uid → sameMode c.sr.xstat d.sr.xstat ∨ d.AtHandler

/-- A context afterwards stands at its handler, or is as it was and leaves no handler. -/
def Ctx.Rests (c d : Ctx) : Prop := d.occ = true → d.AtHandler ∨ (d.shown = c.shown ∧ (c.AtHandler → d.AtHandler))

/-- What every instruction and every event but TRET, a pickup and a switch leads to. -/
structure Leads (s t : State) : Prop extends Forms s t where
  ends : ∀ k, (s.ctx k).Ends (t.ctx k)

/-- What taking traps leads to. -/
structure Rests (s t : State) : Prop extends Forms s t where
  rests : ∀ k, (s.ctx k).Rests (t.ctx k)

theorem Ctx.Stays.ends {c d : Ctx} (h : c.Stays d) : c.Ends d := fun _ hd _ => .inl (h hd).2.2

theorem Ctx.Ends.rests {c d e : Ctx} (h : c.Ends d) (g : d.Rests e) : c.Ends e := fun hc he hu => by
  obtain hh | ⟨hs, hh⟩ := g he
  · exact .inr hh
  · obtain ⟨ho, hv, hx, -⟩ := Ctx.shown_iff.1 hs
    exact (h hc (ho ▸ he) (hv ▸ hu)).imp (fun hm => hx ▸ hm) hh

theorem Ctx.Rests.trans {c d e : Ctx} (h : c.Rests d) (g : d.Rests e) : c.Rests e := fun he => by
  obtain hh | ⟨hs, hh⟩ := g he
  · exact .inl hh
  · obtain hd | ⟨ht, hd⟩ := h ((Ctx.shown_iff.1 hs).1 ▸ he)
    · exact .inl (hh hd)
    · exact .inr ⟨hs.trans ht, hh ∘ hd⟩

theorem Ctx.Rests.refl (c : Ctx) : c.Rests c := fun _ => .inr ⟨rfl, id⟩

namespace Rests

variable {s t u : State}

protected theorem refl (s : State) : Rests s s := ⟨.refl s, fun _ => .refl _⟩
protected theorem trans (h : Rests s t) (g : Rests t u) : Rests s u := ⟨h.toForms.trans g.toForms, fun k => (h.rests k).trans (g.rests k)⟩

/-- An operation that leaves the contexts alone. -/
theorem of_ctxs (h : Forms s t) (hc : t.ctxs = s.ctxs) : Rests s t := ⟨h, fun k => by simp only [State.ctx, hc, Ctx.Rests.refl]⟩

/-- A write of one context. -/
theorem of_setCtx (h : Forms s t) {k : Nat} {c : Ctx} (ht : t.ctxs = tset s.ctxs k c) (hc : (s.ctx k).Rests c) : Rests s t := by
  refine ⟨h, fun j => ?_⟩
  simp only [State.ctx, ht, tget_tset]
  split
  · subst_vars
    exact hc
  · exact .refl _

end Rests

theorem Keeps.leads {s t : State} (h : Keeps s t) : Leads s t := ⟨h.toForms, fun k => (h.stays k).ends⟩
theorem Leads.rests {s t u : State} (h : Leads s t) (g : Rests t u) : Leads s u := ⟨h.toForms.trans g.toForms, fun k => (h.ends k).rests (g.rests k)⟩
theorem Keeps.rests {s t u : State} (h : Keeps s t) (g : Rests t u) : Leads s u := h.leads.rests g

/-! The registers that taking a trap writes. -/

theorem fld_lt (x lo n : Nat) : fld x lo n < 2 ^ n := Nat.mod_lt _ (Nat.two_pow_pos n)

theorem Ctx.enter_xstat_lt (c : Ctx) (t : Trap) : (c.enter t).sr.xstat.toNat < 64 := by
  have hs := fld_lt c.sr.xstat.toNat 0 1
  have hl := fld_lt c.sr.xstat.toNat 2 2
  have ha : fld c.sr.xstat.toNat 2 2 ||| (b2n (c.l0.lc != 0) + 2 * b2n (c.l1.lc != 0)) < 2 ^ 2 := by
    refine Nat.or_lt_two_pow hl ?_
    cases c.l0.lc != 0 <;> cases c.l1.lc != 0 <;> decide
  simp only [Ctx.enter, BitVec.toNat_ofNat]
  omega

theorem Ctx.enter_super (c : Ctx) (t : Trap) : (c.enter t).super = true := by
  have hodd : ∀ a b d : Nat, (BitVec.ofNat 64 (1 + 2 * a + 4 * b + 16 * d)).getLsbD 0 = true := fun a b d => by
    rw [BitVec.getLsbD_ofNat, Nat.testBit_zero, decide_eq_true (p := _ % 2 = 1) (by omega)]
    rfl
  exact hodd _ _ _

theorem Ctx.enter_atHandler (c : Ctx) (t : Trap) : (c.enter t).AtHandler := ⟨c.enter_super t, rfl⟩

theorem Ctx.enter_tidyBits {c : Ctx} (t : Trap) (h : c.tidyBits) : (c.enter t).tidyBits := ⟨c.enter_xstat_lt t, h.2⟩

namespace State

/-- Writing lines of a save area leaves every context alone. -/
theorem putLines_ctxs (s : State) (pa n : Nat) (line : Nat → Nat) : (s.putLines pa n line).ctxs = s.ctxs := by
  refine foldl_keeps (P := fun u => State.ctxs u = s.ctxs) (fun u i hu => ?_) _ rfl
  split
  · exact (pierWrite_ctxs _ _ _ _).trans hu
  · exact hu

theorem idleRow_ctxs (s : State) (k : Nat) : (s.idleRow k).ctxs = s.ctxs := by
  unfold idleRow
  dsimp only
  split <;> rfl

/-- The stop of a context at its handler marks it as stopped, and changes no other (R353). -/
theorem stopAt_ctxs (s : State) (k : Nat) : (s.stopAt k).ctxs = tset s.ctxs k { s.ctx k with stopped := true } := by
  have hp : (s.putSaved k).ctxs = s.ctxs := putLines_ctxs _ _ _ _
  unfold stopAt
  dsimp only
  generalize s.putSaved k = t at hp
  simp only [setCluster_ctxs, idleRow_ctxs, setCtx, hp]

end State

theorem Keeps.stopAt {s t : State} (h : Keeps s t) {k : Nat} : Keeps s (t.stopAt k) := by
  unfold State.stopAt
  have hp : (t.putSaved k).ctxs = t.ctxs := State.putLines_ctxs _ _ _ _
  have hk : (t.putSaved k).ctx k = t.ctx k := by simp only [State.ctx, hp]
  exact setCluster (idleRow (h.putSaved.setCtx (by rw [hk]; rfl)))

namespace Rests

variable {s t u : State}

theorem stopAt (k : Nat) : Rests s (s.stopAt k) :=
  of_setCtx Keeps.rfl.stopAt.toForms (s.stopAt_ctxs k) fun _ => .inr ⟨rfl, id⟩

/-- The report of a trap leaves the contexts alone. -/
theorem report (k cause : Nat) (pc : Word) : Rests s (s.report k cause pc) := by
  unfold State.report
  dsimp only
  split
  · exact .refl s
  · exact of_ctxs (Keeps.rfl.setCluster).toForms rfl

/-- Taking a trap keeps the invariants, and puts its context at the handler. -/
theorem enterTrap (k : Nat) (t : Trap) : Rests s (s.enterTrap k t) := by
  have he : Rests s (s.setCtx k ((s.ctx k).enter t)) :=
    of_setCtx ⟨id, id, fun hs => ⟨all_tset (P := Ctx.tidyBits) hs.1 k (Ctx.enter_tidyBits t (hs.ctx k)), hs.2⟩⟩ rfl (fun _ => .inl (Ctx.enter_atHandler _ _))
  unfold State.enterTrap
  dsimp only
  split
  · exact (he.trans (report _ _ _)).trans (stopAt k)
  · exact he.trans (report _ _ _)

theorem raise (t : Trap) : Rests s (s.raise t) := by
  unfold State.raise
  dsimp only
  split
  · exact enterTrap _ _
  · exact of_setCtx (Keeps.rfl.setCx).toForms rfl fun _ => .inr ⟨rfl, id⟩

theorem trapCtx (k : Nat) (t : Trap) : Rests s (s.trapCtx k t) :=
  have h : Rests { s with cur := k } (State.raise { s with cur := k } t) := raise t
  ⟨⟨h.mem, h.buffers, h.regs⟩, h.rests⟩

end Rests

theorem Keeps.raise {s t : State} (h : Keeps s t) {tr : Trap} : Leads s (t.raise tr) := h.rests (.raise tr)
theorem Keeps.trapCtx {s t : State} (h : Keeps s t) {k : Nat} {tr : Trap} : Leads s (t.trapCtx k tr) := h.rests (.trapCtx k tr)

/-! How an instruction and an event end. -/

/-- What an instruction's body may answer: every state that it leaves is one that its operations keep, or that traps led to. -/
def Eff.Fine (s : State) : Eff → Prop
  | .done t => Keeps s t
  | .jump t _ => Keeps s t
  | .hold _ t => Keeps s t
  | .gone t => Leads s t
  | .trap _ => True
  | .stall => True

/-- The same for a body over the context alone. -/
def CtxEff.Fine (c : Ctx) : CtxEff → Prop
  | .done d => d.shown = c.shown
  | .jump d _ => d.shown = c.shown
  | .trap _ => True

/-- Every state that an outcome names is one that `s` leads to. -/
def Fine (s : State) (r : Host.Outcome State Fault Refusal) : Prop := ∀ t, r = .next t → Leads s t

namespace Fine

variable {i : Instr} {o : Ops} {touch : List Nat} {s : State}

theorem next {t : State} (h : Leads s t) : Fine s (.next t) := fun _ ht => by
  cases ht
  exact h

theorem finishWith {e : Eff} (h : e.Fine s) : Fine s (finishWith i o s e) := by
  cases e with
  | done t => exact next (Keeps.setCx h (Ctx.shown_retire _ _ _)).leads
  | jump t pc => exact next (Keeps.setCx h (Ctx.shown_jump _ _ _)).leads
  | trap t => exact next Keeps.rfl.raise
  | hold w t => exact next (Keeps.setCx h).leads
  | stall => exact next Keeps.rfl.same.leads
  | gone t => exact next h

theorem issue {body : State → Eff} (h : (body s).Fine s) : Fine s (issue i o touch body s) := by
  unfold Machine.issue
  dsimp only
  split
  · exact nofun
  · split
    · exact finishWith h
    · split
      · exact next Keeps.rfl.raise
      · split
        · exact finishWith h
        · exact next (Keeps.rfl.setCx (Ctx.shown_retire _ _ _)).leads

theorem issueV {masks : Nat} {body : State → Eff} (h : (body s).Fine s) : Fine s (issueV i o masks touch body s) := by
  unfold Machine.issueV
  dsimp only
  split
  · exact nofun
  · split
    · exact finishWith h
    · split
      · exact next Keeps.rfl.raise
      · exact finishWith h

theorem onCtx {t : State} {f : Ctx → CtxEff} (hk : Keeps s t) (h : (f t.cx).Fine t.cx) : (onCtx f t).Fine s := by
  unfold Machine.onCtx
  split <;> rename_i hf <;> rw [hf] at h
  · exact hk.setCx h
  · exact hk.setCx h
  · trivial

theorem scalar {f : Ctx → CtxEff} (h : ∀ c, (f c).Fine c) : Fine s (scalar i o touch f s) := issue (onCtx .rfl (h _))

theorem lanewise {masks : Nat} {f : Ctx → CtxEff} (h : ∀ c, (f c).Fine c) : Fine s (lanewise i o masks touch f s) := issueV (onCtx .rfl (h _))

/-- An event whose effect leads somewhere. -/
theorem event {b : Bool} {f : State → State} (h : Leads s (f s)) : Fine s (event b f s) := by
  refine next ?_
  split
  · exact h
  · exact Keeps.rfl.leads

end Fine

end Sys2Proof.Machine
end

section
/-! SUPPORT. What accesses, from their issue to their pieces at the piers, lead to. -/

set_option Elab.async false

namespace Sys2Proof.Machine

open Sys2Proof

namespace Eff.Fine

variable {s t : State}

theorem done (h : Keeps s t) : (Eff.done t).Fine s := h
theorem jump {pc : Word} (h : Keeps s t) : (Eff.jump t pc).Fine s := h
theorem hold {w : Wait} (h : Keeps s t) : (Eff.hold w t).Fine s := h
theorem gone (h : Leads s t) : (Eff.gone t).Fine s := h
theorem trap {tr : Trap} : (Eff.trap tr).Fine s := True.intro
theorem stall : Eff.stall.Fine s := True.intro

/-- A branch of a body. -/
theorem ite {p : Prop} [Decidable p] {e f : Eff} (he : p → e.Fine s) (hf : ¬p → f.Fine s) : (if p then e else f).Fine s := by
  split
  · exact he ‹_›
  · exact hf ‹_›

end Eff.Fine

theorem Fine.eventK {b : Bool} {f : State → State} {s : State} (h : Keeps s (f s)) : Fine s (Machine.event b f s) := .event h.leads

namespace Keeps

variable {s t u : State}

/-! Caches and the homes of bytes. -/

theorem forget (h : Keeps s t) {core : Nat} {p : Place} {pa n : Nat} : Keeps s (t.forget core p pa n) := h.setCore.setCluster

theorem clusterLine (h : Keeps s t) {cl : Nat} {p : Place} {pa : Nat} : Keeps s (t.clusterLine cl p pa).2 := by
  unfold State.clusterLine
  dsimp only
  split
  · exact h
  · exact h.setCluster

theorem loadPiece (h : Keeps s t) {core : Nat} {nc : Bool} {p : Piece} : Keeps s (t.loadPiece core nc p).2 := by
  unfold State.loadPiece
  dsimp only
  split
  · exact h
  · split
    · exact h.forget
    · split
      · exact h
      · exact h.clusterLine.setCore

theorem storeHome (h : Keeps s t) {p : Place} {pa n v : Nat} : Keeps s (t.storeHome p pa n v) := by
  unfold State.storeHome
  dsimp only
  exact .ite (fun _ => h.foldl fun _ _ => .ite (fun _ => .rfl) (fun _ => Keeps.rfl.writePlace)) (fun _ => h.writePlace)

theorem afterStore (h : Keeps s t) {core : Nat} {b : Bool} {p : Place} {pa n : Nat} : Keeps s (t.afterStore core b p pa n) := by
  unfold State.afterStore
  dsimp only
  exact .ite (fun _ => h.forget.foldl fun _ _ => .ite (fun _ => Keeps.rfl.setCore) (fun _ => .rfl)) (fun _ => h.forget)

theorem storePiece (h : Keeps s t) {core : Nat} {nc : Bool} {p : Piece} : Keeps s (t.storePiece core nc p) :=
  .ite (fun _ => h.winWrite) (fun _ => h.storeHome.afterStore)

theorem atomicPiece (h : Keeps s t) {core op n y c : Nat} {p : Piece} : Keeps s (t.atomicPiece core op n y c p).2 := by
  unfold State.atomicPiece
  dsimp only
  exact afterStore (.ite (fun _ => h) (fun _ => h.storeHome))

/-! Accesses in flight. -/

theorem startAccess (h : Keeps s t) {core : Nat} {a : Access} : Keeps s (t.startAccess core a) := h.setCore
theorem dropAccess (h : Keeps s t) {core id : Nat} : Keeps s (t.dropAccess core id) := h.setCore
theorem setAccess (h : Keeps s t) {core : Nat} {a : Access} : Keeps s (t.setAccess core a) := h.setCore

theorem settle (h : Keeps s t) {core : Nat} {a : Access} : Keeps s (t.settle core a) := by
  unfold State.settle
  split
  · exact h.setAccess
  · exact h.setAccess
  · exact h.dropAccess
  · exact h.dropAccess.setCore

theorem performed (h : Keeps s t) {core : Nat} {a : Access} : Keeps s (t.performed core a) := .ite (fun _ => h.settle) (fun _ => h.setAccess)

theorem unfill (h : Keeps s t) {core : Nat} {a : Access} : Keeps s (t.unfill core a) := by
  unfold State.unfill
  split
  · dsimp only
    split
    · exact h.setCore.setCtx
    · exact h
  · exact h

theorem failAccess (h : Keeps s t) {core : Nat} {a : Access} {va : Word} : Keeps s (t.failAccess core a va) := by
  have hu := (h.dropAccess (core := core) (id := a.id)).unfill (core := core) (a := a)
  unfold State.failAccess
  dsimp only
  generalize (t.dropAccess core a.id).unfill core a = u at hu ⊢
  refine .ite (fun _ => hu) (fun _ => hu.setCtx ?_)
  have hw : ∀ (p : Prop) [Decidable p] (c : Ctx), Ctx.shown (if p then { c with wait := .none, held := none } else c) = c.shown := fun p _ c => by split <;> rfl
  exact (hw _ _).trans (Ctx.shown_marks _ false a.regs)

theorem clearPoison (h : Keeps s t) {pa n : Nat} : Keeps s (t.clearPoison pa n) := h.same

theorem setArmed (h : Keeps s t) {a : Tbl Armed} : Keeps s { t with armed := a } := h.same

theorem healed (h : Keeps s t) {a : Access} : Keeps s (t.healed a) := .ite (fun _ => h.same) (fun _ => h)

theorem pieceEffect (h : Keeps s t) {core : Nat} {a : Access} {p : Piece} : Keeps s (t.pieceEffect core a p).2 := by
  unfold State.pieceEffect
  split
  · exact h.loadPiece
  · exact h.storePiece
  · exact h.atomicPiece
  · exact h.forget
  · exact h

theorem performPiece (h : Keeps s t) {core i : Nat} {a : Access} {p : Piece} : Keeps s (t.performPiece core a i p) := by
  unfold State.performPiece
  split
  · exact h.failAccess
  · exact performed (healed (pieceEffect (.ite (fun _ => h.acquire) (fun _ => h))))

theorem perhaps (h : Keeps s t) {core : Nat} {a : Access} {p : Piece} : Keeps s (t.perhaps core a p) :=
  .ite (fun _ => h) (fun _ => .ite (fun _ => h.fresh.pieceEffect) (fun _ => h.fresh))

theorem dropBlock (h : Keeps s t) {core pa hdr : Nat} : Keeps s (t.dropBlock core pa hdr) := h.forget.forget

/-- A write of L-memory that keeps its form. -/
theorem setLmem (h : Keeps s t) {m : Mem} (hm : Mem.wf t.co.lmem = true → m.wf = true) : Keeps s (t.setCo { t.co with lmem := m }) :=
  h.setCore' (fun hc => ⟨hm hc.1, hc.2⟩) id

/-- A write of S-memory that keeps its form. -/
theorem setSmem (h : Keeps s t) {m : Mem} (hm : Mem.wf t.co.smem = true → m.wf = true) : Keeps s (t.setCo { t.co with smem := m }) :=
  h.setCore' (fun ⟨hl, ha, hw, hs⟩ => ⟨hl, ha, hw, hm hs⟩) id

end Keeps

namespace Fine

variable {s : State} {o : Ops}

theorem pierAccess (core id i : Nat) : Fine s (execPierAccess core id i s) := by
  refine .eventK ?_
  split
  · exact .rfl
  · exact .ite (fun _ => Keeps.rfl.performPiece) (fun _ => .rfl)

theorem resultWriteback (core n : Nat) : Fine s (execResultWriteback core n s) := by
  refine .eventK ?_
  dsimp only
  split
  · exact .rfl
  · refine Keeps.rfl.setCore.setCtx ?_
    have hf : ∀ {α : Type} {f : Ctx → α → Ctx} (_ : ∀ c a, (f c a).shown = c.shown) (l : List α) (c : Ctx), (l.foldl f c).shown = c.shown :=
      fun hf l c => foldl_keeps (P := fun d => Ctx.shown d = c.shown) (fun d a hd => (hf d a).trans hd) l rfl
    have hv : ∀ (l : List (Nat × Vec)) (c : Ctx), (l.foldl (fun x e => x.setV e.1 e.2) c).shown = c.shown := hf fun c e => c.shown_setV _ _
    simp [hf, hv]

theorem dcacheLineExpiry (core line : Nat) : Fine s (execDcacheLineExpiry core line s) := .eventK Keeps.rfl.setCore

theorem clusterCacheLineExpiry (cluster line : Nat) : Fine s (execClusterCacheLineExpiry cluster line s) := .eventK Keeps.rfl.setCluster

theorem remoteAccessTimeout (core id : Nat) : Fine s (execRemoteAccessTimeout core id s) := by
  refine .eventK ?_
  split
  · exact .rfl
  · split
    · exact (Keeps.rfl.foldl fun _ _ => Keeps.rfl.perhaps).failAccess
    · exact .rfl

theorem remoteAccessArrival (pa : Nat) (req : RemoteReq) : Fine s (execRemoteAccessArrival pa req s) := by
  unfold execRemoteAccessArrival
  refine .eventK ?_
  split
  · exact .rfl
  · exact Keeps.rfl.storeHome.clearPoison
  · exact .ite (fun _ => .rfl) (fun _ => Keeps.rfl.storeHome)

theorem hostAccess (off len : Nat) (data : Option Nat) : Fine s (execHostAccess off len data s) := by
  unfold execHostAccess
  refine .eventK ?_
  split
  · exact .rfl
  · exact Keeps.rfl.storeHome.clearPoison

/-! Instructions of pages 0, 2 and 3 that access memory. -/

theorem loadOp (i : Instr) (w n : Nat) (signed : Bool) : Fine s (loadOp i o w n signed s) := by
  refine .issue ?_
  split
  · exact .trap
  · exact .done (Keeps.rfl.setCx (Ctx.shown_marks _ _ _)).startAccess

theorem storeOp (i : Instr) (w n : Nat) : Fine s (storeOp i o w n s) := by
  refine .issue ?_
  split
  · exact .trap
  · exact .done Keeps.rfl.startAccess

theorem ldl : Fine s (execLdl o s) := by
  unfold execLdl
  refine .issue ?_
  dsimp only
  split
  · exact .trap
  · exact .ite (fun _ => .stall) (fun _ => .done Keeps.rfl.pendResult)

theorem stl : Fine s (execStl o s) := by
  unfold execStl
  refine .issue ?_
  dsimp only
  split
  · exact .trap
  · split
    · exact .trap
    · exact .ite (fun _ => .stall) (fun _ => .done (Keeps.rfl.setLmem fun hm => wf_mwrite hm _ _ _))

theorem feOp (i : Instr) (form : FeForm) (dflt : Nat) : Fine s (feOp i o form dflt s) := by
  unfold Machine.feOp
  refine .issue ?_
  refine .ite (fun _ => .stall) (fun _ => .ite (fun _ => .trap) (fun _ => .ite (fun _ => .trap) (fun _ => ?_)))
  split
  · exact .trap
  · exact .ite (fun _ => .hold Keeps.rfl.startAccess) (fun _ => .done (Keeps.rfl.setCx (Ctx.shown_marks _ _ _)).startAccess)

theorem pst2 : Fine s (execPst2 o s) := by
  refine .issue ?_
  refine .ite (fun _ => .stall) (fun _ => .ite (fun _ => .trap) (fun _ => .ite (fun _ => .trap) (fun _ => ?_)))
  split
  · exact .trap
  · exact .ite (fun _ => .stall) (fun _ => .hold Keeps.rfl.same)

theorem pref : Fine s (execPref o s) := by
  refine .issue ?_
  dsimp only
  split
  · exact .done .rfl
  · split
    · exact .done .rfl
    · exact .ite (fun _ => .done .rfl) (fun _ => .ite (fun _ => .done Keeps.rfl.clusterLine) (fun _ =>
        .ite (fun _ => .done Keeps.rfl.clusterLine) (fun _ => .done Keeps.rfl.clusterLine.setCo)))

theorem fence : Fine s (execFence o s) := by
  have ha : Keeps s (if ordOf o 6 = 2 then s else s.acquire s.coreNo (scopeOf o 6)) := .ite (fun _ => .rfl) (fun _ => Keeps.rfl.acquire)
  exact .issue (.ite (fun _ => .stall) (fun _ => .done (.ite (fun _ => ha.same) (fun _ => ha))))

theorem fencex : Fine s (execFencex o s) := .issue (.ite (fun _ => .stall) (fun _ => .done (.ite (fun _ => .rfl) (fun _ => Keeps.rfl.setCo))))

theorem atomicOp (i : Instr) (op : Nat) : Fine s (atomicOp i o op s) := by
  unfold Machine.atomicOp
  refine .issue ?_
  refine .ite (fun _ => .trap) (fun _ => ?_)
  split
  · exact .trap
  · exact .done (Keeps.rfl.setCx (Ctx.shown_marks _ _ _)).startAccess

theorem gacc : Fine s (execGacc o s) := by
  refine .issue ?_
  dsimp only
  split
  · exact .trap
  · exact .done Keeps.rfl.startAccess

theorem garr : Fine s (execGarr o s) := by
  refine .issue (.ite (fun _ => .stall) (fun _ => ?_))
  dsimp only
  split
  · exact .trap
  · exact .ite (fun _ => .stall) (fun _ => .hold Keeps.rfl.startAccess)

theorem garm : Fine s (execGarm o s) := by
  refine .issue ?_
  dsimp only
  split
  · exact .trap
  · refine .ite (fun _ => .stall) (fun _ => .ite (fun _ => .trap) (fun _ => ?_))
    split
    · refine .done (Keeps.setArmed (Keeps.dropBlock (Keeps.clearPoison ?_)))
      exact (Keeps.rfl.pierWrite.pierWrite.foldl fun _ _ => Keeps.rfl.pierWrite).foldl fun _ _ => Keeps.rfl.pierWrite
    · exact .trap

theorem gstat : Fine s (execGstat o s) := by
  refine .issue ?_
  dsimp only
  split
  · exact .trap
  · exact .done (Keeps.rfl.setCx (Ctx.shown_marks _ _ _)).startAccess

end Fine

end Sys2Proof.Machine
end

section
/-! SUPPORT. What the matrix slice and the gang join lead to. -/

set_option Elab.async false

namespace Sys2Proof.Machine

open Sys2Proof

namespace Core

variable (c : Core)

@[simp] theorem shown_renorm (n fmt : Nat) (js : List Nat) : (c.renorm n fmt js).shown = c.shown := rfl
@[simp] theorem shown_stale (n : Nat) (js : List Nat) : (c.stale n js).shown = c.shown := rfl

@[simp] theorem shown_freeEnded : c.freeEnded.shown = c.shown := by
  refine shown_foldl _ (fun d n => ?_) _
  split <;> rfl

@[simp] theorem shown_refresh (first len fmt : Nat) : (c.refresh first len fmt).1.shown = c.shown := by
  refine foldl_keeps (P := fun r : Core × Nat => r.1.shown = c.shown) (fun r i hr => ?_) _ rfl
  dsimp only
  split
  · exact hr
  · exact (shown_renorm _ _ _ _).trans hr

end Core

/-- The configuration of the matrix slice is in no field that the invariants look at. -/
theorem Ctx.shown_setMctl (c : Ctx) (m : BitVec 128) : Ctx.shown { c with sr := { c.sr with mctl := m } } = c.shown := rfl

/-- The number that the current instruction's context has is in no field that the invariants look at. -/
theorem Leads.of_cur {s t : State} {k : Nat} (h : Leads { s with cur := k } t) : Leads s t := ⟨⟨h.mem, h.buffers, h.regs⟩, h.ends⟩

/-- What every step of a fold leads to by traps, the fold does. -/
theorem Rests.foldl {α : Type} {s : State} {f : State → α → State} (hf : ∀ u a, Rests u (f u a)) (l : List α) : Rests s (l.foldl f s) :=
  foldl_keeps (P := Rests s) (fun u a hu => hu.trans (hf u a)) l (.refl s)

namespace Keeps

variable {s t u : State}

theorem unbind (h : Keeps s t) {n : Nat} : Keeps s (unbind t n) := by
  unfold Machine.unbind
  split
  · exact h
  · exact h.setCx.setCo (by simp only [Core.shown_setAcc])

theorem bind {k n p : Nat} (h : Keeps s t) (hu : Machine.bind t k n = some (p, u)) : Keeps s u := by
  unfold Machine.bind at hu
  dsimp only at hu
  split at hu
  · obtain ⟨rfl, rfl⟩ := Prod.mk.inj (Option.some.inj hu)
    exact h
  · split at hu
    · cases hu
    · obtain ⟨rfl, rfl⟩ := Prod.mk.inj (Option.some.inj hu)
      exact h.setCtx.setCore (Core.shown_setAcc _ _ _)

theorem productDone (h : Keeps s t) {core : Nat} {m : BitVec 128} : Keeps s (t.productDone core m) := .ite (fun _ => h.addCounter) (fun _ => h)

theorem meetGangs (h : Keeps s t) {row : Nat} {fresh : Option Nat} : Keeps s (t.meetGangs row fresh) := by
  unfold State.meetGangs
  dsimp only
  refine h.foldl fun u e => ?_
  split
  · exact Keeps.rfl.setCtx
  · exact .rfl

theorem endOp (h : Keeps s t) {core : Nat} {m : MatOp} {a : Acc} : Keeps s (t.endOp core m a) := by
  unfold State.endOp
  dsimp only
  refine meetGangs (productDone (h.setCore ?_))
  rw [Core.shown_setAcc, Core.shown_freeEnded]
  rfl

end Keeps

theorem Eff.Fine.retryOr {s t : State} (h : Keeps s t) {c : Ctx} {now : Nat} {tr : Trap} : (retryOr c now tr t).Fine s := .ite (fun _ => .trap) (fun _ => .hold h)

namespace Fine

variable {s : State} {o : Ops}

/-- A retry leads where its instruction does. -/
theorem retryEvent {core slot : Nat} {f : Instr → State → Option (Host.Outcome State Fault Refusal)} (hf : ∀ i u r, f i u = some r → Fine u r) : Fine s (retryEvent core slot f s) := by
  unfold Machine.retryEvent
  dsimp only
  split
  · split
    · split
      · rename_i t ht
        refine next ?_
        split
        · exact (Keeps.rfl.setCtx).leads
        · exact (hf _ _ _ ht t rfl).of_cur
      · rename_i i _ _ r _ hr
        exact fun t ht => (hf _ _ _ hr t ht).of_cur
      · exact next Keeps.rfl.leads
    · exact next Keeps.rfl.leads
  · exact next Keeps.rfl.leads

theorem tclaim : Fine s (execTclaim o s) := by
  refine .issue (.ite (fun _ => .retryOr .rfl) (fun _ => .ite (fun _ => .stall) (fun _ => .done (Keeps.rfl.setCo ?_))))
  refine Core.shown_foldl _ (fun d n => ?_) _
  rfl

theorem trel : Fine s (execTrel o s) := by
  refine .issue (.ite (fun _ => .done (Keeps.rfl.foldl fun _ _ => Keeps.rfl.unbind)) (fun _ => .ite (fun _ => .stall) (fun _ => .done (Keeps.rfl.setCo ?_))))
  refine Core.shown_foldl _ (fun d n => ?_) _
  split <;> rfl

theorem tscl : Fine s (execTscl o s) := by
  refine .issue (.ite (fun _ => .trap) (fun _ => .ite (fun _ => .trap) (fun _ => .ite (fun _ => .stall) (fun _ => .done ?_))))
  exact Keeps.rfl.setSmem fun hm => wf_mblit hm _ _

theorem mcfg : Fine s (execMcfg o s) := by
  unfold execMcfg
  refine .issue ?_
  dsimp only
  exact .ite (fun _ => .trap) (fun _ => .done (Keeps.rfl.setCx (Ctx.shown_setMctl _ _)))

theorem productOp (i : Instr) (op ta tb b : Nat) : Fine s (productOp i o op ta tb b s) := by
  refine .issue ?_
  dsimp only
  split
  · exact .stall
  · refine .ite (fun _ => .trap) (fun _ => ?_)
    split
    · exact .trap
    · refine .ite (fun _ => .done Keeps.rfl.productDone) (fun _ => .ite (fun _ => .retryOr .rfl) (fun _ => .ite (fun _ => .hold (Keeps.rfl.setCx).meetGangs)
        (fun _ => .ite (fun _ => .stall) (fun _ => ?_))))
      split
      · exact .stall
      · rename_i t ht
        split
        · exact .stall
        · rename_i p u hu
          exact .done ((Keeps.rfl.charge ht).bind hu).setCo

/-- Members that start together: the slice of each holds its operation, and its instruction completes. -/
theorem gangJoin (row : Nat) (mask : BitVec 8) : Fine s (execGangJoin row mask s) := by
  refine .event ?_
  dsimp only
  split
  · exact Keeps.rfl.leads
  · split
    · exact Keeps.rfl.rests (Rests.foldl (fun _ _ => .trapCtx _ _) _)
    · refine Keeps.leads ?_
      split
      · exact .rfl
      · split
        · exact .rfl
        · rename_i s1 h1
          split
          · exact .rfl
          · rename_i t ht
            have hk : Keeps s t := by
              refine foldl_keeps (P := fun acc : Option State => ∀ u, acc = some u → Keeps s u) (fun acc e ha u hu => ?_) _ (fun u hu => ?_) t ht
              · split at hu
                · cases hu
                · split at hu
                  · cases hu
                  · rename_i x _ p y hy
                    obtain rfl := Option.some.inj hu
                    exact ((ha x rfl).bind hy).setCore.completeHeld fun _ => rfl
              · obtain rfl := Option.some.inj hu
                exact Keeps.rfl.charge h1
            split
            · exact hk
            · refine Keeps.foldl ?_ fun _ _ => Keeps.rfl.setCore
              exact foldl_keeps (P := fun r : State × List (Nat × Nat) => Keeps s r.1) (fun r e hr => hr.setCore (Core.shown_refresh _ _ _ _)) _
                (hk.setCore (Core.shown_refresh _ _ _ _))

theorem gangWaitExpiry (core slot : Nat) : Fine s (execGangWaitExpiry core slot s) := by
  refine .event ?_
  dsimp only
  split
  · split
    · exact Keeps.rfl.trapCtx
    · exact Keeps.rfl.leads
  · exact Keeps.rfl.leads

theorem matrixOpStart (core : Nat) : Fine s (execMatrixOpStart core s) := by
  refine .eventK ?_
  dsimp only
  split
  · exact .rfl
  · exact .ite (fun _ => .rfl) (fun _ => .ite (fun _ => Keeps.rfl.setCore) (fun _ => Keeps.rfl.setCore
      ((Core.shown_refresh _ _ _ _).trans (Core.shown_refresh _ _ _ _))))

theorem matrixOpEnd (core : Nat) : Fine s (execMatrixOpEnd core s) := by
  refine .eventK ?_
  dsimp only
  split
  · exact .rfl
  · refine .ite (fun _ => .rfl) (fun _ => .ite (fun _ => Keeps.rfl.foldl fun _ _ => Keeps.rfl.endOp) (fun _ => ?_))
    split
    · exact .rfl
    · rename_i t ht
      exact (Keeps.rfl.charge ht).foldl fun _ _ => Keeps.rfl.endOp

theorem tclaimRetry (core slot : Nat) : Fine s (execTclaimRetry core slot s) := .retryEvent fun i u r hr => by
  split at hr
  · exact Option.some.inj hr ▸ tclaim
  · cases hr

theorem tnorm : Fine s (execTnorm o s) := by
  refine .issue (.ite (fun _ => .trap) (fun _ => .ite (fun _ => .trap) (fun _ => .ite (fun _ => .stall) (fun _ => .done ?_))))
  exact Keeps.pendResult (.ite (fun _ => Keeps.rfl.setCo (Core.shown_renorm _ _ _ _)) (fun _ => .rfl))

theorem tstat : Fine s (execTstat o s) := .issue (.ite (fun _ => .stall) (fun _ => .done Keeps.rfl.pendResult))

theorem tzero : Fine s (execTzero o s) := by
  refine .issue (.ite (fun _ => .stall) (fun _ => ?_))
  split
  · exact .retryOr .rfl
  · rename_i p t ht
    exact .done ((Keeps.rfl.bind ht).setCo (Core.shown_setAcc _ _ _))

/-- The bytes of a conversion go to L-memory one cell after the other (R212). -/
theorem tcvt : Fine s (execTcvt o s) := by
  refine .issue ?_
  dsimp only
  refine .ite (fun _ => .trap) (fun _ => ?_)
  split
  · exact .trap
  · split
    · exact .trap
    · refine .ite (fun _ => .stall) (fun _ => .done ?_)
      generalize hr : List.foldl _ (s.co.lmem, 0) _ = r
      have hm : Mem.wf s.co.lmem = true → Mem.wf r.1 = true := fun hs =>
        hr ▸ foldl_keeps (P := fun r : Mem × Nat => Mem.wf r.1 = true) (fun _ _ hw => wf_mwrite hw _ _ _) _ hs
      have hco : ∀ c : Core, c.shown = Core.shown { s.co with lmem := r.1 } → Keeps s (s.setCo c) := fun c hc =>
        Keeps.rfl.setCore' (fun hs => Core.memWf_of_shown hc ⟨hm hs.1, hs.2⟩) (fun hs => Core.dutyWf_of_shown hc hs)
      refine .ite (fun _ => (hco _ ?_).setCx (Ctx.shown_setSd _ _ _)) (fun _ => hco _ ?_)
      · split <;> rfl
      · split <;> rfl

theorem tspill : Fine s (execTspill o s) := by
  refine .issue ?_
  dsimp only
  split
  · exact .ite (fun _ => .stall) (fun _ => .done .rfl)
  · split
    · split
      · exact .trap
      · exact .ite (fun _ => .stall) (fun _ => .done (Keeps.rfl.setLmem fun hm => wf_mwrite hm _ _ _))
    · refine .ite (fun _ => .trap) (fun _ => ?_)
      split
      · exact .trap
      · exact .ite (fun _ => .stall) (fun _ => .hold Keeps.rfl.startAccess)

theorem tfill : Fine s (execTfill o s) := by
  have fill : ∀ {t : State} (_ : Keeps s t) (x : Nat), Eff.Fine s (match bind t t.cur o.dNum with
      | none => Machine.retryOr t.cx t.tick { cause := 14, xinfo := 1 } t
      | some (p, t) => .done (t.setCo (t.co.setAcc p (accOfImage x (.ctx (t.cur % 8)))))) := fun {t} ht x => by
    split
    · exact .retryOr ht
    · rename_i p u hu
      exact .done ((ht.bind hu).setCo (Core.shown_setAcc _ _ _))
  refine .issue ?_
  dsimp only
  split
  · split
    · exact .stall
    · exact .ite (fun _ => fill Keeps.rfl.dropAccess _) (fun _ => .stall)
  · split
    · split
      · exact .trap
      · exact .ite (fun _ => .stall) (fun _ => fill .rfl _)
    · refine .ite (fun _ => .trap) (fun _ => ?_)
      split
      · exact .trap
      · refine .ite (fun _ => .stall) (fun _ => ?_)
        split
        · exact .retryOr .rfl
        · rename_i p t ht
          exact .hold (Keeps.rfl.bind ht).startAccess

theorem sdset : Fine s (execSdset o s) := .scalar fun c => c.shown_setSd _ _
theorem sdget : Fine s (execSdget o s) := .scalar fun c => c.shown_setG _ _

theorem accumulatorBindRetry (core slot : Nat) : Fine s (execAccumulatorBindRetry core slot s) := .retryEvent fun i u r hr => by
  split at hr
  · exact Option.some.inj hr ▸ productOp _ _ _ _ _
  · exact Option.some.inj hr ▸ productOp _ _ _ _ _
  · exact Option.some.inj hr ▸ productOp _ _ _ _ _
  · exact Option.some.inj hr ▸ tzero
  · exact Option.some.inj hr ▸ tfill
  · cases hr

end Fine

end Sys2Proof.Machine
end

section
/-! SUPPORT. What the vector instructions of pages 4 to 7 lead to. -/

set_option Elab.async false

namespace Sys2Proof.Machine

open Sys2Proof

namespace CtxEff.Fine

variable {c d : Ctx}

theorem done (h : d.shown = c.shown) : (CtxEff.done d).Fine c := h
theorem jump {pc : Word} (h : d.shown = c.shown) : (CtxEff.jump d pc).Fine c := h
theorem trap {t : Trap} : (CtxEff.trap t).Fine c := True.intro

theorem ite {p : Prop} [Decidable p] {e f : CtxEff} (he : p → e.Fine c) (hf : ¬p → f.Fine c) : (if p then e else f).Fine c := by
  split
  · exact he ‹_›
  · exact hf ‹_›

/-- A result with its flags (R46). -/
theorem flagged {fl : Nat} (h : d.shown = c.shown) : (flagged c fl d).Fine c := .ite (fun _ => .trap) (fun _ => .done ((d.shown_addFlags fl).trans h))

theorem vfResult {o : Ops} {g : Nat → Nat × Nat} : (vfResult o c g).Fine c := flagged (c.shown_setV _ _)
theorem viResult {o : Ops} {g : Nat → Nat × Nat} : (viResult o c g).Fine c := flagged (c.shown_setVs _ _ _)

end CtxEff.Fine

namespace Keeps

variable {s t : State}

/-- The active units of a group go to a buffer one after the other. -/
theorem wf_unitsStore {c : Ctx} {o : Ops} {m : Mem} {ea : Int} {w v : Nat} (h : m.wf = true) : Mem.wf (unitsStore c o m ea w v) = true := by
  refine foldl_keeps (P := fun m => Mem.wf m = true) (fun m k hm => ?_) _ h
  split
  · exact wf_mwrite hm _ _ _
  · exact hm

/-- A write of a buffer that keeps its form. -/
theorem setBuf (h : Keeps s t) {c : Core} {b : Nat} {m : Mem} (hm : Mem.wf (t.co.buf b) = true → m.wf = true) (hc : c.shown = (t.co.setBuf b m).shown) :
    Keeps s (t.setCo c) := by
  refine h.setCore' (fun ⟨hl, ha, hw, hs⟩ => Core.memWf_of_shown hc ?_) (fun hf => Core.dutyWf_of_shown hc ?_)
  · match b with
    | 0 => exact ⟨hl, hm ha, hw, hs⟩
    | 1 => exact ⟨hl, ha, hm hw, hs⟩
    | _ + 2 => exact ⟨hm hl, ha, hw, hs⟩
  · match b with
    | 0 => exact hf
    | 1 => exact hf
    | _ + 2 => exact hf

end Keeps

namespace Eff.Fine

variable {s : State} {o : Ops}

theorem emptyAccess : (emptyAccess o s).Fine s :=
  .ite (fun _ => .ite (fun _ => .done .rfl) (fun _ => .stall)) (fun _ => .ite (fun _ => .done Keeps.rfl.acquire) (fun _ => .done .rfl))

theorem emptyLoad {w : Nat} : (emptyLoad o w s).Fine s := by
  have h : (Machine.emptyAccess o s).Fine s := emptyAccess
  unfold Machine.emptyLoad
  split
  · rename_i t ht
    rw [ht] at h
    exact Keeps.pendResult h
  · exact h

end Eff.Fine

namespace Fine

variable {s : State} {o : Ops}

theorem vld : Fine s (execVld o s) := by
  unfold execVld
  refine .issueV ?_
  dsimp only
  split
  · split
    · exact .done .rfl
    · have hk : ∀ id rs, Keeps s ((s.dropAccess s.coreNo id).setCx (s.cx.marks false rs)) := fun _ _ => Keeps.rfl.dropAccess.setCx (Ctx.shown_marks _ _ _)
      refine .ite (fun _ => .stall) (fun _ => .ite (fun _ => .gone (hk _ _).raise) (fun _ => .done ((hk _ _).setCx ?_)))
      rw [Ctx.shown_addFlags, Ctx.shown_setVs, State.cx_setCx]
  · refine .ite (fun _ => .emptyLoad) (fun _ => ?_)
    split
    · exact .trap
    · split
      · exact .trap
      · have hk : ∀ a rs, Keeps s ((s.setCx (s.cx.marks true rs)).startAccess s.coreNo a) := fun _ _ => (Keeps.rfl.setCx (Ctx.shown_marks _ _ _)).startAccess
        exact .ite (fun _ => .hold (hk _ _)) (fun _ => .done (hk _ _))

theorem vst : Fine s (execVst o s) := by
  unfold execVst
  refine .issueV ?_
  dsimp only
  refine .ite (fun _ => .emptyAccess) (fun _ => ?_)
  split
  · exact .trap
  · split
    · exact .trap
    · exact .ite (fun _ => .trap) (fun _ => .done (Keeps.rfl.setCx (Ctx.shown_addFlags _ _)).startAccess)

theorem gatherOp (i : Instr) (breg : Nat) (off : Ops → Ctx → Nat → Int) : Fine s (gatherOp i o breg off s) := by
  unfold Machine.gatherOp
  refine .issueV ?_
  dsimp only
  refine .ite (fun _ => .trap) (fun _ => .ite (fun _ => .emptyLoad) (fun _ => ?_))
  split
  · exact .trap
  · exact .done (Keeps.rfl.setCx (Ctx.shown_marks _ _ _)).startAccess

theorem scatterOp (i : Instr) (breg : Nat) (off : Ops → Ctx → Nat → Int) : Fine s (scatterOp i o breg off s) := by
  unfold Machine.scatterOp
  refine .issueV ?_
  dsimp only
  refine .ite (fun _ => .trap) (fun _ => .ite (fun _ => .emptyAccess) (fun _ => ?_))
  split
  · exact .trap
  · exact .done Keeps.rfl.startAccess

theorem vldl : Fine s (execVldl o s) := by
  unfold execVldl
  refine .issueV ?_
  dsimp only
  split
  · exact .trap
  · exact .ite (fun _ => .stall) (fun _ => .done Keeps.rfl.pendResult)

theorem vstl : Fine s (execVstl o s) := by
  unfold execVstl
  refine .issueV ?_
  dsimp only
  split
  · exact .trap
  · exact .ite (fun _ => .stall) (fun _ => .done (Keeps.rfl.setLmem Keeps.wf_unitsStore))

theorem vldt : Fine s (execVldt o s) := by
  unfold execVldt
  exact .issueV (.ite (fun _ => .trap) (fun _ => .ite (fun _ => .stall) (fun _ => .done Keeps.rfl.pendResult)))

theorem vstt : Fine s (execVstt o s) := by
  unfold execVstt
  refine .issueV (.ite (fun _ => .trap) (fun _ => .ite (fun _ => .stall) (fun _ => .done ?_)))
  exact Keeps.rfl.setBuf Keeps.wf_unitsStore (Core.shown_stale _ _ _)

theorem vldc : Fine s (execVldc o s) := by
  unfold execVldc
  exact .issueV (.ite (fun _ => .stall) (fun _ => .ite (fun _ => .trap) (fun _ => .done Keeps.rfl.pendResult)))

/-! Lane movement, masks, and the arithmetic of pages 5 and 6. -/

theorem tokenwise {i : Instr} {masks : Nat} {touch : List Nat} {body : State → Eff} (h : ∀ t, Keeps s t → (body t).Fine s) : Fine s (tokenwise i o masks touch body s) := by
  refine .issueV ?_
  split
  · exact .stall
  · rename_i t ht
    exact h t (Keeps.rfl.charge ht)

theorem floatwise {i : Instr} {masks : Nat} {touch : List Nat} {f : Ctx → CtxEff} (h : ∀ c, (f c).Fine c) : Fine s (floatwise i o masks touch f s) :=
  .tokenwise fun _ ht => Fine.onCtx ht (h _)

theorem vmov : Fine s (execVmov o s) := .lanewise fun c => c.shown_setVs _ _ _
theorem vbcast : Fine s (execVbcast o s) := .lanewise fun c => c.shown_setV _ _
theorem vext : Fine s (execVext o s) := .lanewise fun c => by
  refine .done ?_
  split
  · exact c.shown_setG _ _
  · rfl
theorem vins : Fine s (execVins o s) := .lanewise fun c => by
  refine .done ?_
  split
  · exact c.shown_setV _ _
  · rfl
theorem vperm : Fine s (execVperm o s) := .lanewise fun c => c.shown_setV _ _
theorem vcompr : Fine s (execVcompr o s) := .lanewise fun c => c.shown_setV _ _
theorem vmlog : Fine s (execVmlog o s) := .lanewise fun c => c.shown_setVm _ _
theorem vmpop : Fine s (execVmpop o s) := .lanewise fun c => c.shown_setG _ _
theorem vmget : Fine s (execVmget o s) := .lanewise fun c => by
  refine .done ?_
  split
  · exact c.shown_setG _ _
  · exact c.shown_setVm _ _

theorem vfBin (i : Instr) (g : Fmt → Nat → Num → Num → Nat × Nat) : Fine s (vfBin i o g s) := .floatwise fun _ => .vfResult
theorem vfMulAdd (i : Instr) (negate : Bool) : Fine s (vfMulAdd i o negate s) := .floatwise fun _ => .vfResult
theorem vfSign (i : Instr) (g : Nat → Nat → Nat) : Fine s (vfSign i o g s) := .floatwise fun _ => .vfResult

theorem vfLate (i : Instr) (regs : List Nat) (g : Ctx → Nat → Nat × Nat) : Fine s (vfLate i o regs g s) :=
  .tokenwise fun _ ht => .ite (fun _ => .trap) (fun _ => .done ht.pendResult)

theorem vfdot : Fine s (execVfdot o s) := .floatwise fun c => .flagged (c.shown_setV _ _)
theorem vfcmp : Fine s (execVfcmp o s) := .floatwise fun c => .flagged (c.shown_maskWrite _ _ _)
theorem vfred : Fine s (execVfred o s) := .floatwise fun c => .flagged (c.shown_setG _ _)
theorem vfrmax : Fine s (execVfrmax o s) := .floatwise fun c => .flagged (c.shown_setG _ _)
theorem vfscl : Fine s (execVfscl o s) := .floatwise fun _ => .vfResult

theorem viBin (i : Instr) (g : Nat → Nat → Nat × Nat) : Fine s (viBin i o g s) := .lanewise fun _ => .viResult
theorem vcmp : Fine s (execVcmp o s) := .lanewise fun c => c.shown_maskWrite _ _ _
theorem vsel : Fine s (execVsel o s) := .lanewise fun c => c.shown_setVs _ _ _
theorem vabs : Fine s (execVabs o s) := .lanewise fun _ => .viResult
theorem vred : Fine s (execVred o s) := .lanewise fun c => .flagged (c.shown_setG _ _)
theorem vidx : Fine s (execVidx o s) := .lanewise fun _ => .viResult
theorem vdot4 : Fine s (execVdot4 o s) := .lanewise fun c => .flagged (c.shown_setV _ _)

/-! Conversions of page 7. -/

theorem vcvtf : Fine s (execVcvtf o s) := .lanewise fun c => .flagged (by
  split
  · exact (Ctx.shown_setSd _ _ _).trans (c.shown_setV _ _)
  · exact c.shown_setV _ _)
theorem vunpk : Fine s (execVunpk o s) := .lanewise fun c => .flagged (c.shown_setVs _ _ _)
theorem cvtOp (i : Instr) (g : Nat → Nat × Nat) : Fine s (cvtOp i o g s) := .lanewise fun c => .flagged (c.shown_setV _ _)
theorem vpack : Fine s (execVpack o s) := .lanewise fun c => .flagged (c.shown_setV _ _)
theorem vqdb : Fine s (execVqdb o s) := .lanewise fun c => .flagged (c.shown_setV _ _)
theorem vdqdb : Fine s (execVdqdb o s) := .lanewise fun c => .flagged (c.shown_setV _ _)
theorem vbmax : Fine s (execVbmax o s) := .lanewise fun c => .flagged (c.shown_setG _ _)
theorem vqf8 : Fine s (execVqf8 o s) := .lanewise fun c => .flagged (c.shown_setV _ _)
theorem baddrq : Fine s (execBaddrq o s) := .lanewise fun c => .ite (fun _ => .done rfl) (fun _ => .flagged (c.shown_setV _ _))

end Fine

end Sys2Proof.Machine
end

section
/-! SUPPORT. What scalar instructions and control transfers, checkpoints, and the full/empty words lead to. -/

set_option Elab.async false

namespace Sys2Proof.Machine

open Sys2Proof

namespace Ctx

variable (c : Ctx)

@[simp] theorem shown_leaveLoops (t : Word) : (c.leaveLoops t).shown = c.shown := by
  have h : ∀ (d : Ctx) (k : Nat), Ctx.shown (if (d.loop k).lc = 0 ∨ d.suspended k = true ∨ ((d.loop k).ls.toNat ≤ t.toNat ∧ t.toNat ≤ (d.loop k).le.toNat) then d
      else d.setLoop k { d.loop k with lc := 0 }) = d.shown := fun d k => by
    split
    · rfl
    · exact d.shown_setLoop _ _
  exact (h _ 1).trans (h c 0)

@[simp] theorem shown_setLoopReg (code : Nat) (x : Word) : (c.setLoopReg code x).shown = c.shown := by
  unfold setLoopReg
  dsimp only
  split <;> exact c.shown_setLoop _ _

theorem shown_foldl {α : Type} {f : Ctx → α → Ctx} (hf : ∀ d a, (f d a).shown = d.shown) (l : List α) : (l.foldl f c).shown = c.shown :=
  foldl_keeps (P := fun d => Ctx.shown d = c.shown) (fun d a hd => (hf d a).trans hd) l rfl

end Ctx

theorem CtxEff.Fine.transfer {c d : Ctx} {t : Word} (h : d.shown = c.shown) : (transfer t d).Fine c := .ite (fun _ => .trap) (fun _ => .jump h)

namespace Fine

variable {s : State} {o : Ops}

/-! Control transfers, loops, and the ends of a context. -/

theorem br : Fine s (execBr o s) := .scalar fun c => .transfer (c.shown_leaveLoops _)
theorem call : Fine s (execCall o s) := .scalar fun c => .transfer (c.shown_setG _ _)
theorem ret : Fine s (execRet o s) := .scalar fun c => .transfer (c.shown_leaveLoops _)
theorem jmp : Fine s (execJmp o s) := .scalar fun c => .transfer (c.shown_leaveLoops _)

theorem loop : Fine s (execLoop o s) := .scalar fun c => by
  refine .ite (fun _ => .trap) (fun _ => .ite (fun _ => .trap) (fun _ => ?_))
  have h := fun base k l => (Ctx.shown_setLoop (c.loopBack base) k l).trans (c.shown_loopBack base)
  exact .ite (fun _ => .jump (h _ _ _)) (fun _ => .jump (h _ _ _))

theorem yield : Fine s (execYield o s) := .issue (.done Keeps.rfl.setCx)

theorem halt : Fine s (execHalt o s) := .issue (.ite (fun _ => .trap) (fun _ => .ite (fun _ => .stall) (fun _ => .gone Keeps.rfl.endContext.leads)))

/-- The slots and accumulators of a context pass to its successor's record (R15). -/
theorem haltRetain : Fine s (execHaltRetain o s) := by
  refine .issue ?_
  refine .ite (fun _ => .trap) (fun _ => .ite (fun _ => .trap) (fun _ => .ite (fun _ => .trap) (fun _ => .ite (fun _ => .trap) (fun _ => .ite (fun _ => .stall) (fun _ => .gone ?_)))))
  have hk : ∀ (d : Core) (l : List Kept) (m : Tbl SsMark) (x : List Nat), ({ d with kept := l, ss := m, exch := x } : Core).shown = d.shown := fun _ _ _ _ => rfl
  refine Keeps.leads (Keeps.freeCtx (Keeps.pushDeque (Keeps.rfl.setCo ?_)))
  refine (hk _ _ _ _).trans ((Core.shown_foldl _ (fun d n => ?_) _).trans ((Core.shown_foldl _ (fun d n => ?_) _).trans (Core.shown_entitle _ _ _)))
  · split <;> rfl
  · split <;> rfl

theorem trap : Fine s (execTrap o s) := .scalar fun _ => .trap
theorem brk : Fine s (execBrk o s) := .scalar fun _ => .trap

/-! Scalar instructions of pages 0 and 1. -/

theorem aluOp (i : Instr) (f : Word → Word → Word) : Fine s (aluOp i o f s) := .scalar fun c => c.shown_setG _ _
theorem oneOp (i : Instr) (f : Word → Word) : Fine s (oneOp i o f s) := .scalar fun c => c.shown_setG _ _
theorem nop : Fine s (execNop o s) := .scalar fun _ => rfl
theorem movi : Fine s (execMovi o s) := .scalar fun c => c.shown_setG _ _
theorem sel : Fine s (execSel o s) := .scalar fun c => c.shown_setG _ _
theorem cmp : Fine s (execCmp o s) := .scalar fun c => c.shown_setP _ _
theorem divOp (i : Instr) (f : Word → Word → Word) : Fine s (divOp i o f s) := .issue (.ite (fun _ => .trap) (fun _ => .done Keeps.rfl.pendResult))
theorem bfOp (i : Instr) (f : Word → Word → Word) : Fine s (bfOp i o f s) := .scalar fun c => c.shown_setG _ _

theorem ptrOp (i : Instr) (f : Word → Word → Except Trap Word) : Fine s (ptrOp i o f s) := .scalar fun c => by
  split
  · exact c.shown_setG _ _
  · exact .trap

theorem predOp (i : Instr) (f : Bool → Bool → Bool) : Fine s (predOp i o f s) := .scalar fun c => c.shown_setP _ _
theorem pnot : Fine s (execPnot o s) := .scalar fun c => c.shown_setP _ _

theorem movp : Fine s (execMovp o s) := .scalar fun c => by
  split
  · exact c.shown_setP _ _
  · exact c.shown_setG _ _
  · exact c.shown_setP _ _
  · exact c.shown_setG _ _
  · exact c.shown_foldl (fun d k => d.shown_setP _ _) _

theorem lcr : Fine s (execLcr o s) := .scalar fun c => c.shown_setG _ _
theorem lcw : Fine s (execLcw o s) := .scalar fun c => .ite (fun _ => .trap) (fun _ => .done (c.shown_setLoopReg _ _))

end Fine

/-! Saves and restores at a checkpoint. -/

theorem keep_lt (v : Word) (hi : Nat) : (keep v hi 0).toNat < 2 ^ (hi + 1) := by
  have hf := fld_lt v.toNat 0 (hi + 1 - 0)
  simp only [keep, w64, BitVec.toNat_ofNat]
  exact Nat.lt_of_le_of_lt (Nat.mod_le _ _) (by simpa using hf)

namespace Keeps

variable {s t u : State}

/-- A write of `xenable` that leaves its reserved bits 0 (R6). -/
theorem setXenable (h : Keeps s t) {k : Nat} {x : Word} (hx : x.toNat < 64) : Keeps s (t.setCtx k { t.ctx k with sr := { (t.ctx k).sr with xenable := x } }) :=
  h.setCtx' (fun hb => ⟨hb.1, hx⟩) (fun ho => ⟨ho, rfl, .refl _⟩)

theorem saveAll {core : Nat} {tr : Trans} {ws : List (Nat × Nat × Nat)} (h : Keeps s t) (hu : t.saveAll core tr ws = .ok u) : Keeps s u := by
  unfold State.saveAll at hu
  dsimp only at hu
  split at hu
  · cases hu
  · obtain rfl := Except.ok.inj hu
    exact same (h.foldl fun _ _ => Keeps.rfl.storeHome.afterStore)

theorem saveContext {k ckid : Nat} (h : Keeps s t) (hu : t.saveContext k ckid = .ok u) : Keeps s u := by
  unfold State.saveContext at hu
  exact h.saveAll hu

theorem vacate (h : Keeps s t) {k : Nat} : Keeps s (t.vacate k) := freeCtx (h.setCore (Core.shown_releaseCtx _ _))

theorem saveFault (h : Keeps s t) {k : Nat} {tr : Trap} : Leads s (t.saveFault k tr) := trapCtx h.setCtx

/-- A write of a whole slot of a tile buffer. -/
theorem setSlot (h : Keeps s t) {j b n lo len x : Nat} {w : Own} {norms : Tbl (BitVec 320)} :
    Keeps s (t.setCore j { ((t.core j).claim n w).setBuf b (mwrite ((t.core j).buf b) lo len x) with norms }) := by
  match b with
  | 0 => exact h.setCore' (fun ⟨hl, ha, hw, hs⟩ => ⟨hl, wf_mwrite ha _ _ _, hw, hs⟩) id
  | 1 => exact h.setCore' (fun ⟨hl, ha, hw, hs⟩ => ⟨hl, ha, wf_mwrite hw _ _ _, hs⟩) id
  | _ + 2 => exact h.setCore' (fun ⟨hl, ha, hw, hs⟩ => ⟨wf_mwrite hl _ _ _, ha, hw, hs⟩) id

/-- A write of a status register that a checkpoint restores. -/
theorem setStatus (h : Keeps s t) {k r : Nat} {x : Word} : Keeps s (t.setCtx k { t.ctx k with sr := match r with
    | 0 => { (t.ctx k).sr with xflags := keep x 5 0 } | 1 => { (t.ctx k).sr with xenable := keep x 5 0 } | _ => { (t.ctx k).sr with qbase := keep x 55 0 } }) := by
  match r with
  | 0 => exact h.setCtx
  | 1 => exact h.setXenable (keep_lt _ 5)
  | _ + 2 => exact h.setCtx

theorem restoreItem (h : Keeps s t) {k w3 x : Nat} {i : Item} : Keeps s (restoreItem k w3 t i x) := by
  unfold Machine.restoreItem
  cases i with
  | g n => exact h.setCtx (Ctx.shown_setG _ _ _)
  | loop code => exact h.setCtx (Ctx.shown_setLoop _ _ _)
  | mctl => exact h.setCtx (Ctx.shown_setMctl _ _)
  | preds => exact h.setCtx (Ctx.shown_foldl _ (fun d n => d.shown_setP _ _) _)
  | vm n => exact h.setCtx (Ctx.shown_setVm _ _ _)
  | sd n => exact h.setCtx (Ctx.shown_setSd _ _ _)
  | status r => exact h.setStatus
  | v n => exact h.setCtx (Ctx.shown_setV _ _ _)
  | tc n =>
    dsimp only
    split
    · exact h
    · rename_i p u hu
      exact (h.bind hu).setCore (Core.shown_setAcc _ _ _)
  | slot n => exact h.setSlot
  | lmem lo len => exact h.setCore' (fun hc => ⟨wf_mwrite hc.1 _ _ _, hc.2⟩) id

theorem restoreContext {k ckid : Nat} (h : Keeps s t) (hu : t.restoreContext k ckid = .ok u) : Keeps s u := by
  unfold State.restoreContext at hu
  dsimp only at hu
  split at hu
  · cases hu
  · obtain rfl := Except.ok.inj hu
    exact setCtx (h.foldl fun _ _ => Keeps.rfl.restoreItem)

theorem takeKept (h : Keeps s t) {k : Nat} {rcd : Word} : Keeps s (t.takeKept k rcd) := by
  unfold State.takeKept
  dsimp only
  have hf : Keeps s (t.cores.foldl (fun s e => if e.1 = k / 8 then s else if e.2.kept.any (fun x => x.rcd == rcd) then s.setCore e.1 ((s.core e.1).releaseKept rcd) else s) t) :=
    h.foldl fun _ _ => .ite (fun _ => .rfl) (fun _ => .ite (fun _ => Keeps.rfl.setCore (Core.shown_releaseKept _ _)) (fun _ => .rfl))
  split
  · exact hf
  · refine setCtx (hf.setCore ((Core.shown_setKept _ _).trans ((Core.shown_foldl _ (fun d n => ?_) _).trans (Core.shown_foldl _ (fun d n => ?_) _))))
    · split <;> rfl
    · split <;> rfl

end Keeps

/-- The context that a record loads has tidy registers (R12, R245). -/
theorem State.loadedCtx_tidyBits (s : State) (core : Nat) (e : QEnt) (uid : Nat) : (s.loadedCtx core e uid).tidyBits := by
  have h : ∀ (c : Ctx) (a b d e f : Word), c.tidyBits → (((((c.setG 63 a).setG 62 b).setG 1 d).setG 2 e).setG 3 f).tidyBits :=
    fun c a b d e f => Ctx.tidyBits_of_shown (by simp)
  have hs : ∀ (c : Ctx) (x : SRegs), x.xstat = c.sr.xstat → x.xenable = c.sr.xenable → c.tidyBits → ({ c with sr := x } : Ctx).tidyBits := fun c x hx he hc => ⟨hx ▸ hc.1, he ▸ hc.2⟩
  unfold loadedCtx
  dsimp only
  refine hs _ _ ?_ ?_ (h _ _ _ _ _ _ ?_)
  · rfl
  · rfl
  · exact ⟨Nat.zero_lt_succ 63, Nat.zero_lt_succ 63⟩

theorem Leads.ite {s t u : State} {p : Prop} [Decidable p] (ht : p → Leads s t) (hu : ¬p → Leads s u) : Leads s (if p then t else u) := by
  split
  · exact ht ‹_›
  · exact hu ‹_›

/-- A slot that was empty takes a context, and the rest follows from there. -/
theorem Leads.of_empty {s t u : State} {k : Nat} (hk : (s.ctx k).occ = false) (hf : Forms s t) (hj : ∀ j, j ≠ k → t.ctx j = s.ctx j) (h : Leads t u) : Leads s u := by
  refine ⟨hf.trans h.toForms, fun j => ?_⟩
  by_cases hjk : j = k
  · subst hjk
    exact fun ho => absurd ho (by simp [hk])
  · exact hj j hjk ▸ h.ends j

theorem State.load_leads {s : State} {k : Nat} {e : QEnt} (hk : (s.ctx k).occ = false) : Leads s (s.load k e) := by
  unfold State.load
  dsimp only
  generalize hn : { s with nextUid := if e.uid = 0 then s.nextUid + 1 else s.nextUid } = s1
  have h1 : Keeps s s1 := hn ▸ Keeps.rfl.same
  generalize hc : s1.loadedCtx (k / 8) e (if e.uid = 0 then s.nextUid else e.uid) = c
  have hb : c.tidyBits := hc ▸ s1.loadedCtx_tidyBits _ _ _
  refine Leads.of_empty (t := s1.setCtx k c) hk ?_ (fun j hj => ?_) ?_
  · exact h1.toForms.trans ⟨id, id, fun hs => ⟨all_tset (P := Ctx.tidyBits) hs.1 k hb, hs.2⟩⟩
  · rw [State.ctx_setCtx_other _ hj, ← hn]
    rfl
  · have ha : Keeps (s1.setCtx k c) (((s1.setCtx k c).takeKept k e.rcd).acquire (k / 8) 3) := Keeps.rfl.takeKept.acquire
    split
    · exact ha.setCtx.leads
    · split
      · exact ha.leads
      · split
        · exact ha.trapCtx
        · split
          · rename_i t ht
            exact (ha.restoreContext ht).leads
          · exact ha.setCtx.trapCtx

end Sys2Proof.Machine
end

section
/-! SUPPORT. What full/empty words at the pier and the engines lead to. -/

set_option Elab.async false

namespace Sys2Proof.Machine

open Sys2Proof

namespace Keeps

variable {s t u : State}

/-! Full/empty words. -/

theorem fePiece (h : Keeps s t) {core : Nat} {form : FeForm} {p : Piece} : Keeps s (t.fePiece core form p).2 := by
  unfold State.fePiece
  cases form with
  | ldw => exact h.forget
  | ldc => exact h.forget.setFe
  | stf => exact h.storeHome.afterStore.setFe
  | ste => exact h.storeHome.afterStore.setFe
  | feget => exact h.forget
  | feset => exact h.forget.setFe

theorem performFe (h : Keeps s t) {core : Nat} {a : Access} {form : FeForm} {p : Piece} : Keeps s (t.performFe core a form p) := by
  unfold State.performFe
  dsimp only
  have hs := (fePiece (core := core) (form := form) (p := p) (.ite (p := a.ord = 1 ∨ a.ord = 3) (fun _ => h.acquire (core := core) (scope := a.scope)) (fun _ => h))).settle
    (core := core) (a := { a with pieces := [{ p with done := true, data := (State.fePiece (if a.ord = 1 ∨ a.ord = 3 then t.acquire core a.scope else t) core form p).1 }] })
  exact .ite (fun _ => hs.completeHeld fun c => c.shown_marks _ _) (fun _ => hs)

theorem feTrap (h : Keeps s t) {core id k : Nat} {tr : Trap} : Leads s (t.feTrap core id k tr) := h.dropAccess.trapCtx

theorem feFailed (h : Keeps s t) {core : Nat} {a : Access} {p : Piece} : Leads s (t.feFailed core a p) := by
  unfold State.feFailed
  dsimp only
  split
  · refine .ite (fun _ => h.leads) (fun _ => .ite (fun _ => ?_) (fun _ => .ite (fun _ => h.setCtx.leads) (fun _ => .ite (fun _ => h.setCtx.leads) (fun _ => h.feTrap))))
    exact (h.dropAccess.setCtx).leads
  · exact h.leads

theorem setParked (h : Keeps s t) {l : List Parked} : Keeps s { t with parked := l } := h.same

theorem park (h : Keeps s t) {k w leaf : Nat} (hu : t.park k w leaf = some u) : Keeps s u := by
  unfold State.park at hu
  dsimp only at hu
  split at hu
  · cases hu
  · obtain rfl := Option.some.inj hu
    exact vacate (setParked (setWaitBit (writeChain h.pierWrite.pierWrite.pierWrite.pierWrite.pierWrite.pierWrite.pierWrite)))

end Keeps

namespace Fine

variable {s : State} {o : Ops}

theorem feEvaluation (core id : Nat) : Fine s (execFeEvaluation core id s) := by
  refine .event ?_
  split
  · exact Keeps.rfl.leads
  · split
    · refine .ite (fun _ => Keeps.rfl.leads) (fun _ => ?_)
      split
      · exact Keeps.rfl.failAccess.leads
      · exact .ite (fun _ => Keeps.rfl.performFe.leads) (fun _ => Keeps.rfl.forget.feFailed)
    · exact Keeps.rfl.leads

theorem feBackoffExpiry (core slot : Nat) : Fine s (execFeBackoffExpiry core slot s) := by
  refine .event ?_
  dsimp only
  split
  · refine .ite (fun _ => Keeps.rfl.leads) (fun _ => ?_)
    split
    · exact Keeps.rfl.leads
    · split
      · split
        · exact Keeps.rfl.feTrap
        · exact Keeps.rfl.setAccess.setCtx.leads
      · exact Keeps.rfl.leads
  · exact Keeps.rfl.leads

theorem parkRequest (core slot : Nat) : Fine s (execParkRequest core slot s) := by
  refine .event ?_
  dsimp only
  split
  · split
    · exact Keeps.rfl.leads
    · split
      · split
        · exact Keeps.rfl.feTrap
        · refine .ite (fun _ => Keeps.rfl.dropAccess.setCtx.leads) (fun _ => .ite (fun _ => Keeps.rfl.leads) (fun _ => ?_))
          split
          · exact Keeps.rfl.dropAccess.saveFault
          · rename_i t ht
            have hk : Keeps s t := Keeps.rfl.saveContext ht
            split
            · exact hk.feTrap
            · split
              · exact hk.feTrap
              · exact hk.feTrap
              · rename_i u hu
                have hl := hk.wcntUp hu
                refine .ite (fun _ => hl.wcntDown.performFe.leads) (fun _ => ?_)
                split
                · exact hl.wcntDown.feTrap
                · rename_i v hv
                  exact (hl.dropAccess.park hv).leads
      · exact Keeps.rfl.leads
  · exact Keeps.rfl.leads

theorem wakeEnqueue (n : Nat) : Fine s (execWakeEnqueue n s) := by
  refine .eventK ?_
  split
  · exact .rfl
  · exact .ite (fun _ => .rfl) (fun _ => Keeps.rfl.same.enqueue)

end Fine

/-! Engines. -/

namespace Core

variable (c : Core)

@[simp] theorem shown_queueCmd (index : Bool) (x : Cmd) : (c.queueCmd index x).shown = c.shown := by
  unfold queueCmd
  dsimp only
  split <;> exact c.shown_setEngine _ _

@[simp] theorem shown_norms' (x : Cmd) (index : Bool) : (c.norms' x index).shown = c.shown := by
  refine shown_foldl _ (fun d n => ?_) _
  dsimp only
  split
  · rfl
  · split
    · exact shown_renorm _ _ _ _
    · exact shown_stale _ _ _

@[simp] theorem shown_score (index : Bool) (x : Cmd) : (c.score index x).shown = c.shown := by
  unfold score
  split
  · split <;> rfl
  · rfl

end Core

namespace Keeps

variable {s t u : State}

theorem addPc (h : Keeps s t) {core g : Nat} {x : Int} : Keeps s (t.addPc core g x) := h.setBar.latchOf

theorem engineDone (h : Keeps s t) {core : Nat} {index : Bool} {c : Cmd} : Keeps s (t.engineDone core index c) := by
  unfold State.engineDone
  dsimp only
  have hc : ∀ (d : Core) (l : List Score), ({ d with scores := l } : Core).shown = d.shown := fun _ _ => rfl
  refine .ite (fun _ => addCounter ?_) (fun _ => ?_)
  all_goals
    refine .ite (fun _ => addPc ?_) (fun _ => ?_)
    all_goals
      refine h.setCore ((hc _ _).trans ?_)
      split
      · exact Core.shown_setEngine _ _ _
      · exact (Core.shown_norms' _ _ _).trans (Core.shown_setEngine _ _ _)

theorem heal (h : Keeps s t) {l : List (Place × Nat × Nat)} : Keeps s (t.heal l) := h.same

theorem engWrite (h : Keeps s t) {core : Nat} {c : Cmd} {p : EPiece} : Keeps s (t.engWrite core c p) := by
  unfold State.engWrite
  dsimp only
  refine .ite (fun _ => ?_) (fun _ => .ite (fun _ => h.winWrite) (fun _ => .ite (fun _ => h.storeHome.heal.setCluster) (fun _ => h.storeHome.heal.setCluster.setFe)))
  match p.space with
  | 0 => exact h.setCore' (fun ⟨hl, ha, hw, hs⟩ => ⟨hl, wf_mwrite ha _ _ _, hw, hs⟩) id
  | 1 => exact h.setCore' (fun ⟨hl, ha, hw, hs⟩ => ⟨hl, ha, wf_mwrite hw _ _ _, hs⟩) id
  | _ + 2 => exact h.setCore' (fun ⟨hl, ha, hw, hs⟩ => ⟨wf_mwrite hl _ _ _, ha, hw, hs⟩) id

theorem setCmd (h : Keeps s t) {core : Nat} {index : Bool} {c : Cmd} : Keeps s (t.setCmd core index c) := h.setCore (Core.shown_setEngine _ _ _)

theorem perhapsWrite (h : Keeps s t) {core : Nat} {c : Cmd} {p : EPiece} : Keeps s (t.perhapsWrite core c p) :=
  .ite (fun _ => h) (fun _ => .ite (fun _ => h.fresh.engWrite) (fun _ => h.fresh))

end Keeps

namespace Fine

variable {s : State} {o : Ops}

theorem engineOp (i : Instr) (index : Bool) (code : Nat) : Fine s (engineOp i o index code s) := by
  refine .issue ?_
  refine .ite (fun _ => .trap) (fun _ => .ite (fun _ => .trap) (fun _ => .ite (fun _ => .stall) (fun _ => .done (Keeps.rfl.setCo (Core.shown_queueCmd _ _ _)))))

theorem ego : Fine s (execEgo o s) := by
  unfold execEgo
  exact .issue (.ite (fun _ => .trap) (fun _ => .ite (fun _ => .stall) (fun _ => .done (Keeps.rfl.setCo (Core.shown_setEngine _ _ _)))))

theorem egoResume : Fine s (execEgoResume o s) := by
  unfold execEgoResume
  refine .issue ?_
  dsimp only
  split
  · exact .done .rfl
  · refine .done (Keeps.rfl.setCo ?_)
    split <;> exact Core.shown_setEngine _ _ _

theorem erdv : Fine s (execErdv o s) := by
  unfold execErdv
  refine .issue (.ite (fun _ => .trap) (fun _ => ?_))
  split
  · exact .trap
  · exact .ite (fun _ => .done .rfl) (fun _ => .ite (fun _ => .hold .rfl) (fun _ => .stall))

theorem ecset : Fine s (execEcset o s) := .issue (.done (Keeps.setCounter (.ite (fun _ => Keeps.rfl.setCo) (fun _ => .rfl))))
theorem ecadd : Fine s (execEcadd o s) := .issue (.done Keeps.rfl.addCounter)

theorem engineCommandStart (core : Nat) (index : Bool) : Fine s (execEngineCommandStart core index s) := by
  refine .eventK ?_
  dsimp only
  have hn : ∀ (d : Core) (e : Engine) (n : Nat), ({ d.setEngine index e with nextId := n } : Core).shown = d.shown := fun d e _ => d.shown_setEngine index e
  split
  · refine .ite (fun _ => .rfl) (fun _ => ?_)
    split
    · exact Keeps.rfl.setCore ((Core.shown_setEngine _ _ _).trans ((Core.shown_score _ _ _).trans (Core.shown_setEngine _ _ _)))
    · exact .ite (fun _ => (Keeps.rfl.setCore (Core.shown_setEngine _ _ _)).engineDone)
        (fun _ => Keeps.rfl.setCore ((Core.shown_setEngine _ _ _).trans ((Core.shown_score _ _ _).trans (Core.shown_setEngine _ _ _))))
  · refine .ite (fun _ => .rfl) (fun _ => ?_)
    split
    · exact .ite (fun _ => .rfl) (fun _ => .ite (fun _ => Keeps.rfl.setCore (Core.shown_setEngine _ _ _)) (fun _ => Keeps.rfl.setCore (hn _ _ _)))
    · exact Keeps.rfl.setCore (hn _ _ _)
    · exact .rfl

theorem enginePiece (core : Nat) (index : Bool) (id : Nat) (write : Bool) (piece : Nat) : Fine s (execEnginePiece core index id write piece s) := by
  refine .eventK ?_
  split
  · exact .rfl
  · refine .ite (fun _ => ?_) (fun _ => ?_)
    · split
      · exact .rfl
      · exact .ite (fun _ => .rfl) (fun _ => Keeps.rfl.engWrite.setCmd)
    · split
      · exact .rfl
      · exact .ite (fun _ => .rfl) (fun _ => Keeps.rfl.setCmd)

theorem engineCommandComplete (core : Nat) (index : Bool) (id : Nat) : Fine s (execEngineCommandComplete core index id s) := by
  refine .eventK ?_
  split
  · exact .rfl
  · exact .ite (fun _ => Keeps.rfl.engineDone) (fun _ => .rfl)

theorem engineFault (core : Nat) (index : Bool) (id : Nat) : Fine s (execEngineFault core index id s) := by
  refine .eventK ?_
  dsimp only
  split
  · exact .rfl
  · rename_i c b _
    have hw : Keeps s (c.wr.foldl (fun t p => t.perhapsWrite core c p) s) := Keeps.rfl.foldl fun _ _ => Keeps.rfl.perhapsWrite
    refine .ite (fun _ => hw.setCore (Core.shown_setEngine _ _ _)) (fun _ => ?_)
    split
    · exact hw.setCore (Core.shown_setEngine _ _ _)
    · have hn : ∀ (d : Core) (e : Engine) (v : Vector EcFlag 16), ({ d.setEngine index e with ecf := v } : Core).shown = d.shown := fun d e _ => d.shown_setEngine index e
      exact (hw.setCore (hn _ _ _)).counterChanged

theorem engineProgramEnd (core : Nat) (index : Bool) : Fine s (execEngineProgramEnd core index s) := by
  refine .eventK ?_
  dsimp only
  split
  · exact .rfl
  · exact (Keeps.rfl.setCore (Core.shown_setEngine _ _ _)).addCounter

end Fine

end Sys2Proof.Machine
end

section
/-! SUPPORT. What barriers, forks and joins, deques, regions, supersteps and messages lead to. -/

set_option Elab.async false

namespace Sys2Proof.Machine

open Sys2Proof

@[simp] theorem Core.shown_queueProg (c : Core) (index : Bool) (a : Nat) (ec : Option Nat) (t : Trans) (uid : Nat) : (c.queueProg index a ec t uid).shown = c.shown := c.shown_setEngine _ _

namespace Keeps

variable {s t u : State}

theorem completeMember (h : Keeps s t) {n core : Nat} {g : Group} {mx : Word} : Keeps s (t.completeMember n g mx core) := by
  unfold State.completeMember
  dsimp only
  refine foldl (.ite (fun _ => h.setBar.setCore) (fun _ => h.setBar.setCore.acquire)) fun v k => ?_
  split
  · exact .ite (fun _ => (Keeps.rfl.completeHeld fun _ => rfl).acquire) (fun _ => .rfl)
  · exact .rfl

theorem applyKept (h : Keeps s t) {core n : Nat} : Keeps s (t.applyKept core n) := .ite (fun _ => h) (fun _ => h.setBar.poke)

theorem putRegion (h : Keeps s t) {dc n : Nat} {r : Region} : Keeps s (t.putRegion dc n r) := h.setDctx.lateWrite

theorem setRegs (h : Keeps s t) {r : Regs} : Keeps s { t with regs := r } := h.same

theorem returnShared (h : Keeps s t) {dc : Nat} : Keeps s (t.returnShared dc) := h.foldl fun _ _ => .ite (fun _ => Keeps.rfl.putRegion) (fun _ => .rfl)

theorem superstep (h : Keeps s t) {ms : List Nat} : Keeps s (t.superstep ms) := by
  unfold State.superstep
  dsimp only
  have hf := h.foldl (l := ms) (f := fun t c => if (t.core c).ss = [] then t else t.setCore c ((t.core c).suspend ((t.core c).ssends 1)).turnSs)
    fun _ _ => .ite (fun _ => .rfl) (fun _ => Keeps.rfl.setCore)
  have hg := hf.foldl (l := ms) (f := fun t c => if (t.core c).exch = [] then t else t.setCore c { t.core c with exch := [] })
    fun _ _ => .ite (fun _ => .rfl) (fun _ => Keeps.rfl.setCore)
  refine .ite (fun _ => ?_) (fun _ => hf)
  split
  · exact hg.returnShared
  · exact hg

theorem putParts (h : Keeps s t) {lo v : Nat} {es : List (Part × Phys)} : Keeps s (t.putParts lo v es) :=
  h.foldl fun _ _ => .ite (fun _ => Keeps.rfl.storeHome.afterStore) (fun _ => .rfl)

theorem addWord (h : Keeps s t) {p : Phys} {x : Word} : Keeps s (t.addWord p x) := by
  unfold State.addWord
  exact h.storeHome.afterStore

theorem released (h : Keeps s t) {rcd : Word} : Keeps s (t.released rcd) :=
  h.foldl fun _ _ => .ite (fun _ => Keeps.rfl.setCore (Core.shown_releaseKept _ _)) (fun _ => .rfl)

/-- A write of a core's L-memory that keeps its form. -/
theorem setLmemAt (h : Keeps s t) {k : Nat} {m : Mem} (hm : Mem.wf (t.core k).lmem = true → m.wf = true) : Keeps s (t.setCore k { t.core k with lmem := m }) :=
  h.setCore' (fun hc => ⟨hm hc.1, hc.2⟩) id

end Keeps

namespace Fine

variable {s : State} {o : Ops}

/-! Barriers. -/

theorem barr : Fine s (execBarr o s) := by
  refine .issue ?_
  exact .ite (fun _ => .trap) (fun _ => .ite (fun _ => .stall) (fun _ => .done Keeps.rfl.setBar.poke.latchOf))

theorem barw : Fine s (execBarw o s) := by
  refine .issue ?_
  exact .ite (fun _ => .stall) (fun _ => .ite (fun _ => .trap) (fun _ => .ite (fun _ => .trap) (fun _ => .ite (fun _ => .hold .rfl) (fun _ => .done Keeps.rfl.acquire))))

theorem barmx : Fine s (execBarmx o s) := by
  refine .issue ?_
  exact .ite (fun _ => .trap) (fun _ => .ite (fun _ => .stall) (fun _ => .done (Keeps.rfl.setCx (Ctx.shown_marks _ _ _)).setBar.poke.latchOf))

theorem barx : Fine s (execBarx o s) := by
  refine .issue ?_
  exact .ite (fun _ => .trap) (fun _ => .done Keeps.rfl.addPc)

theorem barrierPhaseLatch (group dom : Nat) : Fine s (execBarrierPhaseLatch group dom s) := .eventK Keeps.rfl.latch

theorem barrierCompletion (group dom : Nat) : Fine s (execBarrierCompletion group dom s) := by
  refine .eventK ?_
  refine .ite (fun _ => .rfl) (fun _ => ?_)
  extract_lets g ms span mx s1 s2 s3 s4 s5 kept s6
  have h2 : Keeps s s2 := .ite (fun _ => Keeps.rfl.same.superstep) (fun _ => Keeps.rfl.same)
  have h3 : Keeps s s3 := h2.foldl fun _ _ => .ite (fun _ => .rfl) (fun _ => Keeps.rfl.setBar)
  have h4 : Keeps s s4 := h3.foldl fun _ _ => Keeps.rfl.completeMember
  have h5 : Keeps s s5 := h4.foldl fun _ _ => Keeps.rfl.poke
  have h6 : Keeps s s6 := h5.foldl fun _ _ => Keeps.rfl.applyKept
  exact .ite (fun _ => h6.latch) (fun _ => h6)

/-! Forks, joins and deques. -/

theorem fork : Fine s (execFork o s) := by
  refine .issue ?_
  refine .ite (fun _ => .trap) (fun _ => .ite (fun _ => .trap) (fun _ => ?_))
  split
  · exact .trap
  · refine .ite (fun _ => .stall) (fun _ => ?_)
    extract_lets j push body
    have hp : ∀ t, Keeps s t → (push t).Fine s := fun t h => .done h.setDctx.pushDeque
    have hb : Keeps s (body s) := Keeps.rfl.putParts.putParts
    refine .ite (fun _ => hp _ hb) (fun _ => .ite (fun _ => .trap) (fun _ => ?_))
    split
    · exact .trap
    · exact .ite (fun _ => .stall) (fun _ => hp _ (hb.foldl fun _ _ => Keeps.rfl.addWord))

theorem join : Fine s (execJoin o s) := by
  refine .issue ?_
  refine .ite (fun _ => .ite (fun _ => .gone Keeps.rfl.endContext.leads) (fun _ => .stall)) (fun _ => .ite (fun _ => .trap) (fun _ => .ite (fun _ => .done .rfl) (fun _ => .ite (fun _ => .trap) (fun _ => ?_))))
  split
  · exact .trap
  · rename_i es _
    refine .ite (fun _ => .stall) (fun _ => ?_)
    extract_lets old r t
    have ht : Keeps s t := Keeps.rfl.foldl fun _ _ => Keeps.rfl.addWord
    clear_value t r
    refine .ite (fun _ => .ite (fun _ => .gone ht.endContext.leads) (fun _ => ?_)) (fun _ => .ite (fun _ => .done ht.acquire) (fun _ => .done ht.setRegs))
    exact .hold ht

theorem dqpush : Fine s (execDqpush o s) := by
  refine .issue ?_
  refine .ite (fun _ => .trap) (fun _ => ?_)
  split
  · exact .trap
  · exact .ite (fun _ => .stall) (fun _ => .done Keeps.rfl.pushDeque)

theorem takeResult {t : State} (h : Keeps s t) (r : Option Word) : (takeResult o r t).Fine s := by
  refine .done (Keeps.pendResult ?_)
  split
  · exact h.released.acquire
  · exact h

theorem dqpop : Fine s (execDqpop o s) := by
  refine .issue ?_
  dsimp only
  split
  · exact takeResult .rfl _
  · exact takeResult Keeps.rfl.setCo _

theorem dqpopLq : Fine s (execDqpopLq o s) := by
  refine .issue ?_
  refine .ite (fun _ => .trap) (fun _ => ?_)
  dsimp only
  split
  · exact .done Keeps.rfl.pendResult
  · exact .done Keeps.rfl.setPort.acquire.pendResult

theorem dqsteal : Fine s (execDqsteal o s) := by
  refine .issue ?_
  refine .ite (fun _ => .trap) (fun _ => ?_)
  dsimp only
  split
  · exact takeResult .rfl _
  · exact takeResult Keeps.rfl.setCore _

/-! Regions and supersteps. -/

theorem handoff : Fine s (execHandoff o s) := by
  refine .issue ?_
  refine .ite (fun _ => .trap) (fun _ => .ite (fun _ => .trap) (fun _ => ?_))
  dsimp only
  split
  · exact .trap
  · exact .ite (fun _ => .trap) (fun _ => .ite (fun _ => .stall) (fun _ => .done Keeps.rfl.putRegion))

theorem regionArrival (region : Nat) : Fine s (execRegionArrival region s) := by
  refine .eventK ?_
  split
  · exact .rfl
  · split
    · exact .rfl
    · split
      · exact .rfl
      · exact .ite (fun _ => .rfl) (fun _ => Keeps.rfl.putRegion)

theorem capq : Fine s (execCapq o s) := by
  refine .issue ?_
  refine .ite (fun _ => .done Keeps.rfl.pendResult) (fun _ => ?_)
  split
  · exact .done Keeps.rfl.pendResult
  · exact .done (Keeps.pendResult (.ite (fun _ => Keeps.rfl.acquire) (fun _ => .rfl)))

theorem ssend : Fine s (execSsend o s) := by
  refine .issue ?_
  extract_lets c k b mark step l co arrive wait past
  have hstep : ∀ n t, Keeps s t → Keeps s (step n t) := fun n t h => h.setCx
  have hpast : ∀ t, Keeps s t → Keeps s (past t) := fun t h => h.setCo
  have harrive : ∀ n, (arrive n).Fine s := fun n => .ite (fun _ => .stall) (fun _ => .hold (Keeps.latchOf (Keeps.poke (hstep _ _ (Keeps.setBar Keeps.rfl.setCo)))))
  have hwait : wait.Fine s := .ite (fun _ => .hold .rfl) (fun _ => .stall)
  clear_value mark
  refine .ite (fun _ => .trap) (fun _ => .ite (fun _ => .trap) (fun _ => .ite (fun _ => .trap) (fun _ => ?_)))
  split
  · exact harrive 1
  · refine .ite (fun _ => hwait) (fun _ => ?_)
    exact .ite (fun _ => .hold (hstep _ _ (hpast _ Keeps.rfl.acquire))) (fun _ => .ite (fun _ => .trap) (fun _ => .ite (fun _ => .stall)
      (fun _ => .hold (hstep _ _ (hpast _ (Keeps.rfl.acquire.setCo (Core.shown_queueProg _ _ _ _ _ _)))))))
  · split
    · exact .trap
    · exact .ite (fun _ => .hold (hstep _ _ .rfl)) (fun _ => .ite (fun _ => .hold .rfl) (fun _ => .stall))
  · split
    · exact harrive 3
    · exact .ite (fun _ => .done (hstep _ _ (hpast _ Keeps.rfl.acquire))) (fun _ => hwait)

/-! Messages. -/

theorem msgsend : Fine s (execMsgsend o s) := by
  refine .issue ?_
  refine .ite (fun _ => .trap) (fun _ => .ite (fun _ => .trap) (fun _ => .ite (fun _ => .trap) (fun _ => .ite (fun _ => .stall) (fun _ => ?_))))
  dsimp only
  split
  · exact .retryOr .rfl
  · refine .done (Keeps.rfl.setLmemAt fun hm => wf_mwrite (wf_mblit ?_ _ _) _ _ _)
    split
    · exact wf_mblit hm _ _
    · exact hm

theorem msgsendRetry (core slot : Nat) : Fine s (execMsgsendRetry core slot s) := .retryEvent fun i u r hr => by
  split at hr
  · exact Option.some.inj hr ▸ msgsend
  · cases hr

theorem msgrecv : Fine s (execMsgrecv o s) := by
  refine .issue ?_
  extract_lets i co r give len h set t t'
  have hgive : ∀ x t, Keeps s t → (give x t).Fine s := fun x t h => .done h.pendResult
  refine .ite (fun _ => .stall) (fun _ => .ite (fun _ => hgive _ _ .rfl) (fun _ => .ite (fun _ => .stall) (fun _ => ?_)))
  have hset : ∀ n u, Keeps s u → Keeps s (set n u) := fun _ _ h => h.setLmem fun hm => wf_mwrite hm _ _ _
  have ht : Keeps s t := .ite (fun _ => .rfl) (fun _ => hset _ _ .rfl)
  have ht' : Keeps s t' := .ite (fun _ => hset _ _ ht) (fun _ => ht)
  exact .ite (fun _ => hgive _ _ ht) (fun _ => hgive _ _ ht'.acquire)

end Fine

end Sys2Proof.Machine
end

section
/-! SUPPORT. What the system instructions, the trap report and the walker lead to. -/

set_option Elab.async false

namespace Sys2Proof.Machine

open Sys2Proof

namespace SRegs

variable (r : SRegs) (n : Nat) (x : Word)

/-- Only a write of `xstat` itself changes it. -/
theorem write_xstat_of_ne {n : Nat} (hn : n ≠ 0) : (r.write n x).xstat = r.xstat := by
  unfold write
  split
  · contradiction
  all_goals rfl

theorem write_xenable_of_ne {n : Nat} (hn : n ≠ 9) : (r.write n x).xenable = r.xenable := by
  unfold write
  split
  case h_10 => contradiction
  all_goals rfl

/-- A write of `xstat` changes neither the mode nor the suspensions (R246). -/
theorem write_sameMode : sameMode r.xstat (r.write n x).xstat := by
  by_cases hn : n = 0
  · subst hn
    intro b hb
    have hm : (setFld (setFld r.xstat.toNat 1 1 (fld x.toNat 1 1)) 4 2 (fld x.toNat 4 2)) / 2 ^ b % 2 = r.xstat.toNat / 2 ^ b % 2 := by
      simp only [setFld, fld, Nat.reducePow]
      obtain rfl | rfl | rfl := hb <;> omega
    simp only [write, w64, BitVec.getLsbD_ofNat, Nat.testBit_eq_decide_div_mod_eq, hm]
    obtain rfl | rfl | rfl := hb <;> simp [BitVec.getLsbD, Nat.testBit_eq_decide_div_mod_eq]
  · rw [write_xstat_of_ne r x hn]
    exact .refl _

theorem write_xstat_lt (h : r.xstat.toNat < 64) : (r.write n x).xstat.toNat < 64 := by
  by_cases hn : n = 0
  · subst hn
    refine Nat.lt_of_le_of_lt (Nat.mod_le _ _) ?_
    simp only [setFld, fld, Nat.reducePow]
    omega
  · rwa [write_xstat_of_ne r x hn]

theorem write_xenable_lt (h : r.xenable.toNat < 64) : (r.write n x).xenable.toNat < 64 := by
  by_cases hn : n = 9
  · subst hn
    exact keep_lt x 5
  · rwa [write_xenable_of_ne r x hn]

end SRegs

namespace Keeps

variable {s t : State}

theorem writeSreg (h : Keeps s t) {n : Nat} {x : Word} : Keeps s (t.setCx { t.cx with sr := t.cx.sr.write n x }) :=
  h.setCtx' (fun hb => ⟨SRegs.write_xstat_lt _ _ _ hb.1, SRegs.write_xenable_lt _ _ _ hb.2⟩) (fun ho => ⟨ho, rfl, SRegs.write_sameMode _ _ _⟩)

theorem flushCluster (h : Keeps s t) {f : Flush} {n : Nat} : Keeps s (t.flushCluster f n) := by
  unfold State.flushCluster
  dsimp only
  exact foldl (.ite (fun _ => h.setCluster) (fun _ => h)) fun _ _ => .ite (fun _ => Keeps.rfl.setCore) (fun _ => .rfl)

end Keeps

/-- TRET loads tidy bits (R249), whatever the context held. -/
theorem Ctx.leaveTrap_tidyBits {c : Ctx} (h : c.tidyBits) : c.leaveTrap.tidyBits := by
  refine ⟨?_, h.2⟩
  refine Nat.lt_of_le_of_lt (Nat.mod_le _ _) ?_
  simp only [fld, Nat.reducePow]
  omega

namespace Fine

variable {s : State} {o : Ops}

theorem mfs : Fine s (execMfs o s) := by
  unfold execMfs
  refine .issue ?_
  exact .ite (fun _ => .trap) (fun _ => .ite (fun _ => .done Keeps.rfl.pendResult) (fun _ => .done Keeps.rfl.pendResult))

theorem mts : Fine s (execMts o s) := by
  unfold execMts
  refine .issue ?_
  refine .ite (fun _ => .trap) (fun _ => .ite (fun _ => .ite (fun _ => .trap) (fun _ => .done (Keeps.rfl.setCx (Ctx.shown_setMctl _ _))))
    (fun _ => .ite (fun _ => .trap) (fun _ => .done Keeps.rfl.writeSreg)))

theorem fwcall : Fine s (execFwcall o s) := by
  refine .issue ?_
  exact .ite (fun _ => .trap) (fun _ => .ite (fun _ => .stall) (fun _ => .ite (fun _ => .done (Keeps.rfl.setCx (Ctx.shown_setG _ _ _)).acquire) (fun _ => .hold Keeps.rfl.same)))

theorem tlbinv : Fine s (execTlbinv o s) := by
  refine .issue ?_
  exact .ite (fun _ => .trap) (fun _ => .ite (fun _ => .trap) (fun _ => .ite (fun _ => .stall) (fun _ => .ite (fun _ => .stall)
    (fun _ => .done (Keeps.rfl.foldl fun _ _ => Keeps.rfl.flushCluster)))))

theorem cinv : Fine s (execCinv o s) := by
  refine .issue ?_
  exact .ite (fun _ => .stall) (fun _ => .done (.ite (fun _ => Keeps.rfl.setCo.setCluster) (fun _ => Keeps.rfl.setCo)))

theorem cwb : Fine s (execCwb o s) := .issue (.ite (fun _ => .done .rfl) (fun _ => .stall))

theorem pglob : Fine s (execPglob o s) := by
  refine .issue ?_
  have hg : ∀ x, (Eff.done (s.setCx (s.cx.setG o.dNum x))).Fine s := fun x => .done (Keeps.rfl.setCx (Ctx.shown_setG _ _ _))
  dsimp only
  refine .ite (fun _ => hg _) (fun _ => ?_)
  generalize 2 ^ 56 = n
  split
  · exact .trap
  · exact hg _

theorem trapEntry (core slot : Nat) : Fine s (execTrapEntry core slot s) := by
  refine .event ?_
  dsimp only
  split
  · exact .ite (fun _ => Keeps.rfl.rests (.enterTrap _ _)) (fun _ => Keeps.rfl.leads)
  · exact Keeps.rfl.leads

theorem crepWindowClose (cluster : Nat) : Fine s (execCrepWindowClose cluster s) := by
  refine .eventK ?_
  dsimp only
  split
  · exact .rfl
  · exact Keeps.rfl.setCluster

theorem hardwareWalk (core : Nat) (va : Word) : Fine s (execHardwareWalk core va s) := by
  refine .eventK ?_
  split
  · exact .rfl
  · split
    · exact .rfl
    · exact .rfl
    · exact Keeps.rfl.setCore.setCluster

end Fine

end Sys2Proof.Machine
end

section
/-! SUPPORT. What queues, launches, pickups, pre-emption, hard saves, aborts and fences lead to. -/

set_option Elab.async false

namespace Sys2Proof.Machine

open Sys2Proof

@[simp] theorem Core.shown_clearFault (c : Core) (index : Bool) : (c.clearFault index).shown = c.shown := by
  unfold clearFault
  dsimp only
  split
  · exact c.shown_setEngine _ _
  · exact c.shown_setEngine _ _

@[simp] theorem DevCtx.saved_setStat (d : DevCtx) (lo n v : Nat) : (d.setStat lo n v).saved = d.saved := rfl

namespace Keeps

variable {s t u : State}

/-! Queues and launches. -/

theorem readTemplate {n : Nat} (h : Keeps s t) (hu : t.readTemplate n = some u) : Keeps s u := by
  unfold State.readTemplate at hu
  dsimp only at hu
  split at hu
  · cases hu
  · obtain rfl := Option.some.inj hu
    exact h.setDctx

theorem advance (h : Keeps s t) {n : Nat} : Keeps s (t.advance n) := h.setDctx
theorem refuse (h : Keeps s t) {n : Nat} : Keeps s (t.refuse n) := (h.setDctx (by simp)).advance

theorem cethenWrite (h : Keeps s t) {n va v : Nat} : Keeps s (t.cethenWrite n va v) := by
  unfold State.cethenWrite
  refine h.foldl fun u p => ?_
  split
  · exact Keeps.rfl.storeHome
  · exact .rfl

theorem writeRecord (h : Keeps s t) {n i : Nat} {w : Nat → Nat} : Keeps s (t.writeRecord n w i) := h.foldl fun _ _ => Keeps.rfl.cethenWrite

theorem placeRecord (h : Keeps s t) {n i : Nat} {w : Nat → Nat} : Keeps s (t.placeRecord n w i) := .ite (fun _ => h.enqueue) (fun _ => h.pushDeque)

theorem startDigest (h : Keeps s t) {n base size : Nat} : Keeps s (t.startDigest n base size) := .ite (fun _ => h) (fun _ => h.same)

theorem writeBytes (h : Keeps s t) {places bs : List Nat} : Keeps s (t.writeBytes places bs) := h.foldl fun _ _ => Keeps.rfl.storeHome

theorem setDigests (h : Keeps s t) {l : Tbl Digest} : Keeps s { t with digests := l } := h.same
theorem setMsix (h : Keeps s t) {l : List Nat} : Keeps s { t with msix := l } := h.same
theorem setTruss (h : Keeps s t) {g : Vector Group 8} : Keeps s { t with truss := g } := h.same
theorem setFwq (h : Keeps s t) {l : List FwReq} : Keeps s { t with fwq := l } := h.same
theorem setWakes (h : Keeps s t) {l : List Parked} : Keeps s { t with wakes := l } := h.same

theorem complete (h : Keeps s t) {n status ticks : Nat} {l : Launch} : Keeps s (t.complete n l status ticks) := by
  unfold State.complete
  extract_lets sum t1 d1 d2 t2 t3
  have h2 : Keeps s t2 := (h.setDigests.same (u := t1)).setDctx (by
    show d2.saved = _
    unfold d2
    split <;> rfl)
  refine setMsix ?_
  unfold t3
  split
  · exact h2
  · exact h2.writeBytes

theorem startLaunch (h : Keeps s t) {n : Nat} {w : Nat → Nat} {c : Option (List Nat)} : Keeps s (t.startLaunch n w c) := by
  unfold State.startLaunch
  dsimp only
  have h1 := h.startDigest (n := n) (base := w 17) (size := w 18)
  have hd : (t.startDigest n (w 17) (w 18)).dctx n = t.dctx n := by
    unfold State.startDigest
    split <;> rfl
  generalize t.startDigest n (w 17) (w 18) = t1 at h1 hd
  exact foldl (foldl (setTruss (h1.setDctx (hd ▸ rfl))).latchAll.advance fun _ _ => Keeps.rfl.writeRecord) fun _ _ => Keeps.rfl.placeRecord

/-- What a launch entry that does not start leaves. -/
theorem setRaslast (h : Keeps s t) : Keeps s { t with regs := { t.regs with raslast := 1 } } := h.same

end Keeps

namespace Fine

variable {s : State} {o : Ops}

theorem takeEntry {n : Nat} {kinds : Nat → Bool} {f : (Nat → Nat) → State → State} (hf : ∀ w, Keeps s (f w s)) : Fine s (takeEntry n kinds f s) := by
  refine .eventK ?_
  exact .ite (fun _ => Keeps.rfl.setDctx) (fun _ => .ite (fun _ => .rfl) (fun _ => .ite (fun _ => hf _) (fun _ => .rfl)))

theorem qtailDoorbell (ctx : Nat) (t : Word) : Fine s (execQtailDoorbell ctx t s) := .eventK Keeps.rfl.qtailWrite
theorem qsizeWrite (ctx : Nat) (v : Word) : Fine s (execQsizeWrite ctx v s) := .eventK Keeps.rfl.qsizeWrite
theorem registerWrite (off : Nat) (v : Word) : Fine s (execRegisterWrite off v s) := .eventK Keeps.rfl.plainWrite

theorem queueNop (ctx : Nat) : Fine s (execQueueNop ctx s) := takeEntry fun _ => .ite (fun _ => Keeps.rfl.advance) (fun _ => Keeps.rfl.refuse)

theorem rules (ctx : Nat) : Fine s (execRules ctx s) := takeEntry fun _ =>
  .ite (fun _ => Keeps.rfl.refuse) (fun _ => .ite (fun _ => .rfl) (fun _ => Keeps.rfl.setDctx.advance))

theorem signal (ctx : Nat) : Fine s (execSignal ctx s) := takeEntry fun _ =>
  .ite (fun _ => Keeps.rfl.refuse) (fun _ => .ite (fun _ => .rfl) (fun _ => .ite (fun _ => Keeps.rfl.advance.winWrite)
    (fun _ => .ite (fun _ => Keeps.rfl.advance) (fun _ => Keeps.rfl.advance.storeHome))))

theorem launch (ctx : Nat) : Fine s (execLaunch ctx s) := takeEntry fun w => by
  refine .ite (fun _ => .rfl) (fun _ => ?_)
  split
  · exact Keeps.rfl.setDctx
  · rename_i t ht
    have hk : Keeps s t := Keeps.rfl.readTemplate ht
    exact .ite (fun _ => hk.advance.complete) (fun _ => .ite (fun _ => hk.setRaslast.advance.complete) (fun _ => .ite (fun _ => hk.advance.complete)
      (fun _ => .ite (fun _ => hk.advance.complete) (fun _ => hk.startLaunch))))

theorem launchCompletion (ctx : Nat) : Fine s (execLaunchCompletion ctx s) := by
  refine .eventK ?_
  dsimp only
  split
  · exact .rfl
  · exact .ite (fun _ => .rfl) (fun _ => Keeps.rfl.complete)

end Fine

end Sys2Proof.Machine
end

section
/-! SUPPORT. What pickups, pre-emption, hard saves, aborts and fences lead to. -/

set_option Elab.async false

namespace Sys2Proof.Machine

open Sys2Proof

/-- Taking a record from a queue or a deque leaves every context alone. -/
theorem State.nextRecord_keeps {s t : State} {core : Nat} {e : QEnt} (h : s.nextRecord core = some (e, t)) : Keeps s t ∧ t.ctxs = s.ctxs := by
  have take : ∀ {l : List QEnt} {i : Nat} {f : List QEnt → State}, (∀ l, Keeps s (f l) ∧ (f l).ctxs = s.ctxs) →
      (l[i]?).map (fun e => (e, f (takeAt l i))) = some (e, t) → Keeps s t ∧ t.ctxs = s.ctxs := fun hf hm => by
    obtain ⟨a, -, ha⟩ := Option.map_eq_some_iff.1 hm
    obtain ⟨-, rfl⟩ := Prod.mk.inj ha
    exact hf _
  unfold nextRecord at h
  dsimp only at h
  split at h
  · exact take (fun _ => ⟨Keeps.rfl.setCore, rfl⟩) h
  · split at h
    · rename_i r hr
      obtain ⟨v, -, hv⟩ := List.exists_of_findSome?_eq_some (hr.trans h)
      obtain ⟨i, -, hi⟩ := Option.bind_eq_some_iff.1 hv
      exact take (fun _ => ⟨Keeps.rfl.setCluster, rfl⟩) hi
    · obtain ⟨i, -, hi⟩ := List.exists_of_findSome?_eq_some h
      split at hi
      · cases hi
      · obtain ⟨j, -, hj⟩ := Option.bind_eq_some_iff.1 hi
        exact take (fun _ => ⟨Keeps.rfl.setCore, rfl⟩) hj

namespace Keeps

variable {s t u : State}

theorem endWait (h : Keeps s t) {k : Nat} : Keeps s (t.endWait k) := by
  unfold State.endWait
  dsimp only
  split
  · exact h.dropAccess.setCtx
  · refine h.setCtx ?_
    split
    · exact Ctx.shown_mark _ _ _
    · rfl
  · exact h.setCtx
  · exact h.setCtx
  · exact h.setCtx.meetGangs
  · split
    · exact h
    · exact h.setCtx
  · exact h.setCtx
  · exact h

theorem setPreempt (h : Keeps s t) {k : Nat} {a b : Bool} : Keeps s (t.setCtx k { t.ctx k with preempt := a, pmTrap := b }) := h.setCtx

theorem preemptCore (h : Keeps s t) {core : Nat} : Keeps s (t.preemptCore core) := by
  unfold State.preemptCore
  dsimp only
  have hf : Keeps s ((State.slotsOf core).foldl (fun u k => if (u.ctx k).occ = false ∨ (u.ctx k).stopped = true then u
      else (u.endWait k).setCtx k { (u.endWait k).ctx k with
        preempt := true,
        pmTrap := (t.dctx (t.resident.getD 0)).dlctl.getLsbD 32 && !((u.endWait k).ctx k).super && !((u.ctx k).wait.leaves && ((u.endWait k).checkpoint core ((u.endWait k).ctx k) ((u.endWait k).ctx k).pc).isSome) }) t) :=
    h.foldl fun _ _ => .ite (fun _ => .rfl) (fun _ => Keeps.rfl.endWait.setPreempt)
  generalize List.foldl _ t _ = u at hf ⊢
  exact .ite (fun _ => hf.setCore) (fun _ => hf)

/-- A context leaves its slot for the image of its device context (R360). -/
theorem saveCtx (h : Keeps s t) {n k : Nat} {sv : Saved} {c : Ctx} (hv : (t.dctx n).saved.getD {} = sv) (hc : c.shown = (t.ctx k).shown) :
    Keeps s (t.setDctx n { t.dctx n with saved := some { sv with ctxs := tset sv.ctxs k c } }) :=
  h.setDctx' fun ht v hw => by
    obtain rfl := Option.some.inj hw
    refine all_tset (P := Ctx.tidyBits) (fun e he => ?_) k (Ctx.tidyBits_of_shown hc (ht.ctx k))
    cases hs : (t.dctx n).saved with
    | none => exact absurd he (by simp [← hv, hs])
    | some x => exact ht.dctx n x hs e (by simpa [← hv, hs] using he)

/-- A hard save, once the context's image is written. -/
theorem hardSaved (h : Keeps s t) {core slot k : Nat} :
    let c : Ctx := { t.ctx k with preempt := false, sw := false, yld := none, pinned := false }
    let d := t.dctx (t.ctx k).dc
    let sv := d.saved.getD {}
    Keeps s (((t.setDctx (t.ctx k).dc { d with saved := some { sv with ctxs := tset sv.ctxs k c } }).setCore core ((t.core core).entitle slot c.uid)).freeCtx k) := by
  intro c d sv
  have hc : c.shown = (t.ctx k).shown := rfl
  have hd : Keeps s (t.setDctx (t.ctx k).dc { d with saved := some { sv with ctxs := tset sv.ctxs k c } }) := h.saveCtx rfl hc
  clear_value c sv
  have he : ∀ u : State, Keeps s u → u.core core = t.core core → Keeps s (u.setCore core ((t.core core).entitle slot c.uid)) := fun u hu hk =>
    hu.setCore ((Core.shown_entitle _ _ _).trans (by rw [hk]))
  exact (he _ hd rfl).freeCtx

theorem unparkAll (h : Keeps s t) {n : Nat} : Keeps s (t.unparkAll n) := by
  unfold State.unparkAll
  dsimp only
  refine setWakes (h.foldl fun u p => freeSlot (setParked ?_))
  refine .ite (fun _ => .rfl) (fun _ => .ite (fun _ => ?_) (fun _ => .ite (fun _ => Keeps.rfl.writeChain.pierWrite) (fun _ => .rfl)))
  exact .ite (fun _ => Keeps.rfl.writeChain.wcntDown) (fun _ => Keeps.rfl.writeChain.wcntDown.setWaitBit)

theorem removeRecords (h : Keeps s t) {n : Nat} : Keeps s (t.removeRecords n) := by
  unfold State.removeRecords
  extract_lets keep cl co u
  have hu : Keeps s u := h.mapCores (f := co) (fun _ => rfl) rfl
  exact hu.unparkAll

theorem beginAbort (h : Keeps s t) {n : Nat} : Keeps s (t.beginAbort n) := by
  refine .ite (fun _ => h) (fun _ => ?_)
  extract_lets d t1 t2 off co u
  have h2 : Keeps s t2 := h.setDctx.removeRecords
  have hu : Keeps s u := h2.mapCores (f := co) (fun _ => rfl) rfl
  exact hu.foldl fun _ _ => .ite (fun _ => Keeps.rfl.endWait) (fun _ => .rfl)

theorem abortLaunch (h : Keeps s t) {n : Nat} : Keeps s (t.abortLaunch n) :=
  .ite (fun _ => h.beginAbort) (fun _ => .ite (fun _ => h.setDctx) (fun _ => h))

theorem endAbort (h : Keeps s t) {n : Nat} : Keeps s (t.endAbort n) := by
  unfold State.endAbort
  split
  · exact h
  · extract_lets t1 t2 saved t3 co t4 t5
    have h2 : Keeps s t2 := h.removeRecords.foldl fun _ _ => .ite (fun _ => freeCtx (Keeps.rfl.setCore (Core.shown_releaseCtx _ _))) (fun _ => .rfl)
    have h3 : Keeps s t3 := h2.foldl fun _ _ => Keeps.rfl.setCore (Core.shown_releaseCtx _ _)
    have hco : ∀ c, (co c).shown = c.shown := fun c => by
      have hr : ∀ (d : Core) (l : List Nat) (m : Tbl SsMark) (r : Tbl (List Nat)) (p : List Score) (f : List Access) (b : Vector Bar 8),
          ({ d with exch := l, ss := m, rights := r, scores := p, flight := f, bars := b } : Core).shown = d.shown := fun _ _ _ _ _ _ _ => rfl
      exact (hr _ _ _ _ _ _ _).trans ((Core.shown_clearFault _ _).trans ((Core.shown_clearFault _ _).trans (Core.shown_foldl _ (fun d x => Core.shown_releaseKept _ _) _)))
    have h4 : Keeps s t4 := h3.mapCores hco rfl
    refine complete (setFwq (h4.setDctx' fun _ v hv => ?_))
    cases hv

theorem logError (h : Keeps s t) {kind core addr : Nat} : Keeps s (t.logError kind core addr) := h.same

theorem fence (h : Keeps s t) {core : Nat} : Keeps s (t.fence core) := by
  refine .ite (fun _ => h) (fun _ => ?_)
  exact foldl (foldl (logError (h.setCore.setRegs)) fun _ _ => Keeps.rfl.latchOf) fun _ _ => .ite (fun _ => Keeps.rfl.abortLaunch) (fun _ => .rfl)

end Keeps

namespace Fine

variable {s : State} {o : Ops}

theorem pickup (core slot : Nat) : Fine s (execPickup core slot s) := by
  refine .event ?_
  dsimp only
  split
  · exact Keeps.rfl.leads
  · rename_i n _
    by_cases hs : (s.ctx (8 * core + slot)).occ = true ∨ (s.core core).fenced = true ∨ (s.dctx n).aborting = true
    · rw [if_pos hs]
      exact Keeps.rfl.leads
    · rw [if_neg hs]
      split
      · exact Keeps.rfl.leads
      · rename_i e t ht
        obtain ⟨hk, hc⟩ := State.nextRecord_keeps ht
        have hctx : ∀ k, t.ctx k = s.ctx k := fun k => by simp only [State.ctx, hc]
        have hl : Leads t (t.load (8 * core + slot) e) := State.load_leads (by
          rw [hctx]
          exact Bool.eq_false_iff.2 fun ho => hs (.inl ho))
        exact ⟨hk.toForms.trans hl.toForms, fun k => hctx k ▸ hl.ends k⟩

theorem queueAgingPromotion (cluster level n : Nat) : Fine s (execQueueAgingPromotion cluster level n s) := by
  refine .eventK ?_
  dsimp only
  split
  · exact .ite (fun _ => .rfl) (fun _ => Keeps.rfl.setCluster.enqueue)
  · exact .rfl

theorem preemptRequest (core : Nat) : Fine s (execPreemptRequest core s) := .eventK Keeps.rfl.preemptCore

theorem leaveAtCheckpoint (core slot : Nat) : Fine s (execLeaveAtCheckpoint core slot s) := by
  refine .event ?_
  refine .ite (fun _ => Keeps.rfl.leads) (fun _ => ?_)
  split
  · exact Keeps.rfl.leads
  · refine .ite (fun _ => Keeps.rfl.leads) (fun _ => ?_)
    split
    · exact Keeps.rfl.saveFault
    · rename_i t ht
      have hk : Keeps s (t.vacate (8 * core + slot)) := (Keeps.rfl.saveContext ht).vacate
      exact .ite (fun _ => hk.pushDeque.leads) (fun _ => hk.enqueue.leads)

theorem hardSave (core slot : Nat) : Fine s (execHardSave core slot s) := by
  refine .eventK ?_
  refine .ite (fun _ => .rfl) (fun _ => .ite (fun _ => Keeps.rfl.endWait) (fun _ => ?_))
  exact Keeps.rfl.endWait.putSaved.hardSaved

theorem abort : Fine s (execAbort s) := by
  refine .eventK ?_
  split
  · exact .rfl
  · refine .ite (fun _ => .ite (fun _ => Keeps.rfl.endAbort) (fun _ => .rfl)) (fun _ => ?_)
    split
    · exact .ite (fun _ => Keeps.rfl.setFwq.abortLaunch) (fun _ => .rfl)
    · exact .rfl

end Fine

end Sys2Proof.Machine
end

section
/-! SUPPORT. What a switch of the device context and Cethen's services lead to. -/

set_option Elab.async false

namespace Sys2Proof.Machine

open Sys2Proof

/-- What every entry of two tables has, the one written over the other has. -/
theorem all_overwrite {α : Type} {P : α → Prop} {l t : Tbl α} (hl : ∀ e ∈ l, P e.2) (ht : ∀ e ∈ t, P e.2) :
    ∀ e ∈ l.foldl (fun (t : Tbl α) (e : Nat × α) => tset t e.1 e.2) t, P e.2 := by
  induction l generalizing t with
  | nil => exact ht
  | cons a r ih => exact ih (fun e he => hl e (List.mem_cons_of_mem _ he)) (all_tset ht _ (hl a List.mem_cons_self))

/-- What every value of a function has, every entry of its table has. -/
theorem all_number {α : Type} {P : α → Prop} {f : Nat → α} (l : List Nat) (h : ∀ k, P (f k)) : ∀ e ∈ l.map (fun k => (k, f k)), P e.2 := fun e he => by
  obtain ⟨k, -, rfl⟩ := List.mem_map.1 he
  exact h k

/-- The contexts that a device context's saved state holds have tidy registers. -/
theorem DevCtx.savedWf.ctxs {d : DevCtx} (h : d.savedWf) : ∀ e ∈ (d.saved.getD {}).ctxs, e.2.tidyBits := fun e he => by
  cases hs : d.saved with
  | none => exact absurd he (by simp [hs])
  | some x => exact h x hs e (by simpa [hs] using he)

theorem DevCtx.savedWf_none {d : DevCtx} {n : Word} : ({ d with saved := none, switches := n } : DevCtx).savedWf := nofun

theorem DevCtx.savedWf_some {d : DevCtx} {v : Saved} (h : ∀ e ∈ v.ctxs, e.2.tidyBits) : ({ d with saved := some v } : DevCtx).savedWf := fun x hx => by
  obtain rfl := Option.some.inj hx
  exact h

/-- A core that an image gives has its memories in canonical form. -/
theorem State.getImage_memWf (s : State) (sv k : Nat) (c : Core) : (s.getImage sv k c).memWf :=
  ⟨wf_mcopy rfl _ _ _ _, wf_mcopy rfl _ _ _ _, wf_mcopy rfl _ _ _ _, wf_mcopy rfl _ _ _ _⟩

theorem Core.over_memWf {old new : Core} (h : new.memWf) : (old.over new).memWf := h
theorem Core.over_dutyWf {old new : Core} (h : old.dutyWf) : (old.over new).dutyWf := h

namespace Keeps

variable {s t u : State}

theorem putImage (h : Keeps s t) {sv k : Nat} {saved : Nat → Bool} : Keeps s (t.putImage sv saved k) := by
  unfold State.putImage
  exact foldl (putLines (putLines (putLines (putLines (putLines (putLines (putLines h))))))) fun _ _ => .ite (fun _ => .rfl) (fun _ => Keeps.rfl.putLines)

/-- A write of a device context whose saved contexts come from a state before. -/
theorem setDctxOf (h : Keeps s t) {n : Nat} {d : DevCtx} (hd : s.regsWf → d.savedWf) : Keeps s (t.setDctx n d) :=
  ⟨⟨h.mem, h.buffers, fun hs => ⟨(h.regs hs).1, all_tset (P := DevCtx.savedWf) (h.regs hs).2.1 n (hd hs), (h.regs hs).2.2⟩⟩, h.stays⟩

theorem switchOut (h : Keeps s t) {n : Nat} : Keeps s (t.switchOut n) := by
  unfold State.switchOut
  extract_lets t1 sv held saved t2 t3 d stops ctxs v t4
  have h1 : Keeps s t1 := (h.setWakes (l := [])).foldl fun _ _ => Keeps.rfl.enqueue
  have h2 : Keeps s t2 := h1.foldl fun _ _ => Keeps.rfl.putImage
  have h3 : Keeps s t3 := h2.putOpen
  have hh : s.regsWf → ∀ e ∈ held, e.2.tidyBits := fun hs => ((h1.regs hs).dctx n).ctxs
  have ht : s.regsWf → ∀ e ∈ stops, e.2.tidyBits := fun hs e he => (h3.regs hs).1 e (List.mem_filter.1 he).1
  clear_value t3 held stops
  have hc : s.regsWf → ∀ e ∈ ctxs, e.2.tidyBits := fun hs => all_overwrite (ht hs) (hh hs)
  clear_value ctxs
  have h4 : Keeps s t4 := h3.setDctxOf fun hs => DevCtx.savedWf_some (hc hs)
  exact h4.foldl fun _ _ => Keeps.rfl.freeCtx

theorem setResidency (h : Keeps s t) {e : Word} {n : Nat} : Keeps s { t with energySum := e, residentSince := n } := h.same

theorem charged (h : Keeps s t) {n : Nat} : Keeps s (t.charged n) := by
  unfold State.charged
  exact setResidency h.setDctx

theorem fenceBad (h : Keeps s t) {sv : Nat} : Keeps s (t.fenceBad sv) :=
  .ite (fun _ => h) (fun _ => h.foldl fun _ _ => .ite (fun _ => Keeps.rfl.fence) (fun _ => .rfl))

theorem moveWakes (h : Keeps s t) {n : Nat} : Keeps s (t.moveWakes n) := by
  unfold State.moveWakes
  dsimp only
  refine foldl (.ite (fun _ => h) (fun _ => h.pierWrite.pierWrite)) fun u a => ?_
  split
  · exact .rfl
  · exact Keeps.rfl.setParked.freeSlot.enqueue

/-! Cethen's services. -/

theorem writeParts (h : Keeps s t) {bs : List Nat} {es : List (Part × Phys)} : Keeps s (t.writeParts bs es) := heal (h.foldl fun _ _ => Keeps.rfl.storeHome)

theorem setResident (h : Keeps s t) {a b : Option Nat} : Keeps s { t with resident := a, incoming := b } := h.same

theorem setFuse (h : Keeps s t) {n : Nat} {r : Regs} : Keeps s { t with fuseSteps := n, regs := r } := h.same

theorem post (h : Keeps s t) {q : FwReq} {op entry base sz pa : Nat} : Keeps s (t.post q op entry base sz pa) := h.same

theorem unmapGroup (h : Keeps s t) {entry n : Nat} : Keeps s (t.unmapGroup entry n) := h.foldl fun _ _ => Keeps.rfl.pierWrite

theorem stageFe (h : Keeps s t) {pa lines : Nat} : Keeps s (t.stageFe pa lines) := clearPoison (h.foldl fun _ _ => Keeps.rfl.storeHome)

end Keeps

/-- New cores and contexts with the forms that the invariants ask for. -/
theorem Forms.loaded {s : State} {cores : Tbl Core} {ctxs : Tbl Ctx} {clusters : Tbl Cluster} {truss : Vector Group 8} {latched : List (Nat × Nat)}
    (hm : ∀ e ∈ cores, e.2.memWf) (hd : s.regsWf → ∀ e ∈ cores, e.2.dutyWf) (hv : s.regsWf → ∀ e ∈ ctxs, e.2.tidyBits) :
    Forms s { s with cores, clusters, truss, latched, ctxs } :=
  ⟨id, fun _ => State.buffersWf_iff.2 fun k => tget_all (P := Core.memWf) hm Core.memWf_default k, fun hs => ⟨hv hs, hs.2.1, hd hs, hs.2.2.2⟩⟩

/-- A switch in keeps the invariants: its cores come from their images, its contexts from the saved state. -/
theorem State.switchIn_forms (s : State) (n : Nat) : Forms s (s.switchIn n) := by
  unfold State.switchIn
  dsimp only
  refine (Forms.loaded (all_number _ fun k => Core.over_memWf ?_) (fun hs => all_number _ fun k => Core.over_dutyWf (hs.core k))
    (fun hs => all_overwrite (hs.dctx n).ctxs hs.1)).trans (Keeps.rfl.setDctx' fun _ => DevCtx.savedWf_none).toForms
  split
  · exact State.getImage_memWf _ _ _ _
  · exact Core.memWf_default

/-- What follows a switch in: the template, the wake list, the fences and an abort that fell due. -/
theorem Keeps.afterSwitch {s t : State} (h : Keeps s t) {n : Nat} {bad : Bool} {area : Nat} :
    let u := (t.readTemplate n).getD (t.setDctx n ((t.dctx n).setStat 4 4 3))
    let v := (if bad then (u.moveWakes n).fenceBad area else u.moveWakes n).latchAll
    Keeps s (if (v.dctx n).abortDue || (bad && v.badBlock area) then (v.setDctx n { v.dctx n with abortDue := false }).beginAbort n else v) := by
  intro u v
  have hu : Keeps s u := by
    unfold u
    cases hr : t.readTemplate n with
    | none => exact h.setDctx
    | some x => exact h.readTemplate hr
  have hv : Keeps s v := latchAll (.ite (fun _ => hu.moveWakes.fenceBad) (fun _ => hu.moveWakes))
  exact .ite (fun _ => hv.setDctx.beginAbort) (fun _ => hv)

/-- SWITCH_SAVE_AND_LOAD keeps the invariants. -/
theorem switchSaveAndLoad_forms {s t : State} (h : execSwitchSaveAndLoad s = .next t) : Forms s t := by
  unfold execSwitchSaveAndLoad event at h
  obtain rfl := Host.Outcome.next.inj h
  clear h
  dsimp only
  split
  · split
    · rename_i o n _ _
      split
      · exact .refl s
      · have h1 : Forms s ((s.switchOut o).charged o) := Keeps.rfl.switchOut.charged.toForms
        exact (h1.trans (State.switchIn_forms _ n)).trans Keeps.rfl.setResident.afterSwitch.toForms
    · exact .refl s
  · exact .refl s

namespace Fine

variable {s : State} {o : Ops}

theorem contextSwitch (incoming : Nat) : Fine s (execContextSwitch incoming s) := by
  refine .eventK ?_
  have h : Keeps s { s with incoming := some incoming } := Keeps.rfl.same
  exact h.foldl fun _ _ => Keeps.rfl.preemptCore

theorem serve {svc : Nat} {f : FwReq → State → State} (hf : ∀ q, Keeps s (f q s)) : Fine s (serve svc f s) := by
  refine .eventK ?_
  split
  · exact .ite (fun _ => hf _) (fun _ => .rfl)
  · exact .rfl

theorem fwVersion : Fine s (execFwVersion s) := serve fun _ => Keeps.rfl.finish
theorem linkStatus : Fine s (execLinkStatus s) := serve fun _ => Keeps.rfl.finish
theorem powerNow : Fine s (execPowerNow s) := serve fun _ => Keeps.rfl.finish

theorem attestationQuote : Fine s (execAttestationQuote s) := serve fun q => by
  dsimp only
  split
  · exact .ite (fun _ => .rfl) (fun _ => Keeps.rfl.writeParts.finish)
  · exact Keeps.rfl.finish

theorem powerLimit : Fine s (execPowerLimit s) := serve fun _ => .ite (fun _ => Keeps.rfl.finish) (fun _ => Keeps.rfl.setDctx.finish)

theorem firmwareUpdate : Fine s (execFirmwareUpdate s) := serve fun q => by
  refine .ite (fun _ => .rfl) (fun _ => ?_)
  split
  · exact Keeps.rfl.finish
  · refine .ite (fun _ => .rfl) (fun _ => .ite (fun _ => Keeps.rfl.finish) (fun _ => ?_))
    split
    · exact Keeps.rfl.finish
    · exact .ite (fun _ => Keeps.rfl.finish) (fun _ => .ite (fun _ => Keeps.rfl.finish) (fun _ => .ite (fun _ => Keeps.rfl.finish) (fun _ => Keeps.rfl.setFuse.finish)))

theorem pageIn : Fine s (execPageIn s) := serve fun q => by
  split
  · exact Keeps.rfl.finish
  · exact Keeps.rfl.finish
  · exact Keeps.rfl.finish
  · exact .ite (fun _ => Keeps.rfl.finish) (fun _ => Keeps.rfl.post)

theorem pageOut : Fine s (execPageOut s) := serve fun q => by
  split
  · exact Keeps.rfl.finish
  · exact Keeps.rfl.finish
  · exact Keeps.rfl.finish
  · exact .ite (fun _ => Keeps.rfl.finish) (fun _ => .ite (fun _ => Keeps.rfl.finish) (fun _ => .ite (fun _ => Keeps.rfl.finish) (fun _ => .ite (fun _ => .rfl)
      (fun _ => Keeps.post (Keeps.stageFe (Keeps.rfl.unmapGroup.foldl fun _ _ => Keeps.rfl.flushCluster))))))

theorem mailboxAnswer (v : Word) : Fine s (execMailboxAnswer v s) := .eventK Keeps.rfl.mailboxWrite

end Fine

end Sys2Proof.Machine
end

section
/-! SUPPORT. What boot, links, power, freezes, errors and the reference clock lead to. -/

set_option Elab.async false

namespace Sys2Proof.Machine

open Sys2Proof

/-- A duty after a period lies from 1 to 16 (R381). -/
theorem nextDuty_bounds (old : Nat) (want : Option Nat) (hot : Bool) : 1 ≤ nextDuty old want hot ∧ nextDuty old want hot ≤ 16 := by
  unfold nextDuty
  dsimp only
  omega

namespace Keeps

variable {s t u : State}

theorem portSet (h : Keeps s t) {n st lanes : Nat} : Keeps s (t.portSet n st lanes) := h.setPort
theorem flits (h : Keeps s t) {n : Nat} : Keeps s (t.flits n) := h.setPort.fresh

theorem loseOutstanding (h : Keeps s t) {port : Nat} : Keeps s (t.loseOutstanding port) := by
  unfold State.loseOutstanding
  extract_lets piece epiece eng co
  exact h.mapCores (f := co) (fun _ => rfl) rfl

theorem raiseError (h : Keeps s t) {sram : Bool} {kind core addr : Nat} : Keeps s (t.raiseError sram kind core addr) := h.same
theorem setPoison (h : Keeps s t) {l : List Nat} : Keeps s { t with poison := l } := h.same

theorem setBudget (h : Keeps s t) {n : Nat} {r : Regs} : Keeps s { t with budgetAt := n, regs := r } := h.same

theorem setFetch (h : Keeps s t) {n : Nat} : Keeps s { t with fetchStart := n } := h.same

/-- A write of all rows whose balances stay at most 256. -/
theorem setRows (h : Keeps s t) {rows : Tbl Row} {n : Word} (hr : ∀ e ∈ rows, e.2.balance ≤ 256) : Keeps s { t with now := n, rows } :=
  h.trans ⟨⟨id, id, fun ht => ⟨ht.1, ht.2.1, ht.2.2.1, hr⟩⟩, fun _ => .refl _⟩

theorem setDuty (h : Keeps s t) {k : Nat} {want : Option Nat} {hot : Bool} :
    Keeps s (t.setCore k { t.core k with fduty := BitVec.ofNat 5 (nextDuty (t.core k).fduty.toNat want hot) }) :=
  h.setCore' id fun _ => by
    have hn := nextDuty_bounds (t.core k).fduty.toNat want hot
    simp only [Core.dutyWf, BitVec.toNat_ofNat]
    omega

/-- A write of what the boot ROM and Cethen start with: the memories of the management cores too. -/
theorem setMgmt (h : Keeps s t) {m : Mgmt} (hm : m.mem.wf = true) : Keeps s { t with mgmt := m } := by
  refine h.trans ⟨⟨fun ht => ?_, id, id⟩, fun _ => .refl _⟩
  rw [State.memWf_iff] at *
  exact ⟨ht.1, ht.2.1, hm⟩

theorem cethenStart (h : Keeps s t) {dev : BitVec 12} : Keeps s (t.cethenStart dev) := by
  unfold State.cethenStart
  refine setBoot (foldl (setDctx ?_) fun _ _ => Keeps.rfl.ulctlSet)
  exact h.setMem (fun hm => wf_mclear hm _ _) rfl

end Keeps

/-- What a device reset comes to: memory contents, what is fused, and fields that the invariants do not look at, over empty tables (R371). -/
theorem Keeps.ofReset {s t : State} (hm : t.mem = s.mem) (hr : t.rmem = s.rmem) (hg : t.mgmt.mem = []) (hc : t.ctxs = []) (hk : t.cores = []) (hw : t.rows = [])
    (hd : t.devctxs = []) : Keeps s t := by
  refine ⟨⟨fun hs => ?_, fun _ => State.buffersWf_iff.2 fun k => ?_, fun _ => State.regsWf_iff.2 ?_⟩, fun k ho => ?_⟩
  · rw [State.memWf_iff] at *
    exact ⟨hm ▸ hs.1, hr ▸ hs.2.1, hg ▸ rfl⟩
  · rw [State.core, hk]
    exact Core.memWf_default
  · rw [hc, hk, hw, hd]
    exact ⟨List.forall_mem_nil _, List.forall_mem_nil _, List.forall_mem_nil _, List.forall_mem_nil _⟩
  · rw [State.ctx, hc] at ho
    cases ho

namespace Fine

variable {s : State} {o : Ops}

theorem reset (pcie : Bool) : Fine s (execReset pcie s) := by
  refine .next (Keeps.leads ?_)
  exact Keeps.ofReset rfl rfl rfl rfl rfl rfl rfl

theorem bootFetch (image : List Byte) : Fine s (execBootFetch image s) := by
  refine .eventK ?_
  refine .ite (fun _ => .ite (fun _ => Keeps.rfl.setFetch.setBoot) (fun _ => Keeps.rfl.bootFail)) (fun _ => ?_)
  extract_lets mem
  refine Keeps.setBoot ?_
  exact Keeps.rfl.setMem (t := s) (fun hm => wf_mblit hm _ _) rfl

theorem bootTimeout : Fine s (execBootTimeout s) := .eventK Keeps.rfl.bootFail

theorem bootVerify (hbm : Bool) (dev : BitVec 12) (trap : Bool) : Fine s (execBootVerify hbm dev trap s) := by
  refine .eventK ?_
  exact .ite (fun _ => Keeps.rfl.bootFail) (fun _ => .ite (fun _ => .rfl) (fun _ => .ite (fun _ => .ite (fun _ => Keeps.rfl.bootFail) (fun _ => (Keeps.rfl.setMgmt (wf_mblit rfl _ _)).setBoot))
    (fun _ => .ite (fun _ => Keeps.rfl.bootFail) (fun _ => .ite (fun _ => Keeps.rfl.bootFail) (fun _ => Keeps.rfl.cethenStart)))))

theorem ulctlWrite (port : Nat) (v : Word) : Fine s (execUlctlWrite port v s) := .eventK Keeps.rfl.ulctlSet
theorem linkUp (port lanes : Nat) : Fine s (execLinkUp port lanes s) := .eventK Keeps.rfl.portSet.flits
theorem linkTrainingTimeout (port : Nat) : Fine s (execLinkTrainingTimeout port s) := .eventK Keeps.rfl.portSet
theorem linkPeerLoss (port : Nat) : Fine s (execLinkPeerLoss port s) := .eventK Keeps.rfl.loseOutstanding.portSet.flits

theorem reductionBlockArrival (port i : Nat) (block : Vec) : Fine s (execReductionBlockArrival port i block s) := by
  refine .eventK ?_
  dsimp only
  split
  · exact .rfl
  · exact .ite (fun _ => .rfl) (fun _ => Keeps.rfl.setPort.storeHome.storeHome)

theorem rqrelWrite (port : Nat) (v : Word) : Fine s (execRqrelWrite port v s) := .eventK Keeps.rfl.rqrelSet

theorem budgetPeriod (plan : BudgetPlan) : Fine s (execBudgetPeriod plan s) := by
  refine .eventK ?_
  extract_lets s1 s2 s3 r s4
  have h1 : Keeps s s1 := Keeps.rfl.foldl fun _ _ => Keeps.rfl.setCluster
  have h2 : Keeps s s2 := h1.foldl fun _ _ => Keeps.rfl.setDuty
  have h3 : Keeps s s3 := h2.foldl fun u r => by
    split
    · exact .rfl
    · exact Keeps.rfl.setRow id
  have h4 : Keeps s s4 := h3.setBudget
  exact .ite (fun _ => h4.doFreeze) (fun _ => h4)

theorem keeperTaperEnd (row : Nat) : Fine s (execKeeperTaperEnd row s) := by
  refine .eventK ?_
  split
  · exact .ite (fun _ => Keeps.rfl.setRow id) (fun _ => .rfl)
  · exact .rfl

theorem refresh (pier : Nat) : Fine s (execRefresh pier s) := .eventK .rfl
theorem freeze : Fine s (execFreeze s) := .eventK Keeps.rfl.doFreeze
theorem frzWrite (v : Word) : Fine s (execFrzWrite v s) := .eventK Keeps.rfl.frzSet
theorem tapFreeze : Fine s (execTapFreeze s) := .eventK Keeps.rfl.doFreeze
theorem frozenReadout (region off : Nat) : Fine s (execFrozenReadout region off s) := .next Keeps.rfl.leads

theorem eccUncorrectable (site : EccSite) : Fine s (execEccUncorrectable site s) := by
  unfold execEccUncorrectable
  refine .eventK ?_
  cases site with
  | line pa => exact Keeps.rfl.setPoison.raiseError
  | cacheLine core line => exact Keeps.rfl.setCore.setCluster.setRegs
  | context core slot =>
    have hc : Keeps s (if (s.ctx (8 * core + slot)).occ then s.setCtx (8 * core + slot) { s.ctx (8 * core + slot) with ecc := some { cause := 18, xinfo := info 15 15 0 } } else s) :=
      .ite (fun _ => Keeps.rfl.setCtx) (fun _ => .rfl)
    exact .ite (fun _ => hc.raiseError.setCore.fence) (fun _ => hc.raiseError.setCore)
  | coreState core => exact Keeps.rfl.raiseError.fence

theorem eccCorrected (sram : Bool) : Fine s (execEccCorrected sram s) := .eventK Keeps.rfl.same
theorem crepClear (cluster : Nat) (v : Word) : Fine s (execCrepClear cluster v s) := .eventK Keeps.rfl.crepSet
theorem cstopClear (cluster : Nat) (v : Word) : Fine s (execCstopClear cluster v s) := .eventK Keeps.rfl.cstopSet

theorem referenceTick : Fine s (execReferenceTick s) := by
  refine .eventK ?_
  exact Keeps.rfl.setRows (all_number (P := fun r : Row => r.balance ≤ 256) _ fun _ => Nat.min_le_left _ _)

end Fine

end Sys2Proof.Machine
end

section
/-! SUPPORT. What commits and PST2, WAITC and IDLE lead to. -/

set_option Elab.async false

namespace Sys2Proof.Machine

open Sys2Proof

namespace Keeps

variable {s t u : State}

theorem hdrSet (h : Keeps s t) {hdr bit n v : Nat} : Keeps s (t.hdrSet hdr bit n v) := h.pierWrite

theorem gaccAt (h : Keeps s t) {pa hdr : Nat} {lanes : List (Option Nat)} : Keeps s (t.gaccAt pa hdr lanes) := by
  refine .ite (fun _ => h.hdrSet) (fun _ => foldl h.hdrSet fun u l => ?_)
  split
  · exact .rfl
  · have hw := fun a n v => (Keeps.rfl (s := u)).pierWrite (pa := a) (n := n) (v := v)
    refine .ite (fun _ => hdrSet ?_) (fun _ => ?_)
    · exact .ite (fun _ => (hw _ _ _).hdrSet) (fun _ => hw _ _ _)
    · exact .ite (fun _ => (hw _ _ _).hdrSet) (fun _ => hw _ _ _)

theorem setJobs (h : Keeps s t) {l : Tbl Job} : Keeps s { t with jobs := l } := h.same
theorem setJobsNext (h : Keeps s t) {l : Tbl Job} {n : Nat} : Keeps s { t with jobs := l, nextJob := n } := h.same
theorem setJobsLate (h : Keeps s t) {l : Tbl Job} {w : List (Nat × Nat × Nat)} : Keeps s { t with jobs := l, late := w } := h.same

theorem beginCommit (h : Keeps s t) {pa hdr : Nat} : Keeps s (t.beginCommit pa hdr) := setJobsNext h.hdrSet.hdrSet

theorem commitParam (h : Keeps s t) {rule pa hdr j : Nat} {rules : Mem} : Keeps s (t.commitParam rule pa hdr rules j).1 := h.foldl fun _ _ => Keeps.rfl.pierWrite

theorem commitRule (h : Keeps s t) {rule pa hdr : Nat} {rules : Mem} : Keeps s (t.commitRule rule pa hdr rules).1 := by
  unfold State.commitRule
  generalize List.range 16 = l
  refine foldl_keeps (P := fun r : State × Nat => Keeps s r.1) (fun r j hr => ?_) l (b := (t, 0)) h
  exact commitParam hr

theorem commitCopy (h : Keeps s t) {a : Armed} {j w : Nat} : Keeps s (t.commitCopy a j w) := h.pierWrite.pierWrite

end Keeps

namespace Fine

variable {s : State} {o : Ops}

theorem gaccPerform (core id : Nat) : Fine s (execGaccPerform core id s) := by
  refine .eventK ?_
  split
  · exact .rfl
  · split
    · refine .ite (fun _ => .rfl) (fun _ => ?_)
      split
      · exact Keeps.rfl.failAccess
      · exact Keeps.rfl.gaccAt.dropBlock.dropAccess
    · exact .rfl

theorem arrival (core id : Nat) : Fine s (execArrival core id s) := by
  refine .event ?_
  split
  · exact Keeps.rfl.leads
  · refine .ite (fun _ => Keeps.rfl.leads) (fun _ => ?_)
    split
    · exact Keeps.rfl.failAccess.leads
    · refine .ite (fun _ => Keeps.rfl.feTrap) (fun _ => ?_)
      have h : ∀ t k, Keeps s t → Keeps s (t.completeHeld k fun c => c) := fun _ _ ht => ht.completeHeld fun _ => rfl
      exact .ite (fun _ => (h _ _ Keeps.rfl.hdrSet.dropBlock.dropAccess).beginCommit.leads) (fun _ => (h _ _ Keeps.rfl.hdrSet.dropBlock.dropAccess).leads)

theorem workingCopyEmpty (job : Nat) : Fine s (execWorkingCopyEmpty job s) := by
  refine .eventK ?_
  dsimp only
  split
  · exact .rfl
  · exact .ite (fun _ => .rfl) (fun _ => Keeps.rfl.setJobs.setFe)

theorem commitWrites (job : Nat) : Fine s (execCommitWrites job s) := by
  refine .eventK ?_
  dsimp only
  split
  · exact .ite (fun _ => .rfl) (fun _ => Keeps.setJobs (Keeps.rfl.commitRule.hdrSet.foldl fun _ _ => Keeps.rfl.commitCopy))
  · exact .rfl

theorem commitFills (job : Nat) : Fine s (execCommitFills job s) := by
  refine .eventK ?_
  dsimp only
  split
  · exact .ite (fun _ => .rfl) (fun _ => Keeps.rfl.setJobs.foldl fun _ _ => Keeps.rfl.setFe)
  · exact .rfl

theorem commitEnd (job : Nat) : Fine s (execCommitEnd job s) := by
  refine .eventK ?_
  extract_lets j
  split
  · refine .ite (fun _ => .rfl) (fun _ => ?_)
    extract_lets s1 s2 s3 s4 s5 s6
    have h4 : Keeps s s4 := (Keeps.rfl.foldl fun _ _ => Keeps.rfl.pierWrite).hdrSet.hdrSet.hdrSet
    have h5 : Keeps s s5 := .ite (fun _ => h4.hdrSet) (fun _ => h4)
    exact h5.hdrSet.setJobsLate.foldl fun _ _ => Keeps.rfl.lateWrite
  · exact .rfl

theorem pst2Writes (job : Nat) : Fine s (execPst2Writes job s) := by
  refine .eventK ?_
  dsimp only
  split
  · exact .ite (fun _ => .rfl) (fun _ => Keeps.setJobs (Keeps.rfl.foldl fun _ _ => Keeps.rfl.storeHome.afterStore))
  · exact .rfl

theorem pst2Fills (job : Nat) : Fine s (execPst2Fills job s) := by
  refine .eventK ?_
  dsimp only
  split
  · exact .ite (fun _ => .rfl) (fun _ => (Keeps.rfl.setJobs.foldl fun _ _ => Keeps.rfl.setFe).completeHeld fun _ => rfl)
  · exact .rfl

theorem waitc : Fine s (execWaitc o s) := by
  refine .issue ?_
  refine .ite (fun _ => .stall) (fun _ => ?_)
  split
  · exact .trap
  · refine .ite (fun _ => .trap) (fun _ => ?_)
    split
    · exact .trap
    · split
      · exact .trap
      · dsimp only
        split
        · exact .done ((Keeps.rfl.setCo (Core.shown_waitcEval _ _ _ _)).setCx (Ctx.shown_setP _ _ _))
        · refine .ite (fun _ => .ite (fun _ => .stall) (fun _ => ?_)) (fun _ => .hold (Keeps.rfl.setCx (Ctx.shown_mark _ _ _)))
          split
          · exact .trap
          · rename_i t ht
            exact .gone ((Keeps.rfl.saveContext ht).setCo.vacate).leads

theorem waitcProbe (core slot cond : Nat) : Fine s (execWaitcProbe core slot cond s) := by
  refine .eventK ?_
  dsimp only
  split
  · split
    · refine .ite (fun _ => .rfl) (fun _ => ?_)
      split
      · exact Keeps.rfl.setCtx
      · exact Keeps.rfl.forget.setCtx.reevaluate
    · exact .rfl
  · exact .rfl

theorem waitcTimeout (core slot : Nat) : Fine s (execWaitcTimeout core slot s) := by
  refine .eventK ?_
  dsimp only
  split
  · exact .ite (fun _ => .rfl) (fun _ => Keeps.rfl.completeHeld fun c => (Ctx.shown_mark _ _ _).trans (Ctx.shown_setP _ _ _))
  · exact .rfl

theorem idle : Fine s (execIdle o s) := by
  refine .issue ?_
  exact .ite (fun _ => .stall) (fun _ => .ite (fun _ => .trap) (fun _ => .ite (fun _ => .done .rfl) (fun _ => .hold .rfl)))

theorem idleWake (core slot : Nat) : Fine s (execIdleWake core slot s) := by
  refine .eventK ?_
  dsimp only
  split
  · exact .ite (fun _ => Keeps.rfl.completeHeld fun _ => rfl) (fun _ => .rfl)
  · exact .rfl

end Fine

end Sys2Proof.Machine
end

section
/-! SUPPORT. What every instruction and every device event leads to, and what a turn leads to. -/

set_option Elab.async false

namespace Sys2Proof.Machine

open Sys2Proof

/-- Every instruction and event but TRET and a switch in keeps the invariants, and leaves the mode and the suspensions of each context that stays in its slot,
save taking a trap (R246). -/
theorem exec_fine {i : Instr} {s : State} (ht : ∀ o, i ≠ .tret o) (hs : i ≠ .switchSaveAndLoad) : Fine s (exec i s) := by
  unfold exec
  cases i with
  | tret o => exact absurd rfl (ht o)
  | switchSaveAndLoad => exact absurd rfl hs
  | nop _ => exact .nop
  | mov _ | clz _ | ctz _ | popc _ | abs _ | fatx _ => dsimp only; exact .oneOp _ _
  | movi _ => exact .movi
  | add _ | sub _ | and _ | or _ | xor _ | andn _ | shl _ | shr _ | sar _ | mul _ | mulh _ | mulhn _ | rol _ | ror _ | min _ | max _ | minn _ | maxn _ | fats _ => dsimp only; exact .aluOp _ _
  | cmp _ => exact .cmp
  | sel _ => exact .sel
  | ld _ | ldI8 _ | ldN8 _ | ldI16 _ | ldN16 _ | ldI32 _ | ldN32 _ => dsimp only; exact .loadOp _ _ _ _
  | st _ | st8 _ | st16 _ | st32 _ => dsimp only; exact .storeOp _ _ _
  | ldl _ => exact .ldl
  | stl _ => exact .stl
  | br _ => exact .br
  | call _ => exact .call
  | ret _ => exact .ret
  | jmp _ => exact .jmp
  | loop _ => exact .loop
  | waitc _ => exact .waitc
  | yield _ => exact .yield
  | halt _ => exact .halt
  | haltRetain _ => exact .haltRetain
  | trap _ => exact .trap
  | div _ | divn _ | rem _ | remn _ => dsimp only; exact .divOp _ _
  | ext _ | extn _ | ins _ => dsimp only; exact .bfOp _ _
  | lea _ | addp _ => dsimp only; exact .ptrOp _ _
  | pand _ | por _ | pxor _ => dsimp only; exact .predOp _ _
  | pnot _ => exact .pnot
  | movp _ => exact .movp
  | lcr _ => exact .lcr
  | lcw _ => exact .lcw
  | ldw _ | ldc _ | stf _ | ste _ | feget _ | feset _ => dsimp only; exact .feOp _ _ _
  | pst2 _ => exact .pst2
  | pref _ => exact .pref
  | fence _ => exact .fence
  | fencex _ => exact .fencex
  | aadd _ | aand _ | aor _ | axor _ | amin _ | amax _ | aminn _ | amaxn _ | aswp _ | acas _ | afadd _ | afmax _ => dsimp only; exact .atomicOp _ _
  | gacc _ => exact .gacc
  | garr _ => exact .garr
  | garm _ => exact .garm
  | gstat _ => exact .gstat
  | vld _ => exact .vld
  | vst _ => exact .vst
  | vlds _ | vgth _ => dsimp only; exact .gatherOp _ _ _
  | vsts _ | vsct _ => dsimp only; exact .scatterOp _ _ _
  | vldl _ => exact .vldl
  | vstl _ => exact .vstl
  | vldt _ => exact .vldt
  | vstt _ => exact .vstt
  | vldc _ => exact .vldc
  | vmov _ => exact .vmov
  | vbcast _ => exact .vbcast
  | vext _ => exact .vext
  | vins _ => exact .vins
  | vperm _ => exact .vperm
  | vcompr _ => exact .vcompr
  | vmlog _ => exact .vmlog
  | vmpop _ => exact .vmpop
  | vmget _ => exact .vmget
  | vfadd _ | vfsub _ | vfmul _ | vfmin _ | vfmax _ => dsimp only; exact .vfBin _ _
  | vfma _ | vfnma _ => dsimp only; exact .vfMulAdd _ _
  | vfdot _ => exact .vfdot
  | vfabs _ | vfneg _ => dsimp only; exact .vfSign _ _
  | vfdiv _ | vfsqrt _ | vfrsq _ => dsimp only; exact .vfLate _ _ _
  | vfcmp _ => exact .vfcmp
  | vfred _ => exact .vfred
  | vfrmax _ => exact .vfrmax
  | vfscl _ => exact .vfscl
  | vadd _ | vsub _ | vmul _ | vmulh _ | vmin _ | vmax _ | vand _ | vor _ | vxor _ | vshl _ | vshr _ | vsar _ => dsimp only; exact .viBin _ _
  | vcmp _ => exact .vcmp
  | vsel _ => exact .vsel
  | vabs _ => exact .vabs
  | vred _ => exact .vred
  | vidx _ => exact .vidx
  | vdot4 _ => exact .vdot4
  | vcvtf _ => exact .vcvtf
  | vcvti _ | vcvtfi _ => dsimp only; exact .cvtOp _ _
  | vpack _ => exact .vpack
  | vunpk _ => exact .vunpk
  | vqdb _ => exact .vqdb
  | vdqdb _ => exact .vdqdb
  | vbmax _ => exact .vbmax
  | vqf8 _ => exact .vqf8
  | baddrq _ => exact .baddrq
  | tclaim _ => exact .tclaim
  | trel _ => exact .trel
  | tscl _ => exact .tscl
  | mcfg _ => exact .mcfg
  | mma _ | msamp _ | msp24 _ => dsimp only; exact .productOp _ _ _ _ _
  | tnorm _ => exact .tnorm
  | tstat _ => exact .tstat
  | tzero _ => exact .tzero
  | tcvt _ => exact .tcvt
  | tspill _ => exact .tspill
  | tfill _ => exact .tfill
  | sdset _ => exact .sdset
  | sdget _ => exact .sdget
  | xcopy _ | xcopym _ | iwalk _ | igath _ => dsimp only; exact .engineOp _ _ _
  | ego _ => exact .ego
  | egoResume _ => exact .egoResume
  | erdv _ => exact .erdv
  | ecset _ => exact .ecset
  | ecadd _ => exact .ecadd
  | barr _ => exact .barr
  | barw _ => exact .barw
  | barmx _ => exact .barmx
  | barx _ => exact .barx
  | fork _ => exact .fork
  | join _ => exact .join
  | dqpush _ => exact .dqpush
  | dqpop _ => exact .dqpop
  | dqpopLq _ => exact .dqpopLq
  | dqsteal _ => exact .dqsteal
  | handoff _ => exact .handoff
  | capq _ => exact .capq
  | ssend _ => exact .ssend
  | msgsend _ => exact .msgsend
  | msgrecv _ => exact .msgrecv
  | mfs _ => exact .mfs
  | mts _ => exact .mts
  | fwcall _ => exact .fwcall
  | tlbinv _ => exact .tlbinv
  | cinv _ => exact .cinv
  | cwb _ => exact .cwb
  | brk _ => exact .brk
  | idle _ => exact .idle
  | pglob _ => exact .pglob
  | resultWriteback _ _ => dsimp only; exact .resultWriteback _ _
  | trapEntry _ _ => dsimp only; exact .trapEntry _ _
  | crepWindowClose _ => dsimp only; exact .crepWindowClose _
  | pierAccess _ _ _ => dsimp only; exact .pierAccess _ _ _
  | feEvaluation _ _ => dsimp only; exact .feEvaluation _ _
  | feBackoffExpiry _ _ => dsimp only; exact .feBackoffExpiry _ _
  | parkRequest _ _ => dsimp only; exact .parkRequest _ _
  | wakeEnqueue _ => dsimp only; exact .wakeEnqueue _
  | waitcProbe _ _ _ => dsimp only; exact .waitcProbe _ _ _
  | waitcTimeout _ _ => dsimp only; exact .waitcTimeout _ _
  | idleWake _ _ => dsimp only; exact .idleWake _ _
  | tclaimRetry _ _ => dsimp only; exact .tclaimRetry _ _
  | accumulatorBindRetry _ _ => dsimp only; exact .accumulatorBindRetry _ _
  | msgsendRetry _ _ => dsimp only; exact .msgsendRetry _ _
  | gangJoin _ _ => dsimp only; exact .gangJoin _ _
  | gangWaitExpiry _ _ => dsimp only; exact .gangWaitExpiry _ _
  | matrixOpStart _ => dsimp only; exact .matrixOpStart _
  | matrixOpEnd _ => dsimp only; exact .matrixOpEnd _
  | engineCommandStart _ _ => dsimp only; exact .engineCommandStart _ _
  | enginePiece _ _ _ _ _ => dsimp only; exact .enginePiece _ _ _ _ _
  | engineCommandComplete _ _ _ => dsimp only; exact .engineCommandComplete _ _ _
  | engineFault _ _ _ => dsimp only; exact .engineFault _ _ _
  | engineProgramEnd _ _ => dsimp only; exact .engineProgramEnd _ _
  | barrierPhaseLatch _ _ => dsimp only; exact .barrierPhaseLatch _ _
  | barrierCompletion _ _ => dsimp only; exact .barrierCompletion _ _
  | regionArrival _ => dsimp only; exact .regionArrival _
  | gaccPerform _ _ => dsimp only; exact .gaccPerform _ _
  | arrival _ _ => dsimp only; exact .arrival _ _
  | workingCopyEmpty _ => dsimp only; exact .workingCopyEmpty _
  | commitWrites _ => dsimp only; exact .commitWrites _
  | commitFills _ => dsimp only; exact .commitFills _
  | commitEnd _ => dsimp only; exact .commitEnd _
  | pst2Writes _ => dsimp only; exact .pst2Writes _
  | pst2Fills _ => dsimp only; exact .pst2Fills _
  | pickup _ _ => dsimp only; exact .pickup _ _
  | queueAgingPromotion _ _ _ => dsimp only; exact .queueAgingPromotion _ _ _
  | preemptRequest _ => dsimp only; exact .preemptRequest _
  | leaveAtCheckpoint _ _ => dsimp only; exact .leaveAtCheckpoint _ _
  | hardSave _ _ => dsimp only; exact .hardSave _ _
  | dcacheLineExpiry _ _ => dsimp only; exact .dcacheLineExpiry _ _
  | clusterCacheLineExpiry _ _ => dsimp only; exact .clusterCacheLineExpiry _ _
  | hardwareWalk _ _ => dsimp only; exact .hardwareWalk _ _
  | qtailDoorbell _ _ => dsimp only; exact .qtailDoorbell _ _
  | qsizeWrite _ _ => dsimp only; exact .qsizeWrite _ _
  | registerWrite _ _ => dsimp only; exact .registerWrite _ _
  | queueNop _ => dsimp only; exact .queueNop _
  | launch _ => dsimp only; exact .launch _
  | rules _ => dsimp only; exact .rules _
  | signal _ => dsimp only; exact .signal _
  | launchCompletion _ => dsimp only; exact .launchCompletion _
  | contextSwitch _ => dsimp only; exact .contextSwitch _
  | fwVersion => exact .fwVersion
  | linkStatus => exact .linkStatus
  | powerNow => exact .powerNow
  | attestationQuote => exact .attestationQuote
  | abort => exact .abort
  | pageIn => exact .pageIn
  | pageOut => exact .pageOut
  | powerLimit => exact .powerLimit
  | firmwareUpdate => exact .firmwareUpdate
  | mailboxAnswer _ => dsimp only; exact .mailboxAnswer _
  | reset _ => dsimp only; exact .reset _
  | bootFetch _ => dsimp only; exact .bootFetch _
  | bootTimeout => exact .bootTimeout
  | bootVerify _ _ _ => dsimp only; exact .bootVerify _ _ _
  | ulctlWrite _ _ => dsimp only; exact .ulctlWrite _ _
  | linkUp _ _ => dsimp only; exact .linkUp _ _
  | linkTrainingTimeout _ => dsimp only; exact .linkTrainingTimeout _
  | linkPeerLoss _ => dsimp only; exact .linkPeerLoss _
  | remoteAccessTimeout _ _ => dsimp only; exact .remoteAccessTimeout _ _
  | remoteAccessArrival _ _ => dsimp only; exact .remoteAccessArrival _ _
  | hostAccess _ _ _ => dsimp only; exact .hostAccess _ _ _
  | reductionBlockArrival _ _ _ => dsimp only; exact .reductionBlockArrival _ _ _
  | rqrelWrite _ _ => dsimp only; exact .rqrelWrite _ _
  | budgetPeriod _ => dsimp only; exact .budgetPeriod _
  | keeperTaperEnd _ => dsimp only; exact .keeperTaperEnd _
  | refresh _ => dsimp only; exact .refresh _
  | freeze => exact .freeze
  | frzWrite _ => dsimp only; exact .frzWrite _
  | tapFreeze => exact .tapFreeze
  | frozenReadout _ _ => dsimp only; exact .frozenReadout _ _
  | eccUncorrectable _ => dsimp only; exact .eccUncorrectable _
  | eccCorrected _ => dsimp only; exact .eccCorrected _
  | crepClear _ _ => dsimp only; exact .crepClear _ _
  | cstopClear _ _ => dsimp only; exact .cstopClear _ _
  | referenceTick => exact .referenceTick

end Sys2Proof.Machine
end

section
/-! SUPPORT. What every step keeps: TRET, issue slots, turns of the device and of its management cores. -/

set_option Elab.async false

namespace Sys2Proof.Machine

open Sys2Proof

theorem Forms.next {s t u : State} (h : Forms s t) (hu : (.next t : Host.Outcome State Fault Refusal) = .next u) : Forms s u := by
  cases hu
  exact h

/-- The body of TRET: a trap, a stall, or the return. -/
def tretBody (s : State) : Eff :=
  let c := s.cx
  if c.super = false then .trap (privileged 0)
  else if c.drained = false then .stall
  else if c.sr.xpc.getLsbD 0 then .trap (trapAt 3 (fld c.sr.xpc.toNat 0 56) (info 15 15 0))
  else .jump (s.setCx c.leaveTrap) c.leaveTrap.pc

theorem execTret_eq (o : Ops) (s : State) : execTret o s = issue (.tret o) o [] tretBody s := rfl

/-- TRET loads tidy bits, and so its body keeps the invariants. -/
theorem tretBody_forms {o : Ops} {s t : State} (h : finishWith (.tret o) o s (tretBody s) = .next t) : Forms s t := by
  have hf : ∀ e : Eff, e.Fine s → finishWith (.tret o) o s e = .next t → Forms s t := fun e he h => (Fine.finishWith he t h).toForms
  unfold tretBody at h
  dsimp only at h
  split at h
  · exact hf _ .trap h
  · split at h
    · exact hf _ .stall h
    · split at h
      · exact hf _ .trap h
      · have hs : Forms s (s.setCx s.cx.leaveTrap) := ⟨id, id, fun hr => ⟨all_tset (P := Ctx.tidyBits) hr.1 s.cur (Ctx.leaveTrap_tidyBits (hr.ctx s.cur)), hr.2⟩⟩
        exact (hs.trans (Keeps.rfl.setCx (Ctx.shown_jump _ _ _)).toForms).next h

theorem tret_forms {o : Ops} {s t : State} (h : execTret o s = .next t) : Forms s t := by
  rw [execTret_eq] at h
  unfold issue at h
  dsimp only at h
  split at h
  · cases h
  · split at h
    · exact tretBody_forms h
    · split at h
      · exact Keeps.rfl.raise.toForms.next h
      · split at h
        · exact tretBody_forms h
        · exact (Keeps.rfl.setCx (Ctx.shown_retire _ _ _)).toForms.next h

/-- Every instruction and event keeps the invariants. -/
theorem exec_forms {i : Instr} {s t : State} (h : exec i s = .next t) : Forms s t := by
  by_cases ht : ∃ o, i = .tret o
  · obtain ⟨o, rfl⟩ := ht
    exact tret_forms h
  · by_cases hs : i = .switchSaveAndLoad
    · subst hs
      exact switchSaveAndLoad_forms h
    · exact (exec_fine (fun o ho => ht ⟨o, ho⟩) hs t h).toForms

namespace State

variable {s t : State}

theorem atBoundary_forms {k : Nat} (h : s.atBoundary k = some t) : Forms s t := by
  unfold atBoundary at h
  dsimp only at h
  split at h
  · cases h
  · split at h
    · obtain rfl := Option.some.inj h
      exact Keeps.rfl.setCtx.trapCtx.toForms
    · split at h
      · obtain rfl := Option.some.inj h
        exact Keeps.rfl.setCtx.trapCtx.toForms
      · split at h
        · obtain rfl := Option.some.inj h
          exact Keeps.rfl.stopAt.toForms
        · split at h
          · cases h
          · split at h
            · cases h
            · obtain rfl := Option.some.inj h
              split
              · rename_i u hu
                exact (Keeps.rfl.restoreContext hu).acquire.toForms
              · exact Keeps.rfl.trapCtx.toForms

theorem attempt_forms {k : Nat} (h : s.attempt k = some (.next t)) : Forms s t := by
  unfold attempt at h
  split at h
  · cases h
  · split at h
    · rename_i u hu
      obtain rfl := Host.Outcome.next.inj (Option.some.inj h)
      exact atBoundary_forms hu
    · have hc : Forms s { s with cur := k, stall := false } := .of_shown rfl
      dsimp only at h
      generalize ({ s with cur := k, stall := false } : State) = u at h hc
      split at h
      · obtain rfl := Host.Outcome.next.inj (Option.some.inj h)
        exact hc.trans Keeps.rfl.raise.toForms
      · split at h
        · rename_i v hv
          split at h
          · cases h
          · obtain rfl := Host.Outcome.next.inj (Option.some.inj h)
            exact hc.trans (exec_forms hv)
        · rename_i hn
          exact absurd (Option.some.inj h) (hn t)

theorem choose_forms {core : Nat} {l : List (Nat × Option Nat)} {j : Nat} {p : Option Nat} (h : s.choose core l = some (j, p, .next t)) : Forms s t := by
  induction l with
  | nil => cases h
  | cons e r ih =>
    obtain ⟨i, q⟩ := e
    simp only [choose] at h
    split at h
    · rename_i o ho
      cases h
      exact attempt_forms ho
    · exact ih h

end State

theorem Keeps.yields {s t : State} (h : Keeps s t) {v : State} {core : Nat} {n : Option Nat} : Keeps s (v.yields t core n) := by
  refine h.foldl fun u k => ?_
  dsimp only
  split
  · exact .rfl
  · exact Keeps.rfl.setCtx

theorem Keeps.tidy {s t : State} (h : Keeps s t) : Keeps s t.tidy := h.same

/-- What every state that an outcome names keeps, the outcome keeps under a function that keeps it. -/
theorem onNext_forms {s t : State} {f : State → State} {r : Host.Outcome State Fault Refusal} (hr : ∀ u, r = .next u → Forms s (f u)) (h : onNext f r = .next t) : Forms s t := by
  cases r with
  | next u => exact (hr u rfl).next h
  | fault e => cases h
  | refused e => cases h

theorem State.issueSlot_forms {s t : State} {core : Nat} (h : s.issueSlot core = .next t) : Forms s t := by
  unfold issueSlot at h
  split at h
  · exact (Keeps.rfl.setCore.yields.tidy).toForms.next h
  · rename_i j p r hr
    exact onNext_forms (fun u hu => (choose_forms (hu ▸ hr)).trans (Keeps.rfl.setCore.yields.tidy).toForms) h

theorem State.mgmtSlot_forms {v t : State} {core : Nat} (h : v.mgmtSlot core = .next t) : Forms v t := by
  unfold mgmtSlot at h
  dsimp only at h
  split at h
  · split at h
    · exact (Forms.of_shown (s := v) (t := { v with cur := 8 * core }) rfl).trans (Keeps.rfl.raise.toForms) |>.next h
    · exact issueSlot_forms h
  · exact issueSlot_forms h

/-- A turn of the management cores changes no more of the device than their memory. -/
theorem State.mgmtBack_forms {s t : State} (h : Forms s.mgmtView t) : Forms s (s.mgmtBack t) := by
  have hm : s.memWf = true → Mem.wf t.mem = true := fun hs => by
    have hv : s.mgmtView.memWf = true := State.memWf_iff.2 ⟨(State.memWf_iff.1 hs).2.2, rfl, rfl⟩
    exact (State.memWf_iff.1 (h.mem hv)).1
  have hu : ∀ (m : Mgmt) (n : Nat), m.mem = t.mem → Forms s { s with mgmt := m, freeNo := n } := fun m n he =>
    ⟨fun hs => State.memWf_iff.2 ⟨(State.memWf_iff.1 hs).1, (State.memWf_iff.1 hs).2.1, he ▸ hm hs⟩, id, id⟩
  unfold mgmtBack
  dsimp only
  split
  · exact (hu _ _ rfl).trans Keeps.rfl.bootFail.toForms
  · exact hu _ _ rfl

theorem runTurn_forms {r : Turn} {s t : State} (h : runTurn r s = .next t) : Forms s t := by
  unfold runTurn at h
  split at h
  · split at h
    · exact State.issueSlot_forms h
    · exact (Forms.refl s).next h
  · split at h
    · exact onNext_forms (fun u hu => (exec_forms hu).trans Keeps.rfl.tidy.toForms) h
    · exact (Forms.refl s).next h
  · split at h
    · exact onNext_forms (fun u hu => State.mgmtBack_forms (State.mgmtSlot_forms hu)) h
    · exact (Forms.refl s).next h
  · split at h
    · exact onNext_forms (fun u hu => State.mgmtBack_forms (exec_forms hu)) h
    · exact (Forms.refl s).next h

theorem Forms.turnTaken {s : State} {l : List Turn} {n : Nat} : Forms s { s with turns := l, turnNo := n } := .of_shown rfl

/-- Every step keeps the invariants. -/
theorem step_forms {s t : State} (h : step s = .next t) : Forms s t := by
  unfold step at h
  split at h
  · exact Forms.turnTaken.trans (runTurn_forms h)
  · exact Forms.turnTaken.trans (runTurn_forms h)

end Sys2Proof.Machine

open Sys2Proof Sys2Proof.Machine

/-- Settles O7: no operation on memory writes but through `mset`, `mwrite`, `mblit`, `mcopy` and `mclear`, which keep the form. -/
theorem stepKeepsMemoryCanonical : Obligations.StepKeepsMemoryCanonical := by
  unfold Obligations.StepKeepsMemoryCanonical
  exact ⟨fun _ _ hs h => (step_forms h).mem hs, fun _ _ hs h => (step_forms h).buffers hs⟩
end

section
/-! SUPPORT. Reads and writes of the status registers, and what completing an instruction leaves of its context. -/

set_option Elab.async false

namespace Sys2Proof.Machine

open Sys2Proof

namespace Ctx

variable (c : Ctx)

/-- A loop-back decision changes the loop registers and the pc at most. -/
theorem loopLevel_eq (k : Nat) (base : Word) : ∃ l0 l1 pc, (c.loopLevel k base).2 = { c with l0, l1, pc } := by
  have h : ∀ (d : Ctx) (l : Loop), ∃ l0 l1, d.setLoop k l = { d with l0, l1 } := fun d l => by
    unfold setLoop
    split
    · exact ⟨l, d.l1, rfl⟩
    · exact ⟨d.l0, l, rfl⟩
  unfold loopLevel
  dsimp only
  split
  · exact ⟨_, _, _, rfl⟩
  · split
    · obtain ⟨l0, l1, hl⟩ := h c { lc := (c.loop k).lc - 1, ls := (c.loop k).heldLs.getD (c.loop k).ls, le := (c.loop k).heldLe.getD (c.loop k).le }
      exact ⟨l0, l1, _, by rw [hl]⟩
    · obtain ⟨l0, l1, hl⟩ := h c { c.loop k with lc := 0, heldLs := none, heldLe := none }
      exact ⟨l0, l1, c.pc, by rw [hl]⟩

/-- What completing an instruction changes of its context (R127). -/
theorem retire_eq (i : Instr) (m : Bool) : ∃ l0 l1 pc, c.retire i m = { c with l0, l1, pc, sw := m, wait := .none, held := none, entered := false } := by
  have h : ∀ (d : Ctx) (base : Word), ∃ l0 l1 pc, d.loopBack base = { d with l0, l1, pc } := fun d base => by
    obtain ⟨a0, a1, ap, ha⟩ := d.loopLevel_eq 0 base
    obtain ⟨b0, b1, bp, hb⟩ := (d.loopLevel 0 base).2.loopLevel_eq 1 base
    unfold loopBack
    dsimp only
    split
    · exact ⟨a0, a1, ap, ha⟩
    · exact ⟨b0, b1, bp, by rw [hb, ha]⟩
  obtain ⟨l0, l1, pc, hl⟩ := h { c with pc := c.npc i } (c.pc + BitVec.ofNat 64 (2 * i.words - 2))
  exact ⟨l0, l1, pc, by rw [retire, hl]⟩

/-- What registers a context holds, but for those of its loops. -/
def file (c : Ctx) : Vector Word 64 × Vector Vec 64 × BitVec 8 × Vector (BitVec 32) 8 × Vector (BitVec 32) 16 × SRegs := (c.g, c.v, c.p, c.vm, c.sd, c.sr)

end Ctx

/-! Numbers and words. -/

theorem setFld_eq (x lo n v : Nat) : setFld x lo n v = 2 ^ lo * (2 ^ n * (x / 2 ^ (lo + n)) + v % 2 ^ n) + x % 2 ^ lo := by
  have h1 := Nat.div_add_mod x (2 ^ lo)
  have h2 := Nat.div_add_mod (x / 2 ^ lo) (2 ^ n)
  rw [Nat.div_div_eq_div_mul, ← Nat.pow_add] at h2
  have hx : x = 2 ^ lo * (2 ^ n * (x / 2 ^ (lo + n))) + fld x lo n * 2 ^ lo + x % 2 ^ lo := by
    rw [fld, Nat.mul_comm _ (2 ^ lo), ← Nat.mul_add, h2, h1]
  rw [setFld, Nat.mul_add, Nat.mul_comm (v % 2 ^ n)]
  omega

/-- The bits of a number with a field replaced. -/
theorem testBit_setFld (x lo n v i : Nat) : (setFld x lo n v).testBit i = if lo ≤ i ∧ i < lo + n then v.testBit (i - lo) else x.testBit i := by
  rw [setFld_eq, Nat.testBit_two_pow_mul_add _ (Nat.mod_lt _ (Nat.two_pow_pos lo)), Nat.testBit_two_pow_mul_add _ (Nat.mod_lt _ (Nat.two_pow_pos n))]
  split
  · rw [if_neg (by omega), Nat.testBit_mod_two_pow]
    simp [‹i < lo›]
  · split
    · rw [if_pos (by omega), Nat.testBit_mod_two_pow]
      simp [*]
    · rw [if_neg (by omega), Nat.testBit_div_two_pow]
      congr 1
      omega

/-- The low bits of a word. -/
theorem ofNat_fld_zero (x : Word) (n : Nat) : BitVec.ofNat 64 (fld x.toNat 0 n) = x &&& BitVec.ofNat 64 (2 ^ n - 1) := by
  rw [fld, Nat.pow_zero, Nat.div_one, ← Nat.and_two_pow_sub_one_eq_mod, BitVec.ofNat_and, BitVec.ofNat_toNat, BitVec.setWidth_eq]

theorem keep_zero (x : Word) (hi : Nat) : keep x hi 0 = x &&& BitVec.ofNat 64 (2 ^ (hi + 1) - 1) := by
  rw [← ofNat_fld_zero]
  simp [keep, w64]

/-- What MTS writes to a register of value `a`, from its operand `b`, as a word (R248). -/
def mtsWord {w : Nat} (o : Ops) (a b : BitVec w) : BitVec w := match o.clsOr 0 % 4 with | 1 => a ||| b | 2 => a &&& ~~~b | _ => b

theorem mtsValue_toNat {w : Nat} (o : Ops) (a b : BitVec w) : mtsValue o a.toNat b.toNat w = (mtsWord o a b).toNat := by
  have hc : fld (o.clsOr 0) 0 2 = o.clsOr 0 % 4 := by simp [fld]
  have hp : b.toNat % 2 ^ w = b.toNat := Nat.mod_eq_of_lt b.isLt
  unfold mtsValue mtsWord
  rw [hc]
  match o.clsOr 0 % 4 with
  | 0 => exact hp
  | 1 => exact (BitVec.toNat_or a b).symm
  | 2 =>
    have h0 : (a &&& b) &&& (a &&& ~~~b) = 0#w := by
      ext i
      simp only [BitVec.getElem_and, BitVec.getElem_not, BitVec.getElem_zero]
      cases a[i] <;> cases b[i] <;> rfl
    have h : (a &&& b) + (a &&& ~~~b) = a := by
      rw [BitVec.add_eq_or_of_and_eq_zero _ _ h0]
      ext i
      simp only [BitVec.getElem_or, BitVec.getElem_and, BitVec.getElem_not]
      cases a[i] <;> cases b[i] <;> rfl
    have hn := BitVec.toNat_add_of_and_eq_zero h0
    rw [h, BitVec.toNat_and] at hn
    have hs : a.toNat - (a.toNat &&& b.toNat) = (a &&& ~~~b).toNat := by omega
    exact hs
  | _ + 3 => exact hp

/-! The table of status registers. -/

/-- Each value that the table lists is the one that MFS reads. -/
theorem State.sreg_of_mem {s : State} {n : Nat} {v : Word} (h : (n, v) ∈ s.statusValues) : s.sreg n = v ∧ n ≠ 10 := by
  have hv : ∀ e ∈ s.statusValues, s.sreg e.1 = e.2 ∧ e.1 ≠ 10 := by
    simp [statusValues, statusTable, sreg, w64]
  exact hv _ h

section

variable {n : Nat} {get : SRegs → Word} {mask : Nat} (h : (n, get, mask) ∈ statusTable)

include h

theorem sreg_of_mem_statusTable (s : State) : s.sreg n = get s.cx.sr := by
  have hv : ∀ e ∈ statusTable, s.sreg e.1 = e.2.1 s.cx.sr := by
    simp [statusTable, State.sreg]
  exact hv _ h

/-- `xstat` and `mctl` are not in the table, nor are the registers that no mode writes. -/
theorem number_of_mem_statusTable : n ≠ 0 ∧ n ≠ 10 ∧ n ≠ 18 ∧ n ≠ 19 ∧ n ≠ 20 := by
  have hv : ∀ e ∈ statusTable, e.1 ≠ 0 ∧ e.1 ≠ 10 ∧ e.1 ≠ 18 ∧ e.1 ≠ 19 ∧ e.1 ≠ 20 := by simp [statusTable]
  exact hv _ h

/-- A write puts the bits that are not reserved in place. -/
theorem write_get (r : SRegs) (x : Word) : get (r.write n x) = x &&& BitVec.ofNat 64 mask := by
  have hv : ∀ e ∈ statusTable, e.2.1 (r.write e.1 x) = x &&& BitVec.ofNat 64 e.2.2 := by
    have hm : x &&& 18446744073709551615#64 = x := BitVec.and_allOnes
    simp [statusTable, SRegs.write, keep_zero, hm]
  exact hv _ h

/-- A write changes no other register. -/
theorem write_get_other {m : Nat} {get' : SRegs → Word} {mask' : Nat} (h' : (m, get', mask') ∈ statusTable) (hm : m ≠ n) (r : SRegs) (x : Word) : get' (r.write n x) = get' r := by
  have hv : ∀ e ∈ statusTable, ∀ e' ∈ statusTable, e'.1 ≠ e.1 → e'.2.1 (r.write e.1 x) = e'.2.1 r := by
    simp [statusTable, SRegs.write]
  exact hv _ h _ h' hm

theorem write_rest (r : SRegs) (x : Word) : (r.write n x).xstat = r.xstat ∧ (r.write n x).mctl = r.mctl := by
  have hv : ∀ e ∈ statusTable, (r.write e.1 x).xstat = r.xstat ∧ (r.write e.1 x).mctl = r.mctl := by
    simp [statusTable, SRegs.write]
  exact hv _ h

end

/-- A write of `xstat` puts bits 1, 4 and 5 in place, and changes nothing else (R246). -/
theorem write_zero (r : SRegs) (x : Word) : r.write 0 x = { r with xstat := (r.write 0 x).xstat }
    ∧ ∀ i, i < 64 → (r.write 0 x).xstat.getLsbD i = if i = 1 ∨ i = 4 ∨ i = 5 then x.getLsbD i else r.xstat.getLsbD i := by
  refine ⟨rfl, fun i hi => ?_⟩
  have hw : (r.write 0 x).xstat = BitVec.ofNat 64 (setFld (setFld r.xstat.toNat 1 1 (fld x.toNat 1 1)) 4 2 (fld x.toNat 4 2)) := rfl
  have hb : ∀ lo n j, (fld x.toNat lo n).testBit j = (decide (j < n) && x.getLsbD (j + lo)) := fun lo n j => by
    rw [fld, Nat.testBit_mod_two_pow, Nat.testBit_div_two_pow, BitVec.getLsbD]
  rw [hw, BitVec.getLsbD_ofNat, testBit_setFld, testBit_setFld, hb, hb, decide_eq_true hi, Bool.true_and]
  by_cases h4 : 4 ≤ i ∧ i < 4 + 2
  · rw [if_pos h4, if_pos (by omega), decide_eq_true (by omega : i - 4 < 2), Bool.true_and, Nat.sub_add_cancel h4.1]
  · rw [if_neg h4]
    by_cases h1 : 1 ≤ i ∧ i < 1 + 1
    · rw [if_pos h1, if_pos (by omega), decide_eq_true (by omega : i - 1 < 1), Bool.true_and, Nat.sub_add_cancel h1.1]
    · rw [if_neg h1, if_neg (by omega)]
      rfl

/-- The two registers from one on, as one number. -/
theorem Ctx.getGs_two (c : Ctx) (n : Nat) : c.getGs n 2 = (c.getG (n + 1) ++ c.getG n).toNat := by
  have hx : c.getGs n 2 = 2 ^ 64 * (c.getG (n + 1)).toNat + (c.getG n).toNat := by
    simp only [getGs]
    omega
  rw [hx, BitVec.toNat_append, Nat.two_pow_add_eq_or_of_lt (c.getG n).isLt, Nat.shiftLeft_eq, Nat.mul_comm]

end Sys2Proof.Machine
end

section
/-! SUPPORT. The modes of status registers, what a completed instruction leaves of the registers, and how MFS ends. -/

set_option Elab.async false

namespace Sys2Proof.Machine

open Sys2Proof

variable {s : State} {o : Ops}

theorem Ops.dNum_lt (o : Ops) : o.dNum < 64 := by
  have hd := o.d.isLt
  have hb : ∀ b, b2n b ≤ 1 := by decide
  unfold Ops.dNum
  have := hb (match o.opnd with | some p => p.dh | none => false)
  generalize b2n _ = k at this ⊢
  omega

/-! Modes. -/

theorem sregReadable_iff (b : Bool) (n : Nat) : sregReadable b n = true ↔ b = true ∨ (6 ≤ n ∧ n ≠ 16) := by
  simp [sregReadable]

theorem sregWritable_iff (b : Bool) (n : Nat) : sregWritable b n = true ↔ (b = true ∧ n ≠ 18 ∧ n ≠ 19 ∧ n ≠ 20) ∨ (6 ≤ n ∧ n ≤ 11) := by
  cases b
  · simp [sregWritable]
  · simp [sregWritable]
    omega

/-! Registers after an instruction has completed. -/

theorem sameRegisters_of_file {c d : Ctx} (h : d.file = c.file) : sameRegisters c d [] ∧ d.sr = c.sr := by
  simp only [Ctx.file, Prod.mk.injEq] at h
  obtain ⟨hg, hv, hp, hm, hsd, hr⟩ := h
  exact ⟨⟨fun n _ => by simp only [Ctx.getG, hg], hv, hp, hm, hsd⟩, hr⟩

theorem Ctx.file_marks (c : Ctx) (b : Bool) (rs : List Nat) : (c.marks b rs).file = c.file := by
  refine foldl_keeps (P := fun d => Ctx.file d = c.file) (fun d r hd => Eq.trans ?_ hd) rs rfl
  unfold Ctx.mark
  dsimp only
  split
  · split <;> rfl
  · rfl
  · split <;> rfl
  · split <;> rfl

theorem Ctx.file_retire (c : Ctx) (i : Instr) (m : Bool) : (c.retire i m).file = c.file := by
  obtain ⟨l0, l1, pc, h⟩ := c.retire_eq i m
  rw [h]
  rfl

theorem Ctx.pending_retire (c : Ctx) (i : Instr) (m : Bool) (r : Nat) : (c.retire i m).pending r = c.pending r := by
  obtain ⟨l0, l1, pc, h⟩ := c.retire_eq i m
  rw [h]
  rfl

/-- A general register that a result is on its way to is pending, but for `g0` (R104). -/
theorem Ctx.pending_mark_rg (c : Ctx) {n : Nat} (hn : n < 64) (h : c.pending (rg n) = false) : (c.mark true (rg n)).pending (rg n) = decide (n ≠ 0) := by
  have hd : n / 64 = 0 := Nat.div_eq_of_lt hn
  have hm : n % 64 = n := Nat.mod_eq_of_lt hn
  by_cases h0 : n = 0
  · subst h0
    exact h
  · have hb : (BitVec.ofNat 64 (2 ^ n)).getLsbD n = true := by
      rw [BitVec.getLsbD_ofNat, decide_eq_true hn, Nat.testBit_two_pow_self, Bool.true_and]
    have hp : c.mark true (rg n) = { c with pendG := c.pendG ||| BitVec.ofNat 64 (2 ^ n) } := by
      simp [Ctx.mark, rg, hd, hm, h0]
    rw [hp]
    simp only [Ctx.pending, rg, hd, hm, BitVec.getLsbD_or, hb, Bool.or_true, decide_eq_true h0]

/-- No register that an issuing instruction touches is pending. -/
theorem State.canIssue.pending {touch : List Nat} (h : s.canIssue o touch) {r : Nat} (hr : r ∈ touch) : s.cx.pending r = false := by
  have hl : ∀ l : List Nat, leastOf l = none → l = [] := fun l hl => by
    cases l with
    | nil => rfl
    | cons x xs =>
      simp only [leastOf] at hl
      split at hl <;> cases hl
  obtain ⟨⟨-, -, hd⟩, -⟩ := h
  have := List.filter_eq_nil_iff.1 (hl _ hd) r (List.mem_cons_of_mem _ hr)
  simpa using this

/-- What an instruction whose result is on its way leaves. -/
theorem pendResult_retired {i : Instr} {m : Bool} {g : List (Nat × Word)} {regs : List Nat} :
    let u := pendResult { slot := 0, g } regs s
    let t := u.setCx (u.cx.retire i m)
    resultSent s t g ∧ (∀ r, t.cx.pending r = (s.cx.marks true regs).pending r) ∧ sameMemory s t ∧ sameRegisters s.cx t.cx [] ∧ t.cx.sr = s.cx.sr := by
  intro u t
  have hu : u.cx = s.cx.marks true regs := State.cx_setCx _ _
  have ht : t.cx = (s.cx.marks true regs).retire i m := (State.cx_setCx _ _).trans (by rw [hu])
  have hc : t.co = u.co := State.co_setCx _ _
  have hf : t.cx.file = s.cx.file := by rw [ht, Ctx.file_retire, Ctx.file_marks]
  obtain ⟨hr, hs⟩ := sameRegisters_of_file hf
  refine ⟨?_, fun r => by rw [ht, Ctx.pending_retire], ⟨rfl, rfl, rfl, rfl⟩, hr, hs⟩
  show t.co.results = _
  rw [hc]
  simp only [u, pendResult, State.co_setCo, State.co_setCx]
  rfl

/-- What an instruction that has written status registers leaves. -/
theorem setSregs_retired {i : Instr} {m : Bool} {r : SRegs} :
    let u := s.setCx { s.cx with sr := r }
    let t := u.setCx (u.cx.retire i m)
    t.cx.sr = r ∧ sameMemory s t ∧ sameRegisters s.cx t.cx [] := by
  intro u t
  have ht : t.cx = ({ s.cx with sr := r } : Ctx).retire i m := (State.cx_setCx _ _).trans (by rw [State.cx_setCx])
  have hf : t.cx.file = ({ s.cx with sr := r } : Ctx).file := by rw [ht, Ctx.file_retire]
  obtain ⟨hr, hs⟩ := sameRegisters_of_file hf
  exact ⟨hs, ⟨rfl, rfl, rfl, rfl⟩, hr⟩

/-! MFS. -/

theorem mfs_privileged (hr : ¬(s.cx.super = true ∨ (6 ≤ o.aNum ∧ o.aNum ≠ 16))) (hn : o.aNum ≠ 10) (h : s.canIssue o [rg o.dNum]) :
    exec (.mfs o) s = .next (s.raise (privilegedTrap o.aNum)) := by
  show execMfs o s = _
  unfold execMfs
  dsimp only
  rw [if_neg hn, issue_run h, if_pos (Bool.eq_false_iff.2 fun ht => hr ((sregReadable_iff _ _).1 ht))]
  rfl

theorem mfs_sreg (hr : s.cx.super = true ∨ (6 ≤ o.aNum ∧ o.aNum ≠ 16)) (hn : o.aNum ≠ 10) (h : s.canIssue o [rg o.dNum]) :
    exec (.mfs o) s = finishWith (.mfs o) o s (.done (pendResult { slot := 0, g := [(o.dNum, s.sreg o.aNum)] } [rg o.dNum] s)) := by
  show execMfs o s = _
  unfold execMfs
  dsimp only
  rw [if_neg hn, issue_run h, if_neg (by simp [(sregReadable_iff _ _).2 hr]), if_neg hn]

theorem mfs_mctl (hn : o.aNum = 10) (h : s.canIssue o [rg o.dNum, rg (o.dNum + 1)]) :
    exec (.mfs o) s = finishWith (.mfs o) o s (.done (pendResult { slot := 0, g := [(o.dNum, w64 s.cx.sr.mctl.toNat), (o.dNum + 1, w64 (s.cx.sr.mctl.toNat / 2 ^ 64))] }
      [rg o.dNum, rg (o.dNum + 1)] s)) := by
  show execMfs o s = _
  unfold execMfs
  dsimp only
  rw [if_pos hn, issue_run h, if_neg (by simp [(sregReadable_iff s.cx.super o.aNum).2 (.inr (by omega))]), if_pos hn]

end Sys2Proof.Machine
end

section
/-! SUPPORT. How MTS, TRET and PGLOB end. -/

set_option Elab.async false

namespace Sys2Proof.Machine

open Sys2Proof

variable {s : State} {o : Ops}

/-! MTS. -/

theorem mts_privileged (hw : ¬((s.cx.super = true ∧ o.dNum ≠ 18 ∧ o.dNum ≠ 19 ∧ o.dNum ≠ 20) ∨ (6 ≤ o.dNum ∧ o.dNum ≤ 11))) (hn : o.dNum ≠ 10) (h : s.canIssue o [rg o.aNum]) :
    exec (.mts o) s = .next (s.raise (privilegedTrap o.dNum)) := by
  show execMts o s = _
  unfold execMts
  dsimp only
  rw [if_neg hn, issue_run h, if_pos (Bool.eq_false_iff.2 fun ht => hw ((sregWritable_iff _ _).1 ht))]
  rfl

/-- The ALIGN trap of a value (log 58), as a word. -/
theorem trapAt_align (X : Word) : trapAt 3 (fld X.toNat 0 56) (info 15 15 0) = { cause := 3, xaddr := X &&& BitVec.ofNat 64 (2 ^ 56 - 1), xinfo := BitVec.ofNat 64 (15 * 4096 + 15 * 256) } := by
  rw [← ofNat_fld_zero]
  rfl

/-- A write of a register of one word, whose value is `X`. -/
theorem mts_sreg {X : Word} (hw : (s.cx.super = true ∧ o.dNum ≠ 18 ∧ o.dNum ≠ 19 ∧ o.dNum ≠ 20) ∨ (6 ≤ o.dNum ∧ o.dNum ≤ 11)) (hn : o.dNum ≠ 10) (h : s.canIssue o [rg o.aNum])
    (hx : mtsValue o (s.sreg o.dNum).toNat (s.cx.getG o.aNum).toNat 64 = X.toNat) :
    exec (.mts o) s = if (o.dNum = 5 ∧ X.toNat % 2 = 1) ∨ (o.dNum = 12 ∧ X.toNat % 64 ≠ 0)
      then .next (s.raise { cause := 3, xaddr := X &&& BitVec.ofNat 64 (2 ^ 56 - 1), xinfo := BitVec.ofNat 64 (15 * 4096 + 15 * 256) })
      else finishWith (.mts o) o s (.done (s.setCx { s.cx with sr := s.cx.sr.write o.dNum X })) := by
  have hX : w64 X.toNat = X := (BitVec.ofNat_toNat 64 X).trans (BitVec.setWidth_eq X)
  show execMts o s = _
  unfold execMts
  dsimp only
  rw [if_neg hn, issue_run h, if_neg (by simp [(sregWritable_iff _ _).2 hw]), if_neg hn, hx, hX, trapAt_align]
  split <;> rfl

/-- A write of `mctl`, whose value is `X`. -/
theorem mts_mctl {X : BitVec 128} (hn : o.dNum = 10) (h : s.canIssue o [rg o.aNum, rg (o.aNum + 1)])
    (hx : mtsValue o s.cx.sr.mctl.toNat (s.cx.getGs o.aNum 2) 128 = X.toNat) :
    exec (.mts o) s = if mctlBad s.coreNo X.toNat = true then .next (s.raise { cause := 1, xinfo := 9 })
      else finishWith (.mts o) o s (.done (s.setCx { s.cx with sr := { s.cx.sr with mctl := mctlOf X.toNat } })) := by
  show execMts o s = _
  unfold execMts
  dsimp only
  rw [if_pos hn, issue_run h, if_neg (by simp [(sregWritable_iff s.cx.super o.dNum).2 (.inr (by omega))]), if_pos hn, hx]
  split <;> rfl

/-! TRET. -/

theorem tret_run (h : s.canIssue o []) : exec (.tret o) s = finishWith (.tret o) o s (tretBody s) := (execTret_eq o s).trans (issue_run h)

/-- The bits of the value that TRET loads into `xstat`, from its kept mode `y` and its kept suspensions `z` (R249). -/
theorem bit_leaveTrap : ∀ y < 2, ∀ z < 4, ∀ b < 6, (y + 2 * y + 4 * z + 16 * z) / 2 ^ b % 2 = if b < 2 then y else if b % 2 = 0 then z % 2 else z / 2 := by
  decide

/-- The bits of `xstat` that TRET loads (R249). -/
theorem Ctx.leaveTrap_bit (c : Ctx) {b d : Nat} (h : (b, d) ∈ [(0, 1), (1, 1), (2, 4), (3, 5), (4, 4), (5, 5)]) : c.leaveTrap.sr.xstat.getLsbD b = c.sr.xstat.getLsbD d := by
  simp only [List.mem_cons, Prod.mk.injEq, List.not_mem_nil, or_false] at h
  have hx : c.leaveTrap.sr.xstat.toNat / 2 ^ b % 2 = c.sr.xstat.toNat / 2 ^ d % 2 := by
    have hy : fld c.sr.xstat.toNat 1 1 < 2 := Nat.mod_lt _ (by decide)
    have hz : fld c.sr.xstat.toNat 4 2 < 4 := Nat.mod_lt _ (by decide)
    have hl : c.leaveTrap.sr.xstat.toNat = fld c.sr.xstat.toNat 1 1 + 2 * fld c.sr.xstat.toNat 1 1 + 4 * fld c.sr.xstat.toNat 4 2 + 16 * fld c.sr.xstat.toNat 4 2 := by
      rw [leaveTrap, BitVec.toNat_ofNat]
      omega
    rw [hl, bit_leaveTrap _ hy _ hz b (by omega)]
    obtain ⟨rfl, rfl⟩ | ⟨rfl, rfl⟩ | ⟨rfl, rfl⟩ | ⟨rfl, rfl⟩ | ⟨rfl, rfl⟩ | ⟨rfl, rfl⟩ := h <;> simp [fld] <;> omega
  rw [BitVec.getLsbD, BitVec.getLsbD, Nat.testBit_eq_decide_div_mod_eq, Nat.testBit_eq_decide_div_mod_eq, hx]

/-! PGLOB. -/

theorem pglob_run (h : s.canIssue o [rg o.dNum, rg o.aNum]) :
    exec (.pglob o) s = finishWith (.pglob o) o s (
      if fld (s.cx.getG o.aNum).toNat 0 56 < privStart then .done (s.setCx (s.cx.setG o.dNum (s.cx.getG o.aNum)))
      else if 2 ^ 56 ≤ s.cx.sr.prvbase.toNat + (fld (s.cx.getG o.aNum).toNat 0 56 - privStart) then .trap (protEntry 15 4 (s.cx.sr.prvbase.toNat + (fld (s.cx.getG o.aNum).toNat 0 56 - privStart)))
      else .done (s.setCx (s.cx.setG o.dNum (w64 (fld (s.cx.getG o.aNum).toNat 56 8 * 2 ^ 56 + (s.cx.sr.prvbase.toNat + (fld (s.cx.getG o.aNum).toNat 0 56 - privStart))))))) := by
  show execPglob o s = _
  unfold execPglob
  rw [issue_run h]

end Sys2Proof.Machine
end

section
/-! SUPPORT. What MFS, MTS, TRET and PGLOB leave of the state (R244, R245, R248, R249, R255). -/

set_option Elab.async false

namespace Sys2Proof.Machine

open Sys2Proof

variable {s : State} {o : Ops}

/-- MFS of a register of one word. -/
theorem mfs_value {v : Word} (hv : (o.aNum, v) ∈ s.statusValues) (hr : s.cx.super = true ∨ (6 ≤ o.aNum ∧ o.aNum ≠ 16)) (h : s.canIssue o [rg o.dNum]) :
    ∃ t, exec (.mfs o) s = .next t ∧ resultSent s t [(o.dNum, v)] ∧ t.cx.pending (rg o.dNum) = decide (o.dNum ≠ 0) ∧ sameMemory s t ∧ sameRegisters s.cx t.cx [] ∧ t.cx.sr = s.cx.sr := by
  obtain ⟨rfl, hn⟩ := State.sreg_of_mem hv
  obtain ⟨hs, hp, hm, hg, hsr⟩ := pendResult_retired (s := s) (i := .mfs o) (m := o.s) (g := [(o.dNum, s.sreg o.aNum)]) (regs := [rg o.dNum])
  exact ⟨_, mfs_sreg hr hn h, hs, (hp _).trans (Ctx.pending_mark_rg _ (Ops.dNum_lt o) (h.pending (List.mem_singleton.2 rfl))), hm, hg, hsr⟩

/-- MFS of `mctl`, a pair of words. -/
theorem mfs_pair (hn : o.aNum = 10) (h : s.canIssue o [rg o.dNum, rg (o.dNum + 1)]) :
    ∃ t, exec (.mfs o) s = .next t ∧ resultSent s t [(o.dNum, BitVec.ofNat 64 s.cx.sr.mctl.toNat), (o.dNum + 1, BitVec.ofNat 64 (s.cx.sr.mctl.toNat / 2 ^ 64))]
      ∧ sameMemory s t ∧ sameRegisters s.cx t.cx [] := by
  obtain ⟨hs, -, hm, hg, -⟩ := pendResult_retired (s := s) (i := .mfs o) (m := o.s)
    (g := [(o.dNum, w64 s.cx.sr.mctl.toNat), (o.dNum + 1, w64 (s.cx.sr.mctl.toNat / 2 ^ 64))]) (regs := [rg o.dNum, rg (o.dNum + 1)])
  exact ⟨_, mfs_mctl hn h, hs, hm, hg⟩

/-- MTS of a register of one word whose value has its alignment. -/
theorem mts_written {X : Word} (hw : (s.cx.super = true ∧ o.dNum ≠ 18 ∧ o.dNum ≠ 19 ∧ o.dNum ≠ 20) ∨ (6 ≤ o.dNum ∧ o.dNum ≤ 11)) (hn : o.dNum ≠ 10) (h : s.canIssue o [rg o.aNum])
    (hx : mtsValue o (s.sreg o.dNum).toNat (s.cx.getG o.aNum).toNat 64 = X.toNat) (hb : ¬((o.dNum = 5 ∧ X.toNat % 2 = 1) ∨ (o.dNum = 12 ∧ X.toNat % 64 ≠ 0))) :
    ∃ t, exec (.mts o) s = .next t ∧ t.cx.sr = s.cx.sr.write o.dNum X ∧ sameMemory s t ∧ sameRegisters s.cx t.cx [] :=
  ⟨_, (mts_sreg hw hn h hx).trans (if_neg hb), setSregs_retired⟩

/-- MTS of `mctl` with a value that it takes. -/
theorem mts_pair {X : BitVec 128} (hn : o.dNum = 10) (h : s.canIssue o [rg o.aNum, rg (o.aNum + 1)]) (hx : mtsValue o s.cx.sr.mctl.toNat (s.cx.getGs o.aNum 2) 128 = X.toNat)
    (hb : mctlBad s.coreNo X.toNat = false) :
    ∃ t, exec (.mts o) s = .next t ∧ t.cx.sr = { s.cx.sr with mctl := mctlOf X.toNat } ∧ sameMemory s t ∧ sameRegisters s.cx t.cx [] :=
  ⟨_, (mts_mctl hn h hx).trans (if_neg (Bool.eq_false_iff.1 hb)), setSregs_retired⟩

/-- TRET in user mode. -/
theorem tret_privileged (hu : s.cx.super = false) (h : s.canIssue o []) : exec (.tret o) s = .next (s.raise (privilegedTrap 0)) := by
  rw [tret_run h, tretBody, if_pos hu]
  rfl

/-- TRET to an odd address. -/
theorem tret_odd (hs : s.cx.super = true) (hd : s.cx.drained = true) (hx : s.cx.sr.xpc.getLsbD 0 = true) (h : s.canIssue o []) :
    exec (.tret o) s = .next (s.raise { cause := 3, xaddr := s.cx.sr.xpc &&& BitVec.ofNat 64 (2 ^ 56 - 1), xinfo := BitVec.ofNat 64 (15 * 4096 + 15 * 256) }) := by
  simp only [tret_run h, tretBody, hs, hd, hx, if_true, reduceCtorEq, if_false, trapAt_align]
  rfl

/-- TRET that returns. -/
theorem tret_returns (hs : s.cx.super = true) (hd : s.cx.drained = true) (hx : s.cx.sr.xpc.getLsbD 0 = false) (h : s.canIssue o []) :
    ∃ t, exec (.tret o) s = .next t ∧ t.cx = s.cx.leaveTrap.jump o.s s.cx.leaveTrap.pc ∧ sameMemory s t ∧ sameContexts s t s.cur := by
  have hr : exec (.tret o) s = .next ((s.setCx s.cx.leaveTrap).setCx ((s.setCx s.cx.leaveTrap).cx.jump o.s s.cx.leaveTrap.pc)) := by
    simp only [tret_run h, tretBody, hs, hd, hx, if_false, reduceCtorEq]
    rfl
  refine ⟨_, hr, by rw [State.cx_setCx, State.cx_setCx], ⟨rfl, rfl, rfl, rfl⟩, fun j hj => ?_⟩
  exact (State.ctx_setCtx_other _ hj _).trans (State.ctx_setCtx_other _ hj _)

/-! PGLOB. -/

theorem fld_low (x n : Nat) : fld x 0 n = x % 2 ^ n := by rw [fld, Nat.pow_zero, Nat.div_one]

/-- The tag of an address, back at its place. -/
theorem fld_tag (x : Word) : fld x.toNat 56 8 = x.toNat / 2 ^ 56 := Nat.mod_eq_of_lt (by omega)

section

variable (h : s.canIssue o [rg o.dNum, rg o.aNum])

include h

/-- PGLOB of an address outside the private region. -/
theorem pglob_global (ha : (s.cx.getG o.aNum).toNat % 2 ^ 56 < privStart) :
    exec (.pglob o) s = retired (.pglob o) (s.setCx (s.cx.setG o.dNum (s.cx.getG o.aNum))) := by
  rw [pglob_run h, fld_low, if_pos ha]
  rfl

/-- PGLOB of a private address. -/
theorem pglob_private {g : Nat} (ha : privStart ≤ (s.cx.getG o.aNum).toNat % 2 ^ 56) (hg : s.cx.sr.prvbase.toNat + ((s.cx.getG o.aNum).toNat % 2 ^ 56 - privStart) = g) (hl : g < 2 ^ 56) :
    exec (.pglob o) s = retired (.pglob o) (s.setCx (s.cx.setG o.dNum (BitVec.ofNat 64 ((s.cx.getG o.aNum).toNat / 2 ^ 56 * 2 ^ 56 + g)))) := by
  rw [pglob_run h, fld_low, if_neg (Nat.not_lt.2 ha), hg, if_neg (Nat.not_le.2 hl), fld_tag]
  rfl

/-- PGLOB of a private address that stands for none. -/
theorem pglob_past {g : Nat} (ha : privStart ≤ (s.cx.getG o.aNum).toNat % 2 ^ 56) (hg : s.cx.sr.prvbase.toNat + ((s.cx.getG o.aNum).toNat % 2 ^ 56 - privStart) = g) (hl : 2 ^ 56 ≤ g) :
    exec (.pglob o) s = .next (s.raise { cause := 5, xaddr := BitVec.ofNat 64 g, xinfo := BitVec.ofNat 64 (15 * 4096 + 15 * 256 + 4) }) := by
  rw [pglob_run h, fld_low, if_neg (Nat.not_lt.2 ha), hg, if_pos hl]
  rfl

end

end Sys2Proof.Machine
end

section
/-! SUPPORT. The clauses of O55. -/

set_option Elab.async false

namespace Sys2Proof.Machine

open Sys2Proof

theorem State.regsWf_reset : State.reset.regsWf := State.regsWf_iff.2 ⟨List.forall_mem_nil _, List.forall_mem_nil _, List.forall_mem_nil _, List.forall_mem_nil _⟩

variable {s : State} {o : Ops}

/-- The value that MTS writes to a register of the table. -/
theorem mtsValue_table {get : SRegs → Word} {mask : Nat} (he : (o.dNum, get, mask) ∈ statusTable) :
    mtsValue o (s.sreg o.dNum).toNat (s.cx.getG o.aNum).toNat 64 = (mtsWord o (get s.cx.sr) (s.cx.getG o.aNum)).toNat := by
  rw [sreg_of_mem_statusTable he, mtsValue_toNat]

end Sys2Proof.Machine

open Sys2Proof Sys2Proof.Machine

/-- Settles O55: clause 1 and 3 are what every step and every instruction keeps (`step_forms`, `exec_fine`); the others say how MFS, MTS, TRET and PGLOB end. -/
theorem statusRegistersAndTrapReturn : Obligations.StatusRegistersAndTrapReturn := by
  unfold Obligations.StatusRegistersAndTrapReturn
  refine ⟨fun s t hs h => (step_forms h).regs hs, State.regsWf_reset, fun i s t k ht hr h hc hd hu => (exec_fine ht hr t h).ends k hc hd hu, fun o s => ?_⟩
  refine ⟨fun v => mfs_value, mfs_pair, fun get mask he hw h => ?table, fun hd hu h => ?xstat, fun hn h => ?mctl, mfs_privileged, mts_privileged, tret_privileged, tret_odd,
    fun hu hd hx h => ?tret, fun h => ⟨pglob_global h, fun ha hl => pglob_private h ha rfl hl, fun ha hl => pglob_past h ha rfl hl⟩⟩
  case table =>
    obtain ⟨-, hn, -⟩ := number_of_mem_statusTable he
    refine ⟨fun hb => (mts_sreg hw hn h (mtsValue_table he)).trans (if_pos hb), fun hb => ?_⟩
    obtain ⟨t, ht, hr, hm, hg⟩ := mts_written hw hn h (mtsValue_table he) hb
    obtain ⟨hx, hc⟩ := write_rest he s.cx.sr _
    exact ⟨t, ht, hr ▸ write_get he _ _, hr ▸ hx, hr ▸ hc, fun m get' mask' h' hm => hr ▸ write_get_other he h' hm _ _, hm, hg⟩
  case xstat =>
    have hw : (s.cx.super = true ∧ o.dNum ≠ 18 ∧ o.dNum ≠ 19 ∧ o.dNum ≠ 20) ∨ (6 ≤ o.dNum ∧ o.dNum ≤ 11) := .inl ⟨hu, by omega, by omega, by omega⟩
    have hx : mtsValue o (s.sreg o.dNum).toNat (s.cx.getG o.aNum).toNat 64 = (mtsWord o s.cx.sr.xstat (s.cx.getG o.aNum)).toNat := hd ▸ mtsValue_toNat o _ _
    obtain ⟨t, ht, hr, hm, hg⟩ := mts_written hw (by omega) h hx (by omega)
    obtain ⟨hz, hb⟩ := write_zero s.cx.sr (mtsWord o s.cx.sr.xstat (s.cx.getG o.aNum))
    rw [hd] at hr
    exact ⟨t, ht, hr ▸ hb, hr ▸ hz, hm, hg⟩
  case mctl =>
    have hx := mtsValue_toNat o s.cx.sr.mctl (s.cx.getG (o.aNum + 1) ++ s.cx.getG o.aNum)
    rw [← Ctx.getGs_two] at hx
    exact ⟨fun hb => (mts_mctl hn h hx).trans (if_pos hb), mts_pair hn h hx⟩
  case tret =>
    obtain ⟨t, ht, hc, hm, hk⟩ := tret_returns hu hd hx h
    have hb : ∀ {b d}, (b, d) ∈ [(0, 1), (1, 1), (2, 4), (3, 5), (4, 4), (5, 5)] → t.cx.sr.xstat.getLsbD b = s.cx.sr.xstat.getLsbD d := fun hm => by
      rw [hc]
      exact s.cx.leaveTrap_bit hm
    refine ⟨t, ht, ?_, hb (by decide), hb (by decide), hb (by decide), hb (by decide), hb (by decide), hb (by decide), ?_, ?_, ?_, ?_, hm, hk⟩
    · rw [hc, ← fld_low]; rfl
    · rw [hc]; rfl
    · rw [hc]; rfl
    · rw [hc]; rfl
    · rw [hc]; exact (sameRegisters_of_file rfl).1
end

section
/-! SUPPORT. Which slot an issue slot chooses (R14): the first ready one of its order, and how a step runs it. -/

set_option Elab.async false

namespace Sys2Proof.Machine

open Sys2Proof

/-- The outcome of an issue slot in which slot `j` of a core has run to state `t`, its choice moving the pointer of priority `p`. -/
def State.issued (s : State) (core j : Nat) (p : Option Nat) (t : State) : Host.Outcome State Fault Refusal :=
  .next ((s.yields (t.setCore core ((t.core core).afterSlot j p)) core (some (8 * core + j))).tidy)

/-- The slots of priority `p` in the order of their pointer, as `State.slotOrder` lists them (R14). -/
def State.prioOrder (s : State) (core p : Nat) (is : List Nat) : List (Nat × Option Nat) :=
  (is.map (fun i => ((vget (s.core core).rot p 0).toNat + i) % 8)).filterMap (fun j => if (s.ctx (8 * core + j)).prio.toNat = p then some (j, some p) else none)

namespace State

variable {s t : State} {core : Nat}

theorem slotOrder_eq (s : State) (core : Nat) :
    s.slotOrder core = ((s.core core).slotNo % 8, none) :: (s.prioOrder core 3 (List.range 8) ++ s.prioOrder core 2 (List.range 8) ++ s.prioOrder core 1 (List.range 8)
      ++ s.prioOrder core 0 (List.range 8)) := rfl

theorem mem_prioOrder {p : Nat} {is : List Nat} {e : Nat × Option Nat} (h : e ∈ s.prioOrder core p is) :
    ∃ i ∈ is, e.1 = ((vget (s.core core).rot p 0).toNat + i) % 8 ∧ (s.ctx (8 * core + e.1)).prio.toNat = p := by
  obtain ⟨j, hj, he⟩ := List.mem_filterMap.1 h
  obtain ⟨i, hi, rfl⟩ := List.mem_map.1 hj
  split at he
  · cases he
    exact ⟨i, hi, rfl, ‹_›⟩
  · cases he

/-- A ready context's attempt, when nothing comes before its instruction and that issues. -/
theorem attempt_runs {k n : Nat} {i : Instr} (hk : k / 8 = core) (ho : s.offers k = true) (hb : s.atBoundary k = none) (hw : (s.ctx k).wait = .none)
    (hf : s.fetch core (s.ctx k) (s.ctx k).pc = .ok (.instr i n)) (he : exec i { s with cur := k, stall := false } = .next t) (hs : t.stall = false) :
    s.attempt k = some (.next t) := by
  subst hk
  have hn : State.nextInstr { s with cur := k, stall := false } k = .ok i := by
    have hf' : State.fetch { s with cur := k, stall := false } (k / 8) (s.ctx k) (s.ctx k).pc = .ok (.instr i n) := hf
    have hc : State.ctx { s with cur := k, stall := false } k = s.ctx k := rfl
    simp only [nextInstr, hc, hw, hf']
  simp [attempt, ho, hb, hn, he, hs]

/-- An order none of whose slots is ready chooses nothing. -/
theorem choose_none {l : List (Nat × Option Nat)} (h : ∀ e ∈ l, s.attempt (8 * core + e.1) = none) : s.choose core l = none := by
  induction l with
  | nil => rfl
  | cons e r ih => simp only [choose, h e List.mem_cons_self, ih fun d hd => h d (List.mem_cons_of_mem _ hd)]

/-- Slots that are not ready are passed over. -/
theorem choose_append {l r : List (Nat × Option Nat)} (h : ∀ e ∈ l, s.attempt (8 * core + e.1) = none) : s.choose core (l ++ r) = s.choose core r := by
  induction l with
  | nil => rfl
  | cons e l ih => simp only [List.cons_append, choose, h e List.mem_cons_self, ih fun d hd => h d (List.mem_cons_of_mem _ hd)]

theorem choose_cons {j : Nat} {p : Option Nat} {r : List (Nat × Option Nat)} (h : s.attempt (8 * core + j) = some (.next t)) : s.choose core ((j, p) :: r) = some (j, p, .next t) := by
  simp only [choose, h]

/-- The step of an issue slot, as the slot's own choice. -/
theorem step_issue (hc : core < 1536) (hs : s.still = false) : step { s with turns := .issue core :: s.turns } = s.issueSlot core := if_pos ⟨hc, hs⟩

theorem step_issued {j : Nat} {p : Option Nat} (hc : core < 1536) (hs : s.still = false) (h : s.choose core (s.slotOrder core) = some (j, p, .next t)) :
    step { s with turns := .issue core :: s.turns } = s.issued core j p t := by
  rw [step_issue hc hs, issueSlot, h]
  rfl

/-- Place `d` of an order of eight. -/
theorem range_eight_split : ∀ d < 8, List.range 8 = List.range d ++ d :: List.range' (d + 1) (7 - d) := by decide

/-- Eight places from `r` on reach every slot, after as many steps as its distance from `r` says. -/
theorem place_of_distance {r j : Nat} (hr : r < 8) (hj : j < 8) : (r + (j + 8 - r) % 8) % 8 = j := by omega

theorem distance_of_place {r i : Nat} (hr : r < 8) (hi : i < 8) : ((r + i) % 8 + 8 - r) % 8 = i := by omega

/-- The slots of one priority choose the first ready one at or after their pointer (R14). -/
theorem choose_prioOrder {j : Nat} (hj : j < 8) (ha : s.attempt (8 * core + j) = some (.next t)) (l : List (Nat × Option Nat))
    (hmin : ∀ q, q < 8 → (s.ctx (8 * core + q)).prio.toNat = (s.ctx (8 * core + j)).prio.toNat →
      (q + 8 - (vget (s.core core).rot (s.ctx (8 * core + j)).prio.toNat 0).toNat) % 8 < (j + 8 - (vget (s.core core).rot (s.ctx (8 * core + j)).prio.toNat 0).toNat) % 8 →
      s.attempt (8 * core + q) = none) :
    s.choose core (s.prioOrder core (s.ctx (8 * core + j)).prio.toNat (List.range 8) ++ l) = some (j, some (s.ctx (8 * core + j)).prio.toNat, .next t) := by
  generalize hp : (s.ctx (8 * core + j)).prio.toNat = p at hmin ⊢
  have hr := (vget (s.core core).rot p 0).isLt
  generalize hd : (j + 8 - (vget (s.core core).rot p 0).toNat) % 8 = d at hmin
  have hplace : ((vget (s.core core).rot p 0).toNat + d) % 8 = j := hd ▸ place_of_distance hr hj
  have hbefore : ∀ e ∈ s.prioOrder core p (List.range d), s.attempt (8 * core + e.1) = none := fun e he => by
    obtain ⟨i, hi, h1, h2⟩ := mem_prioOrder he
    have hi := List.mem_range.1 hi
    refine hmin e.1 (by omega) h2 ?_
    rw [h1, distance_of_place hr (by omega)]
    exact hi
  have hsplit : s.prioOrder core p (List.range 8) = s.prioOrder core p (List.range d) ++ (j, some p) :: s.prioOrder core p (List.range' (d + 1) (7 - d)) := by
    rw [range_eight_split d (by omega)]
    simp only [prioOrder, List.map_append, List.map_cons, List.filterMap_append, List.filterMap_cons, hplace, hp, if_true]
  rw [hsplit, List.append_assoc, choose_append hbefore, List.cons_append, choose_cons ha]

/-- No slot of a priority above that of every ready slot is ready. -/
theorem attempt_above {j p : Nat} (hmax : ∀ q, q < 8 → (s.attempt (8 * core + q)).isSome = true → (s.ctx (8 * core + q)).prio.toNat ≤ (s.ctx (8 * core + j)).prio.toNat)
    (hp : (s.ctx (8 * core + j)).prio.toNat < p) : ∀ e ∈ s.prioOrder core p (List.range 8), s.attempt (8 * core + e.1) = none := fun e he => by
  obtain ⟨i, -, h1, h2⟩ := mem_prioOrder he
  by_contra hne
  have := hmax e.1 (by omega) (Option.isSome_iff_ne_none.2 hne)
  omega

/-- Past its own context's slot, an issue slot chooses among the ready slots of the greatest priority (R14). -/
theorem choose_slotOrder {j : Nat} (hown : s.attempt (8 * core + (s.core core).slotNo % 8) = none) (hj : j < 8) (ha : s.attempt (8 * core + j) = some (.next t))
    (hmax : ∀ q, q < 8 → (s.attempt (8 * core + q)).isSome = true → (s.ctx (8 * core + q)).prio.toNat ≤ (s.ctx (8 * core + j)).prio.toNat)
    (hmin : ∀ q, q < 8 → (s.ctx (8 * core + q)).prio.toNat = (s.ctx (8 * core + j)).prio.toNat →
      (q + 8 - (vget (s.core core).rot (s.ctx (8 * core + j)).prio.toNat 0).toNat) % 8 < (j + 8 - (vget (s.core core).rot (s.ctx (8 * core + j)).prio.toNat 0).toNat) % 8 →
      s.attempt (8 * core + q) = none) :
    s.choose core (s.slotOrder core) = some (j, some (s.ctx (8 * core + j)).prio.toNat, .next t) := by
  have hprio := (s.ctx (8 * core + j)).prio.isLt
  have hfound := choose_prioOrder hj ha (hmin := hmin)
  have habove := fun p => attempt_above (p := p) hmax
  generalize (s.ctx (8 * core + j)).prio.toNat = p at hprio hfound habove ⊢
  rw [slotOrder_eq, ← List.singleton_append, choose_append (by simpa using hown)]
  simp only [List.append_assoc]
  obtain rfl | rfl | rfl | rfl : p = 3 ∨ p = 2 ∨ p = 1 ∨ p = 0 := by omega
  · exact hfound _
  · rw [choose_append (habove 3 (by omega)), hfound]
  · rw [choose_append (habove 3 (by omega)), choose_append (habove 2 (by omega)), hfound]
  · rw [choose_append (habove 3 (by omega)), choose_append (habove 2 (by omega)), choose_append (habove 1 (by omega)), ← List.append_nil (s.prioOrder core 0 _), hfound]

/-- Every slot of an order is one of the core's eight. -/
theorem slot_lt_of_mem_slotOrder {e : Nat × Option Nat} (h : e ∈ s.slotOrder core) : e.1 < 8 := by
  simp only [slotOrder_eq, List.mem_cons, List.mem_append] at h
  obtain rfl | ((h | h) | h) | h := h
  · exact Nat.mod_lt _ (by decide)
  all_goals
    obtain ⟨i, -, h1, -⟩ := mem_prioOrder h
    omega

end State

end Sys2Proof.Machine

open Sys2Proof Sys2Proof.Machine

/-- Settles O4: the slot's own context stands first in its order, then the ready ones by priority and pointer. -/
theorem stepRunsDecodedChain : Obligations.StepRunsDecodedChain := by
  unfold Obligations.StepRunsDecodedChain
  have hcore : ∀ {core j : Nat}, j < 8 → (8 * core + j) / 8 = core := by omega
  refine ⟨fun s t core n i => ?own, fun s core hc hs hown => ⟨fun t j n i => ?other, fun hnone => ?none⟩⟩
  case own =>
    intro k hc hs ho hb hw hf he ht
    have ha : s.attempt k = some (.next t) := State.attempt_runs (hcore (Nat.mod_lt _ (by decide))) ho hb hw hf he ht
    exact State.step_issued hc hs (State.choose_cons ha)
  case other =>
    intro k hj hbest _ ho hb hw hf he ht
    have ha : s.attempt k = some (.next t) := State.attempt_runs (hcore hj) ho hb hw hf he ht
    refine State.step_issued hc hs (State.choose_slotOrder (by simpa using hown) hj ha (fun q hq hr => ?_) (fun q hq he hlt => ?_))
    · obtain h | ⟨h, -⟩ := hbest q hq hr
      · exact h.le
      · exact h.le
    · by_contra hne
      have hq := hbest q hq (Option.isSome_iff_ne_none.2 hne)
      simp only [he] at hq
      omega
  case none =>
    rw [State.step_issue hc hs, State.issueSlot, State.choose_none fun e he => by simpa using hnone e.1 (State.slot_lt_of_mem_slotOrder he)]
end

section
/-! SUPPORT. How a context leaves its slot: what HALT and HALT.retain free, keep and push (R15, R135). -/

set_option Elab.async false

namespace Sys2Proof.Machine

open Sys2Proof

/-! Memory and contexts that an operation leaves alone. -/

theorem sameMemory.refl (s : State) : sameMemory s s := ⟨rfl, rfl, rfl, rfl⟩

theorem sameMemory.trans {s t u : State} (h : sameMemory s t) (g : sameMemory t u) : sameMemory s u :=
  ⟨g.1.trans h.1, g.2.1.trans h.2.1, g.2.2.1.trans h.2.2.1, g.2.2.2.trans h.2.2.2⟩

theorem sameContexts.of_ctxs {s t : State} {k : Nat} {c : Ctx} (h : t.ctxs = tset s.ctxs k c) : sameContexts s t k := fun j hj => by
  simp only [State.ctx, h, tget_tset_other _ hj]

theorem State.idleRow_sameMemory (s : State) (k : Nat) : sameMemory s (s.idleRow k) := by
  unfold idleRow
  dsimp only
  split <;> exact ⟨rfl, rfl, rfl, rfl⟩

theorem State.idleRow_cores (s : State) (k : Nat) : (s.idleRow k).cores = s.cores := by
  unfold idleRow
  dsimp only
  split <;> rfl

theorem State.idleRow_devctxs (s : State) (k : Nat) : (s.idleRow k).devctxs = s.devctxs := by
  unfold idleRow
  dsimp only
  split <;> rfl

/-! Owners. -/

theorem State.ctx_congr {s t : State} (h : t.ctxs = s.ctxs) (k : Nat) : t.ctx k = s.ctx k := by simp only [State.ctx, h]
theorem State.core_congr {s t : State} (h : t.cores = s.cores) (k : Nat) : t.core k = s.core k := by simp only [State.core, h]
theorem State.cluster_congr {s t : State} (h : t.clusters = s.clusters) (k : Nat) : t.cluster k = s.cluster k := by simp only [State.cluster, h]
theorem State.dctx_congr {s t : State} (h : t.devctxs = s.devctxs) (n : Nat) : t.dctx n = s.dctx n := by simp only [State.dctx, h]

/-- Gives each place that `w` owns among `l` another owner, as it is read by `get` and written by `put`. -/
def Core.retake (get : Core → Nat → Own) (put : Core → Nat → Own → Core) (w : Own) (new : Core → Nat → Own) (l : List Nat) (c : Core) : Core :=
  l.foldl (fun c n => if get c n = w then put c n (new c n) else c) c

/-- Sets the owner of an accumulator. -/
def Core.setAccOwn (c : Core) (n : Nat) (w : Own) : Core := c.setAcc n { c.acc n with own := w }

namespace Core

variable {get : Core → Nat → Own} {put : Core → Nat → Own → Core} {w : Own} {new : Core → Nat → Own} (l : List Nat) (c : Core)

/-- What no write of an owner changes, a pass over the owners leaves. -/
theorem retake_keeps {α : Type} (g : Core → α) (hg : ∀ c n x, g (put c n x) = g c) : g (c.retake get put w new l) = g c :=
  foldl_keeps (P := fun d => g d = g c) (fun d n hd => by
    split
    · exact (hg _ _ _).trans hd
    · exact hd) l rfl

section

variable (hother : ∀ c n m x, m ≠ n → get (put c n x) m = get c m)

include hother

/-- A place that `w` does not own keeps its owner. -/
theorem retake_other {m : Nat} (hm : get c m ≠ w) : get (c.retake get put w new l) m = get c m := by
  unfold retake
  induction l generalizing c with
  | nil => rfl
  | cons n r ih =>
    rw [List.foldl_cons]
    by_cases hn : get c n = w
    · have hne : m ≠ n := fun he => hm (he ▸ hn)
      rw [if_pos hn, ih (put c n (new c n)) (hother c n m _ hne ▸ hm), hother c n m _ hne]
    · rw [if_neg hn, ih c hm]

variable (hsame : ∀ c n x, get (put c n x) n = x) (hnew : ∀ d n, new d n ≠ w)

include hsame hnew

/-- A place of the list that `w` owns has a new owner. -/
theorem retake_taken {m : Nat} (hm : m ∈ l) (ho : get c m = w) : ∃ d, get (c.retake get put w new l) m = new d m := by
  induction l generalizing c with
  | nil => cases hm
  | cons n r ih =>
    have hstep : c.retake get put w new (n :: r) = (if get c n = w then put c n (new c n) else c).retake get put w new r := rfl
    rw [hstep]
    by_cases hn : m = n
    · subst hn
      rw [if_pos ho]
      have hput := hsame c m (new c m)
      exact ⟨c, (retake_other (new := new) r (put c m (new c m)) hother (hput.symm ▸ hnew c m)).trans hput⟩
    · have hr := (List.mem_cons.1 hm).resolve_left hn
      split
      · exact ih _ hr ((hother c n m _ hn).trans ho)
      · exact ih _ hr ho

/-- No place of the list is `w`'s afterwards. -/
theorem retake_ne {m : Nat} (hm : m ∈ l) : get (c.retake get put w new l) m ≠ w := by
  by_cases ho : get c m = w
  · obtain ⟨d, hd⟩ := retake_taken l c hother hsame hnew hm ho
    exact hd ▸ hnew d m
  · exact (retake_other l c hother ho).symm ▸ ho

end

theorem own_setOwn_same (n : Nat) (w : Own) : (c.setOwn n w).own n = w := tget_tset_same _ _ _ _
theorem own_setOwn_other (n m : Nat) (w : Own) (h : m ≠ n) : (c.setOwn n w).own m = c.own m := tget_tset_other _ h _ _
@[simp] theorem acc_setAcc_same (n : Nat) (a : Acc) : (c.setAcc n a).acc n = a := tget_tset_same _ _ _ _
theorem acc_setAcc_other {n m : Nat} (h : m ≠ n) (a : Acc) : (c.setAcc n a).acc m = c.acc m := tget_tset_other _ h _ _

/-- The owner of an accumulator. -/
def accOwn (c : Core) (n : Nat) : Own := (c.acc n).own

theorem accOwn_setAccOwn_same (n : Nat) (w : Own) : (c.setAccOwn n w).accOwn n = w := by simp only [accOwn, setAccOwn, acc_setAcc_same]
theorem accOwn_setAccOwn_other (n m : Nat) (w : Own) (h : m ≠ n) : (c.setAccOwn n w).accOwn m = c.accOwn m := by simp only [accOwn, setAccOwn, acc_setAcc_other c h]

theorem entitle_eq (slot uid : Nat) : ∃ r, c.entitle slot uid = { c with rights := r } := by
  unfold entitle
  dsimp only
  split
  · exact ⟨_, rfl⟩
  · exact ⟨_, rfl⟩

/-- The owner of an operand slot once its context has halted. -/
def slotLeft (c : Core) (n : Nat) : Own := if c.slotInUse n then .ending else .free

/-- The owner of an accumulator once its context has halted. -/
def accLeft (c : Core) (n : Nat) : Own := if c.mat.any (fun m => m.tc == n) then .ending else .free

theorem slotLeft_ne (slot : Nat) (d : Core) (n : Nat) : d.slotLeft n ≠ .ctx slot := by
  unfold slotLeft
  split <;> exact nofun

theorem accLeft_ne (slot : Nat) (d : Core) (n : Nat) : d.accLeft n ≠ .ctx slot := by
  unfold accLeft
  split <;> exact nofun

theorem releaseCtx_eq (slot : Nat) :
    c.releaseCtx slot = (c.retake own setOwn (.ctx slot) slotLeft (List.range 96)).retake accOwn setAccOwn (.ctx slot) accLeft (List.range 32) := rfl

/-- A core without what it holds of a continuation's SSEND (R239). -/
def parted (uid : Nat) : Core := { c with exch := c.exch.filter (· != uid), ss := tdel c.ss uid }

theorem own_parted (uid n : Nat) : (c.parted uid).own n = c.own n := rfl
theorem acc_parted (uid n : Nat) : (c.parted uid).acc n = c.acc n := rfl

/-- A halting context owns no operand slot afterwards (R135). -/
theorem own_releaseCtx_ne (slot : Nat) {n : Nat} (hn : n < 96) : (c.releaseCtx slot).own n ≠ .ctx slot := by
  rw [releaseCtx_eq, retake_keeps (put := setAccOwn) (g := fun d => d.own n) (hg := fun _ _ _ => rfl)]
  exact retake_ne _ c own_setOwn_other own_setOwn_same (slotLeft_ne slot) (List.mem_range.2 hn)

/-- A halting context owns no accumulator afterwards (R135). -/
theorem acc_releaseCtx_ne (slot : Nat) {n : Nat} (hn : n < 32) : ((c.releaseCtx slot).acc n).own ≠ .ctx slot := by
  rw [releaseCtx_eq]
  exact retake_ne _ _ accOwn_setAccOwn_other accOwn_setAccOwn_same (accLeft_ne slot) (List.mem_range.2 hn)

end Core

namespace State

variable (s : State) (k : Nat)

/-! The end of a context (R135, R333). -/

theorem freeCtx_sameMemory : sameMemory s (s.freeCtx k) := idleRow_sameMemory (s.setCtx k {}) k

theorem freeCtx_ctxs : (s.freeCtx k).ctxs = tset s.ctxs k {} := idleRow_ctxs _ _

theorem freeCtx_core (j : Nat) : (s.freeCtx k).core j = s.core j := core_congr (idleRow_cores _ _) j

theorem freeCtx_occ : ((s.freeCtx k).ctx k).occ = false := by
  simp only [ctx, freeCtx_ctxs, tget_tset_same]

/-- The end of a context, by the core that it leaves. -/
theorem endContext_eq : s.endContext k = ((s.setCore (k / 8) ((((s.core (k / 8)).entitle (k % 8) (s.ctx k).uid).releaseCtx (k % 8)).parted (s.ctx k).uid)).freeCtx k).liveDown (s.ctx k).dc := rfl

theorem endContext_ctxs : (s.endContext k).ctxs = tset s.ctxs k {} := by
  rw [endContext_eq]
  exact freeCtx_ctxs _ _

theorem endContext_sameMemory : sameMemory s (s.endContext k) := by
  rw [endContext_eq]
  exact freeCtx_sameMemory (s.setCore (k / 8) _) k

theorem endContext_occ : ((s.endContext k).ctx k).occ = false := by
  simp only [ctx, endContext_ctxs, tget_tset_same]

theorem endContext_live : ((s.endContext k).dctx (s.ctx k).dc).live = (s.dctx (s.ctx k).dc).live - 1 := by
  have hd : ∀ (t : State) n, (State.freeCtx t k).dctx n = t.dctx n := fun t n => dctx_congr (idleRow_devctxs _ _) n
  rw [endContext_eq, liveDown, dctx_setDctx_same, hd]
  rfl

theorem endContext_core : (s.endContext k).core (k / 8) = (((s.core (k / 8)).entitle (k % 8) (s.ctx k).uid).releaseCtx (k % 8)).parted (s.ctx k).uid := by
  rw [endContext_eq, liveDown, core_setDctx, freeCtx_core, core_setCore_same]

theorem endContext_own {n : Nat} (hn : n < 96) : ((s.endContext k).core (k / 8)).own n ≠ .ctx (k % 8) := by
  rw [endContext_core, Core.own_parted]
  exact Core.own_releaseCtx_ne _ _ hn

theorem endContext_acc {n : Nat} (hn : n < 32) : (((s.endContext k).core (k / 8)).acc n).own ≠ .ctx (k % 8) := by
  rw [endContext_core, Core.acc_parted]
  exact Core.acc_releaseCtx_ne _ _ hn

/-! What a pier's write, a link word and a push leave alone. -/

theorem digestLine_eq (m : Mem) (a : Nat) : ∃ lm d, s.digestLine m a = { s with lineMeta := lm, digests := d } := by
  unfold digestLine
  split <;> exact ⟨_, _, rfl⟩

theorem uncache_eq (a : Nat) : ∃ cl, s.uncache a = { s with clusters := cl } := by
  unfold uncache
  split <;> exact ⟨_, rfl⟩

/-- What a pier's write of a line may change beside memory: the line's marks, the digests, the cluster caches' copies and a poison mark (R282, R324, R390). -/
def besideWrite (s t : State) : Prop := ∃ lm p d cl, t = { s with lineMeta := lm, poison := p, digests := d, clusters := cl }

theorem pierWrite_eq (pa n v : Nat) : ∃ lm p d cl, s.pierWrite pa n v = { s with mem := mwrite s.mem pa n v, lineMeta := lm, poison := p, digests := d, clusters := cl } := by
  have hline : ∀ (m : Mem) (t : State) a, s.besideWrite t → s.besideWrite ((t.digestLine m a).uncache a) := fun m t a ht => by
    obtain ⟨lm, p, d, cl, rfl⟩ := ht
    obtain ⟨lm', d', hd⟩ := digestLine_eq { s with lineMeta := lm, poison := p, digests := d, clusters := cl } m a
    rw [hd]
    obtain ⟨cl', hu⟩ := uncache_eq { s with lineMeta := lm', poison := p, digests := d', clusters := cl } a
    exact ⟨lm', p, d', cl', hu⟩
  have hpoison : s.besideWrite (if n = 64 ∧ pa % 64 = 0 then { s with poison := s.poison.filter (· != pa / 64) } else s) := by
    split <;> exact ⟨_, _, _, _, rfl⟩
  obtain ⟨lm, p, d, cl, h⟩ := foldl_keeps (P := s.besideWrite) (hline (mwrite s.mem pa n v)) (linesAt pa n) hpoison
  unfold pierWrite
  dsimp only
  rw [h]
  exact ⟨lm, p, d, cl, rfl⟩

theorem lateWrite_eq (pa n v : Nat) : ∃ m lm p d cl q, s.lateWrite pa n v = { s with mem := m, lineMeta := lm, poison := p, digests := d, clusters := cl, late := q } := by
  unfold lateWrite
  split
  · exact ⟨_, _, _, _, _, _, rfl⟩
  · obtain ⟨lm, p, d, cl, h⟩ := s.pierWrite_eq pa n v
    exact ⟨_, lm, p, d, cl, _, h⟩

theorem writeLink_eq (core : Nat) (e : QEnt) : ∃ m lm p d cl q, s.writeLink core e = { s with mem := m, lineMeta := lm, poison := p, digests := d, clusters := cl, late := q } := by
  unfold writeLink
  split
  · split
    · exact s.lateWrite_eq _ _ _
    · exact ⟨_, _, _, _, _, _, rfl⟩
  · exact ⟨_, _, _, _, _, _, rfl⟩

theorem writeLink_cores (core : Nat) (e : QEnt) : (s.writeLink core e).cores = s.cores := by
  obtain ⟨m, lm, p, d, cl, q, h⟩ := s.writeLink_eq core e
  rw [h]

variable {s} in
/-- What neither a link word nor an entry of a queue or deque is part of, a push leaves. -/
theorem pushDeque_frame {core : Nat} {e : QEnt} {α : Type} {f : State → α}
    (hw : ∀ (t : State) m lm p d cl q, f { t with mem := m, lineMeta := lm, poison := p, digests := d, clusters := cl, late := q } = f t)
    (hc : ∀ (t : State) n c, f (t.setCluster n c) = f t) (hk : ∀ (t : State) n c, f (t.setCore n c) = f t) : f (s.pushDeque core e) = f s := by
  have hl : ∀ core, f (s.writeLink core e) = f s := fun core => by
    obtain ⟨m, lm, p, d, cl, q, h⟩ := s.writeLink_eq core e
    rw [h, hw]
  unfold pushDeque enqueue
  split
  · exact (hc _ _ _).trans (hl _)
  · exact (hk _ _ _).trans (hl _)

variable {s} in
/-- A push on a deque that is not full (R236). -/
theorem pushDeque_core {core : Nat} {e : QEnt} (h : (s.core core).deque.length < 256) :
    (s.pushDeque core e).core core = { s.core core with deque := (s.core core).deque ++ [{ e with tick := (s.writeLink core e).tick }] } := by
  have hw : (s.writeLink core e).core core = s.core core := core_congr (writeLink_cores s core e) core
  rw [pushDeque, if_neg (Nat.not_le.2 h)]
  dsimp only
  rw [core_setCore_same, hw]

end State

/-! HALT and HALT.retain. -/

/-- The core of a context that halts with its slots kept for the record `rcd` (R15). -/
def Core.retainFor (c : Core) (slot uid : Nat) (rcd : Word) : Core :=
  ((c.entitle slot uid).retake Core.own Core.setOwn (.ctx slot) (fun _ _ => .kept rcd) (List.range 96)).retake Core.accOwn Core.setAccOwn (.ctx slot) (fun _ _ => .kept rcd) (List.range 32)

namespace Core

variable (c : Core) (slot uid : Nat) (rcd : Word)

/-- What neither the owners nor the rights are part of, retaining leaves. -/
theorem retainFor_keeps {α : Type} (g : Core → α) (hg : ∀ (c : Core) (x : Tbl Own) (y : Tbl Acc) (z : Tbl (List Nat)), g { c with slots := x, accs := y, rights := z } = g c) :
    g (c.retainFor slot uid rcd) = g c := by
  obtain ⟨r, hr⟩ := c.entitle_eq slot uid
  rw [retainFor, hr, retake_keeps (put := setAccOwn) (g := g) (hg := fun d n x => hg d d.slots _ d.rights),
    retake_keeps (put := setOwn) (g := g) (hg := fun d n x => hg d _ d.accs d.rights)]
  exact hg c _ _ _

theorem kept_ne_ctx : Own.kept rcd ≠ .ctx slot := nofun

theorem own_retainFor {n : Nat} (hn : n < 96) (ho : c.own n = .ctx slot) : (c.retainFor slot uid rcd).own n = .kept rcd := by
  have he : (c.entitle slot uid).own n = .ctx slot := by
    obtain ⟨r, hr⟩ := c.entitle_eq slot uid
    rw [hr]
    exact ho
  rw [retainFor, retake_keeps (put := setAccOwn) (g := fun d => d.own n) (hg := fun _ _ _ => rfl)]
  obtain ⟨-, h⟩ := retake_taken (new := fun _ _ => .kept rcd) (List.range 96) _ own_setOwn_other own_setOwn_same (fun _ _ => kept_ne_ctx slot rcd) (List.mem_range.2 hn) he
  exact h

theorem acc_retainFor {n : Nat} (hn : n < 32) (ho : (c.acc n).own = .ctx slot) : ((c.retainFor slot uid rcd).acc n).own = .kept rcd := by
  have he : ((c.entitle slot uid).retake own setOwn (.ctx slot) (fun _ _ => .kept rcd) (List.range 96)).accOwn n = .ctx slot := by
    obtain ⟨r, hr⟩ := c.entitle_eq slot uid
    rw [retake_keeps (put := setOwn) (g := fun d => d.accOwn n) (hg := fun _ _ _ => rfl), hr]
    exact ho
  obtain ⟨-, h⟩ := retake_taken (new := fun _ _ => .kept rcd) (List.range 32) _ accOwn_setAccOwn_other accOwn_setAccOwn_same (fun _ _ => kept_ne_ctx slot rcd) (List.mem_range.2 hn) he
  exact h

/-- A core that keeps its slots for a successor, and nothing of a continuation's SSEND (R15, R239). -/
def noting (e : Kept) : Core := { c with kept := c.kept ++ [e], ss := tdel c.ss e.uid, exch := c.exch.filter (· != e.uid) }

theorem noting_kept (e : Kept) : (c.noting e).kept = c.kept ++ [e] := rfl
theorem noting_deque (e : Kept) : (c.noting e).deque = c.deque := rfl
theorem noting_own (e : Kept) (n : Nat) : (c.noting e).own n = c.own n := rfl
theorem noting_acc (e : Kept) (n : Nat) : (c.noting e).acc n = c.acc n := rfl

/-- The core of a context that halts with its slots kept, as `e` records it. -/
def keepFor (slot : Nat) (e : Kept) : Core := (c.retainFor slot e.uid e.rcd).noting e

variable (e : Kept)

theorem keepFor_kept : (c.keepFor slot e).kept = c.kept ++ [e] := by
  rw [keepFor, noting_kept, retainFor_keeps (g := Core.kept) (hg := fun _ _ _ _ => rfl)]

theorem keepFor_deque : (c.keepFor slot e).deque = c.deque := by
  rw [keepFor, noting_deque, retainFor_keeps (g := Core.deque) (hg := fun _ _ _ _ => rfl)]

theorem keepFor_own {n : Nat} (hn : n < 96) (ho : c.own n = .ctx slot) : (c.keepFor slot e).own n = .kept e.rcd := by
  rw [keepFor, noting_own, own_retainFor c slot e.uid e.rcd hn ho]

theorem keepFor_acc {n : Nat} (hn : n < 32) (ho : (c.acc n).own = .ctx slot) : ((c.keepFor slot e).acc n).own = .kept e.rcd := by
  rw [keepFor, noting_acc, acc_retainFor c slot e.uid e.rcd hn ho]

end Core

variable {s : State} {o : Ops}

/-- Without a poisoned line, an instruction that needs a checkpoint and has none traps CKMISS (R314). -/
theorem State.ckTrap_eq (hp : s.poison = []) : s.ckTrap = { cause := 10 } := by
  simp only [State.ckTrap, State.ckPoison, hp, if_true, Option.getD_none]
  rfl

theorem State.resultsBack_iff : s.resultsBack = true ↔ s.cx.drained = true ∧ s.co.awaitsMx (s.cur % 8) = false := by
  simp [State.resultsBack]

/-- The body of HALT. -/
def haltBody (s : State) : Eff :=
  if s.atCheckpoint = false then .trap s.ckTrap
  else if s.resultsBack = false then .stall
  else .gone (s.endContext s.cur)

theorem execHalt_eq (o : Ops) (s : State) : exec (.halt o) s = issue (.halt o) o [] haltBody s := rfl

/-- HALT, by whether it stands at a checkpoint and its results have come. -/
theorem halt_run (h : s.canIssue o []) : exec (.halt o) s =
    if s.atCheckpoint = false then .next (s.raise s.ckTrap) else if s.resultsBack = false then .next { s with stall := true } else .next (s.endContext s.cur) := by
  rw [execHalt_eq, issue_run h, haltBody]
  split
  · rfl
  · split <;> rfl

/-- What HALT.retain keeps for the successor `rcd`. -/
def Ctx.keptFor (c : Ctx) (rcd : Word) (lo len : Nat) : Kept := { rcd, uid := c.uid, tc := (List.range 32).filterMap (fun n => (vget c.tc n none).map (fun p => (n, p))), lo, len }

/-- The current core once HALT.retain has kept its slots, and before it has pushed the successor. -/
def State.retained (s : State) (rcd : Word) (lo len : Nat) : State := s.setCo (s.co.keepFor (s.cur % 8) (s.cx.keptFor rcd lo len))

/-- The state once HALT.retain has kept its context's slots and pushed the successor. -/
def State.handedOn (s : State) (rcd : Word) (lo len : Nat) : State :=
  let t := s.retained rcd lo len
  t.pushDeque t.coreNo { rcd, dc := s.cx.dc, prio := t.recPrio t.coreNo s.cx.trans rcd }

theorem State.handedOn_cur (rcd : Word) (lo len : Nat) : (s.handedOn rcd lo len).cur = s.cur := State.pushDeque_frame (f := State.cur) (fun _ _ _ _ _ _ _ => rfl) (fun _ _ _ => rfl) (fun _ _ _ => rfl)

/-- The body of HALT.retain. -/
def haltRetainBody (o : Ops) (s : State) : Eff :=
  let rcd := regTarget (s.cx.getG o.aNum)
  let r := (s.cx.getG o.bNum).toNat
  if s.atCheckpoint = false then .trap s.ckTrap
  else if rcd.toNat % 64 ≠ 0 then .trap (trapAt 3 rcd.toNat (info 15 15 0))
  else if fld r 17 15 ≠ 0 ∨ fld r 49 15 ≠ 0 then .trap (protEntry 15 7 0)
  else if fld r 32 17 ≠ 0 ∧ 0x18000 < fld r 0 17 + fld r 32 17 then .trap (protEntry 15 4 (max (fld r 0 17) 0x18000))
  else if s.resultsBack = false ∨ s.bytesFree s.coreNo s.cx.trans (fld rcd.toNat 0 56 + 24) 8 = false then .stall
  else
    let t := s.handedOn rcd (fld r 0 17) (fld r 32 17)
    .gone (t.freeCtx t.cur)

theorem execHaltRetain_eq (o : Ops) (s : State) : exec (.haltRetain o) s = issue (.haltRetain o) o [rg o.aNum, rg o.bNum] (haltRetainBody o) s := rfl

theorem haltRetain_ckmiss (h : s.canIssue o [rg o.aNum, rg o.bNum]) (hk : s.atCheckpoint = false) : exec (.haltRetain o) s = .next (s.raise s.ckTrap) := by
  rw [execHaltRetain_eq, issue_run h, haltRetainBody]
  simp only [hk, if_true]
  rfl

/-- HALT.retain at a checkpoint, its operands in order and its results back. -/
theorem haltRetain_run {rcd : Word} {r : Nat} (hrcd : regTarget (s.cx.getG o.aNum) = rcd) (hr : (s.cx.getG o.bNum).toNat = r) (h : s.canIssue o [rg o.aNum, rg o.bNum])
    (hk : s.atCheckpoint = true) (hb : s.resultsBack = true) (ha : rcd.toNat % 64 = 0) (h1 : fld r 17 15 = 0) (h2 : fld r 49 15 = 0)
    (hl : fld r 32 17 = 0 ∨ fld r 0 17 + fld r 32 17 ≤ 0x18000) :
    exec (.haltRetain o) s =
      if s.bytesFree s.coreNo s.cx.trans (fld rcd.toNat 0 56 + 24) 8 = false then
        .next { s with stall := true } else .next ((s.handedOn rcd (fld r 0 17) (fld r 32 17)).freeCtx s.cur) := by
  have hl' : ¬(fld r 32 17 ≠ 0 ∧ 0x18000 < fld r 0 17 + fld r 32 17) := by omega
  rw [execHaltRetain_eq, issue_run h, haltRetainBody]
  simp only [hrcd, hr, hk, hb, ha, h1, h2, hl', ne_eq, not_true_eq_false, or_self, if_false, false_or, Bool.true_eq_false, State.handedOn_cur]
  split <;> rfl

end Sys2Proof.Machine

open Sys2Proof Sys2Proof.Machine

/-- Settles O23: HALT ends its context with `endContext`; HALT.retain marks what its context owns as kept and pushes the successor. -/
theorem haltEndsContext : Obligations.HaltEndsContext := by
  unfold Obligations.HaltEndsContext
  refine fun o s => ⟨fun h hk hw => ?stall, fun h hk hd hm => ?halt, fun h hk hd hm hlen => ?retain, fun hp h hk => ?miss, fun hp h hk => ?missRetain⟩
  case stall =>
    have hb : s.resultsBack = false := by
      rw [State.resultsBack]
      obtain hw | hw := hw <;> simp [hw]
    rw [halt_run h, if_neg (by simp [hk]), if_pos hb]
  case halt =>
    refine ⟨s.endContext s.cur, ?_, s.endContext_occ _, s.endContext_live _, fun n hn => s.endContext_own _ hn, fun n hn => s.endContext_acc _ hn, s.endContext_sameMemory _,
      .of_ctxs (s.endContext_ctxs _)⟩
    rw [halt_run h, if_neg (by simp [hk]), if_neg (by simp [State.resultsBack_iff.2 ⟨hd, hm⟩])]
  case retain =>
    intro rcd r ha h1 h2 hl
    have hrun := haltRetain_run (rcd := rcd) (r := r) (by unfold regTarget; rw [fld_low]) rfl h hk (State.resultsBack_iff.2 ⟨hd, hm⟩) ha h1 h2 hl
    have hrcd : fld rcd.toNat 0 56 = rcd.toNat := by
      rw [fld_low, BitVec.toNat_ofNat]
      omega
    rw [hrcd] at hrun
    refine ⟨fun hf => hrun.trans (if_pos hf), fun hf => ⟨_, hrun.trans (if_neg (by simp [hf])), State.freeCtx_occ _ _, ?_⟩⟩
    generalize hlo : fld r 0 17 = lo
    generalize hln : fld r 32 17 = len
    have hco : (s.retained rcd lo len).core s.coreNo = s.co.keepFor (s.cur % 8) (s.cx.keptFor rcd lo len) := State.co_setCo s _
    have hdq : ((s.retained rcd lo len).core s.coreNo).deque = s.co.deque := hco ▸ s.co.keepFor_deque _ _
    have hpush := fun e => State.pushDeque_core (s := s.retained rcd lo len) (core := s.coreNo) (e := e) (hdq ▸ hlen)
    rw [State.freeCtx_core, State.handedOn]
    rw [show (s.retained rcd lo len).coreNo = s.coreNo from rfl, hpush]
    refine ⟨?_, ⟨_, congrArg (· ++ _) hdq, rfl, rfl⟩, fun n hn ho => ?_, fun n hn ho => ?_⟩
    · show Core.kept ((s.retained rcd lo len).core s.coreNo) = _
      rw [hco]
      exact s.co.keepFor_kept _ _
    · show Core.own ((s.retained rcd lo len).core s.coreNo) n = _
      rw [hco]
      exact s.co.keepFor_own _ _ hn ho
    · show (Core.acc ((s.retained rcd lo len).core s.coreNo) n).own = _
      rw [hco]
      exact s.co.keepFor_acc _ _ hn ho
  case miss => rw [halt_run h, if_pos hk, State.ckTrap_eq hp]
  case missRetain => rw [haltRetain_ckmiss h hk, State.ckTrap_eq hp]
end

section
/-! SUPPORT. What an instruction that completes or waits leaves of its context, and the maintenance of caches and TLBs (R251, R252, R282, R345). -/

set_option Elab.async false

namespace Sys2Proof.Machine

open Sys2Proof

/-! The end of an instruction. -/

theorem sameRegisters.refl (c : Ctx) : sameRegisters c c [] := ⟨fun _ _ => rfl, rfl, rfl, rfl, rfl⟩

theorem sameRegisters_retire (c : Ctx) (i : Instr) (m : Bool) : sameRegisters c (c.retire i m) [] := (sameRegisters_of_file (c.file_retire i m)).1

/-- What an instruction that completes after an operation that leaves the contexts alone leaves of them. -/
theorem retired_contexts {s t : State} (hc : t.ctxs = s.ctxs) (hk : t.cur = s.cur) (i : Instr) (m : Bool) :
    sameRegisters s.cx (t.setCx (t.cx.retire i m)).cx [] ∧ sameContexts s (t.setCx (t.cx.retire i m)) s.cur := by
  have hcx : t.cx = s.cx := by rw [State.cx, State.cx, hk, State.ctx_congr hc]
  refine ⟨?_, .of_ctxs (c := t.cx.retire i m) (by simp only [State.setCx, State.setCtx, hc, hk])⟩
  rw [State.cx_setCx, hcx]
  exact sameRegisters_retire _ _ _

/-- The context of an instruction that waits after an operation that leaves the contexts alone. -/
def Ctx.waiting (c : Ctx) (i : Instr) (w : Wait) : Ctx := { c with wait := w, held := some i, sw := false, entered := false }

theorem sameRegisters_waiting (c : Ctx) (i : Instr) (w : Wait) : sameRegisters c (c.waiting i w) [] := .refl c

theorem waits_cx {s t : State} (hc : t.ctxs = s.ctxs) (hk : t.cur = s.cur) (i : Instr) (w : Wait) : ∃ u, waits i w t = .next u ∧ u = t.setCx (s.cx.waiting i w) ∧ u.cx = s.cx.waiting i w := by
  have hcx : t.cx = s.cx := by rw [State.cx, State.cx, hk, State.ctx_congr hc]
  exact ⟨_, rfl, by rw [hcx]; rfl, (State.cx_setCx _ _).trans (by rw [hcx]; rfl)⟩

theorem sameMemory_setCx (t : State) (c : Ctx) : sameMemory t (t.setCx c) := ⟨rfl, rfl, rfl, rfl⟩

/-! TLBs. -/

/-- A pass whose every step filters some of the lists that `get` reads filters those that one of its steps does. -/
theorem foldl_filters {σ ι α : Type} {get : σ → Nat → List α} {p : α → Bool} {step : σ → ι → σ} {on : ι → Nat → Prop} [∀ i k, Decidable (on i k)]
    (h : ∀ s i k, get (step s i) k = if on i k then (get s k).filter p else get s k) (l : List ι) (s : σ) (k : Nat) :
    get (l.foldl step s) k = if ∃ i ∈ l, on i k then (get s k).filter p else get s k := by
  induction l generalizing s with
  | nil => simp
  | cons i r ih =>
    rw [List.foldl_cons, ih, h]
    by_cases hi : on i k <;> by_cases hr : ∃ j ∈ r, on j k <;> simp [hi, hr]

namespace State

/-- Drops the named entries of a core's TLB. -/
def flushCore (f : Flush) (s : State) (k : Nat) : State :=
  let c := s.core k
  if c.utlb.any f.takes then s.setCore k { c with utlb := c.utlb.filter (fun e => !f.takes e) } else s

/-- Drops the named entries of a cluster's own TLB. -/
def flushTlb (f : Flush) (s : State) (n : Nat) : State :=
  let cl := s.cluster n
  if cl.tlb.any f.takes then s.setCluster n { cl with tlb := cl.tlb.filter (fun e => !f.takes e) } else s

theorem flushCluster_eq (s : State) (f : Flush) (n : Nat) : s.flushCluster f n = (List.range 32).foldl (fun s i => s.flushCore f (32 * n + i)) (s.flushTlb f n) := rfl

/-- A list none of whose entries a removal takes is what the removal leaves of it. -/
theorem filter_of_none {f : Flush} {l : List TlbEnt} (h : ¬(l.any f.takes) = true) : l.filter (fun e => !f.takes e) = l :=
  List.filter_eq_self.2 fun e he => by simpa using (List.any_eq_false.1 (Bool.not_eq_true _ ▸ h)) e he

theorem flushCore_utlb (f : Flush) (s : State) (n k : Nat) :
    ((s.flushCore f n).core k).utlb = if k = n then (s.core k).utlb.filter (fun e => !f.takes e) else (s.core k).utlb := by
  unfold flushCore
  dsimp only
  split
  · rw [core_setCore]
    split
    · subst_vars; rfl
    · rfl
  · split
    · subst_vars
      exact (filter_of_none ‹_›).symm
    · rfl

theorem flushTlb_cluster (f : Flush) (s : State) (n k : Nat) :
    ((s.flushTlb f n).cluster k).tlb = if k = n then (s.cluster k).tlb.filter (fun e => !f.takes e) else (s.cluster k).tlb := by
  unfold flushTlb
  dsimp only
  split
  · split
    · subst_vars
      rw [cluster_setCluster_same]
    · rw [cluster_setCluster_other _ ‹_›]
  · split
    · subst_vars
      exact (filter_of_none ‹_›).symm
    · rfl

/-- What a removal changes of the device is the TLBs of cores and clusters. -/
theorem flushCluster_keeps {α : Type} {g : State → α} (hk : ∀ s k c, g (State.setCore s k c) = g s) (hc : ∀ s k c, g (State.setCluster s k c) = g s) (s : State) (f : Flush) (n : Nat) :
    g (s.flushCluster f n) = g s := by
  rw [flushCluster_eq]
  refine foldl_keeps (P := fun u => g u = g s) (fun u i hu => ?_) _ ?_
  · unfold flushCore
    dsimp only
    split
    · exact (hk _ _ _).trans hu
    · exact hu
  · unfold flushTlb
    dsimp only
    split
    · exact hc _ _ _
    · rfl

theorem flushCluster_utlb (s : State) (f : Flush) (n k : Nat) :
    ((s.flushCluster f n).core k).utlb = if k / 32 = n then (s.core k).utlb.filter (fun e => !f.takes e) else (s.core k).utlb := by
  have hcores : ((s.flushTlb f n).core k).utlb = (s.core k).utlb := by
    unfold flushTlb
    dsimp only
    split <;> rfl
  have hin : (∃ i ∈ List.range 32, k = 32 * n + i) ↔ k / 32 = n :=
    ⟨fun ⟨i, hi, hk⟩ => by have := List.mem_range.1 hi; omega, fun hk => ⟨k % 32, List.mem_range.2 (by omega), by omega⟩⟩
  rw [flushCluster_eq, foldl_filters (get := fun s k => (State.core s k).utlb) (on := fun i k => k = 32 * n + i) (fun s i k => s.flushCore_utlb f _ k), hcores]
  simp only [hin]

theorem flushCluster_cluster (s : State) (f : Flush) (n m : Nat) : (s.flushCluster f n).cluster m = (s.flushTlb f n).cluster m := by
  rw [flushCluster_eq]
  refine foldl_keeps (P := fun u => State.cluster u m = (s.flushTlb f n).cluster m) (fun u i hu => ?_) _ rfl
  unfold flushCore
  dsimp only
  split <;> exact hu

theorem flushCluster_tlb (s : State) (f : Flush) (n m : Nat) :
    ((s.flushCluster f n).cluster m).tlb = if m = n then (s.cluster m).tlb.filter (fun e => !f.takes e) else (s.cluster m).tlb := by
  rw [flushCluster_cluster, flushTlb_cluster]

theorem flushCluster_other (s : State) (f : Flush) {n m : Nat} (h : m ≠ n) : (s.flushCluster f n).cluster m = s.cluster m := by
  rw [flushCluster_cluster]
  unfold flushTlb
  dsimp only
  split
  · exact cluster_setCluster_other _ h _
  · rfl

/-- The removal of a TLBINV in the clusters `ns` (R251). -/
def flushAll (s : State) (f : Flush) (ns : List Nat) : State := ns.foldl (fun s n => s.flushCluster f n) s

variable (s : State) (f : Flush) (ns : List Nat)

theorem flushAll_tlb (m : Nat) (e : TlbEnt) (hm : m ∈ ns) : e ∈ ((s.flushAll f ns).cluster m).tlb ↔ e ∈ (s.cluster m).tlb ∧ f.takes e = false := by
  rw [flushAll, foldl_filters (get := fun s m => (State.cluster s m).tlb) (on := fun n m => m = n) (fun s n m => s.flushCluster_tlb f n m), if_pos ⟨m, hm, rfl⟩]
  simp

theorem flushAll_utlb (k : Nat) (e : TlbEnt) (hk : k / 32 ∈ ns) : e ∈ ((s.flushAll f ns).core k).utlb ↔ e ∈ (s.core k).utlb ∧ f.takes e = false := by
  rw [flushAll, foldl_filters (get := fun s k => (State.core s k).utlb) (on := fun n k => k / 32 = n) (fun s n k => s.flushCluster_utlb f n k), if_pos ⟨k / 32, hk, rfl⟩]
  simp

theorem flushAll_keeps {α : Type} {g : State → α} (hk : ∀ s k c, g (State.setCore s k c) = g s) (hc : ∀ s k c, g (State.setCluster s k c) = g s) : g (s.flushAll f ns) = g s :=
  foldl_keeps (P := fun u => g u = g s) (fun u n hu => (flushCluster_keeps hk hc u f n).trans hu) ns rfl

theorem flushAll_other {m : Nat} (hm : m ∉ ns) : (s.flushAll f ns).cluster m = s.cluster m := by
  unfold flushAll
  induction ns generalizing s with
  | nil => rfl
  | cons n r ih =>
    rw [List.foldl_cons, ih _ fun h => hm (List.mem_cons_of_mem _ h), flushCluster_other _ _ fun h => hm (List.mem_cons.2 (.inl h))]

theorem flushAll_sameMemory : sameMemory s (s.flushAll f ns) :=
  ⟨flushAll_keeps s f ns (g := State.mem) (fun _ _ _ => rfl) (fun _ _ _ => rfl), flushAll_keeps s f ns (g := State.rmem) (fun _ _ _ => rfl) (fun _ _ _ => rfl),
    flushAll_keeps s f ns (g := State.lineMeta) (fun _ _ _ => rfl) (fun _ _ _ => rfl), flushAll_keeps s f ns (g := State.poison) (fun _ _ _ => rfl) (fun _ _ _ => rfl)⟩

end State

/-! TLBINV. -/

/-- What a TLBINV names (R251). -/
def tlbinvFlush (o : Ops) (c : Ctx) : Flush :=
  let x := (c.getG o.aNum).toNat
  if o.clsOr 0 % 4 = 0 then .pages c.trans.ctxid [(globalVa c.trans (x % 2 ^ 56), 1)] else if o.clsOr 0 % 4 = 1 then .all else .ctx (x % 2 ^ 16)

/-- The clusters of a TLBINV: its own, or all (R251). -/
def tlbinvClusters (o : Ops) (s : State) : List Nat := if bitOf (o.clsOr 0) 2 then List.range 48 else [s.coreNo / 32]

/-- The body of TLBINV. -/
def tlbinvBody (o : Ops) (s : State) : Eff :=
  let g := globalVa s.cx.trans ((s.cx.getG o.aNum).toNat % 2 ^ 56)
  let f := tlbinvFlush o s.cx
  if s.cx.super = false then .trap (privileged 0)
  else if o.clsOr 0 % 4 = 0 ∧ 2 ^ 56 ≤ g then .trap (protEntry 15 4 g)
  else if s.releaseReady s.coreNo (s.cur % 8) = false then .stall
  else if (tlbinvClusters o s).all (fun n => (List.range 32).all (fun i => s.flushed f (32 * n + i))) = false then .stall
  else .done (s.flushAll f (tlbinvClusters o s))

theorem execTlbinv_eq (o : Ops) (s : State) : exec (.tlbinv o) s = issue (.tlbinv o) o [rg o.aNum] (tlbinvBody o) s := by
  have hk : fld (o.clsOr 0) 0 2 = o.clsOr 0 % 4 := fld_low _ _
  show execTlbinv o s = _
  unfold execTlbinv tlbinvBody tlbinvFlush
  simp only [hk]
  simp only [fld_low]
  obtain h | h | h | h : o.clsOr 0 % 4 = 0 ∨ o.clsOr 0 % 4 = 1 ∨ o.clsOr 0 % 4 = 2 ∨ o.clsOr 0 % 4 = 3 := by omega
  all_goals
    simp only [h]
    rfl

section

variable {s : State} {o : Ops} (h : s.canIssue o [rg o.aNum])

include h

theorem tlbinv_privileged (hu : s.cx.super = false) : exec (.tlbinv o) s = .next (s.raise (privilegedTrap 0)) := by
  rw [execTlbinv_eq, issue_run h, tlbinvBody, if_pos hu]
  rfl

theorem tlbinv_past {g : Nat} (hu : s.cx.super = true) (hk : o.clsOr 0 % 4 = 0) (hg : globalVa s.cx.trans ((s.cx.getG o.aNum).toNat % 2 ^ 56) = g) (hl : 2 ^ 56 ≤ g) :
    exec (.tlbinv o) s = .next (s.raise (protEntry 15 4 g)) := by
  rw [execTlbinv_eq, issue_run h, tlbinvBody, if_neg (by simp [hu]), hg, if_pos ⟨hk, hl⟩]
  rfl

theorem tlbinv_flushes (hu : s.cx.super = true) (hg : o.clsOr 0 % 4 = 0 → globalVa s.cx.trans ((s.cx.getG o.aNum).toNat % 2 ^ 56) < 2 ^ 56)
    (hr : s.releaseReady s.coreNo (s.cur % 8) = true) (hf : ∀ m ∈ tlbinvClusters o s, ∀ i, i < 32 → s.flushed (tlbinvFlush o s.cx) (32 * m + i) = true) :
    exec (.tlbinv o) s = retired (.tlbinv o) (s.flushAll (tlbinvFlush o s.cx) (tlbinvClusters o s)) := by
  have hall : (tlbinvClusters o s).all (fun n => (List.range 32).all (fun i => s.flushed (tlbinvFlush o s.cx) (32 * n + i))) = true := by
    simpa using hf
  rw [execTlbinv_eq, issue_run h, tlbinvBody, if_neg (by simp [hu]), if_neg fun hp => absurd (hg hp.1) (Nat.not_lt.2 hp.2), if_neg (by simp [hr]), if_neg (by simp [hall])]
  rfl

end

/-! CINV and CWB. -/

theorem writtenBack_iff (s : State) (n : Nat) (hit : Nat → Bool) : s.writtenBack n hit = true ↔
    ∀ core, core / 32 = n → ∀ a ∈ (s.core core).flight, ∀ p ∈ a.pieces, a.kind.stores = true → p.done = false → ∀ key ∈ keysAt p.place p.pa p.n, 2 ^ 49 ≤ key → hit key = false := by
  have hlocal : ∀ key, homeKey key = true ∨ hit key = false ↔ (2 ^ 49 ≤ key → hit key = false) := fun key => by
    rw [homeKey, decide_eq_true_iff, ← Nat.not_le, or_iff_not_imp_left, not_not]
  have hcore : (∀ i, i < 32 → ∀ a ∈ (s.core (32 * n + i)).flight, a.kind.stores = false ∨ ∀ p ∈ a.pieces, p.done = true ∨ ∀ key ∈ keysAt p.place p.pa p.n, homeKey key = true ∨ hit key = false)
      ↔ ∀ core, core / 32 = n → ∀ a ∈ (s.core core).flight, a.kind.stores = false ∨ ∀ p ∈ a.pieces, p.done = true ∨ ∀ key ∈ keysAt p.place p.pa p.n, homeKey key = true ∨ hit key = false := by
    refine ⟨fun h core hc => ?_, fun h i hi => h _ (by omega)⟩
    have := h (core % 32) (by omega)
    rwa [show 32 * n + core % 32 = core by omega] at this
  unfold State.writtenBack
  simp only [List.all_eq_true, List.mem_range, Bool.or_eq_true, Bool.not_eq_true']
  rw [hcore]
  simp only [hlocal]
  refine forall_congr' fun core => forall_congr' fun _ => forall_congr' fun a => forall_congr' fun _ => ?_
  cases a.kind.stores
  · simp
  · simp [or_iff_not_imp_left]

section

variable {s : State} {o : Ops} (h : s.canIssue o [rg o.aNum, rg o.bNum])

include h

theorem cwb_run : exec (.cwb o) s = if s.writtenBack (s.coreNo / 32) (s.cacheHit o 1) then retired (.cwb o) s else .next { s with stall := true } := by
  show execCwb o s = _
  rw [execCwb, issue_run h]
  split <;> rfl

/-- The state once CINV has removed its lines (R252). -/
def State.invalidated (s : State) (o : Ops) : State :=
  let t := s.setCo { s.co with dcache := s.co.dcache.filter (fun e => !s.cacheHit o 0 e.1) }
  if bit0Of o 0 then t.setCluster (s.coreNo / 32) { t.cluster (s.coreNo / 32) with cache := (t.cluster (s.coreNo / 32)).cache.filter (fun e => !s.cacheHit o 0 e.1) } else t

theorem cinv_run : exec (.cinv o) s =
    if bit0Of o 0 = true ∧ s.writtenBack (s.coreNo / 32) (s.cacheHit o 0) = false then .next { s with stall := true } else retired (.cinv o) (s.invalidated o) := by
  show execCinv o s = _
  rw [execCinv, issue_run h]
  by_cases hw : bit0Of o 0 = true ∧ s.writtenBack (s.coreNo / 32) (s.cacheHit o 0) = false
  · simp only [if_pos hw]
    rfl
  · simp only [if_neg hw]
    rfl

end

namespace State

variable (s : State) (o : Ops)

theorem invalidated_ctxs : (s.invalidated o).ctxs = s.ctxs := by
  unfold invalidated
  dsimp only
  split <;> rfl

theorem invalidated_cur : (s.invalidated o).cur = s.cur := by
  unfold invalidated
  dsimp only
  split <;> rfl

theorem invalidated_sameMemory : sameMemory s (s.invalidated o) := by
  unfold invalidated
  dsimp only
  split <;> exact ⟨rfl, rfl, rfl, rfl⟩

theorem invalidated_dcache (e : Nat × BitVec 512) : e ∈ ((s.invalidated o).core s.coreNo).dcache ↔ e ∈ s.co.dcache ∧ s.cacheHit o 0 e.1 = false := by
  have hco : (s.invalidated o).core s.coreNo = { s.co with dcache := s.co.dcache.filter (fun e => !s.cacheHit o 0 e.1) } := by
    unfold invalidated
    dsimp only
    split <;> exact co_setCo s _
  rw [hco]
  simp

variable {s o}

theorem invalidated_clusters (hb : bit0Of o 0 = false) : (s.invalidated o).clusters = s.clusters := by
  unfold invalidated
  dsimp only
  rw [if_neg (by simp [hb])]
  rfl

theorem invalidated_cache (hb : bit0Of o 0 = true) (e : Nat × CLine) :
    e ∈ ((s.invalidated o).cluster (s.coreNo / 32)).cache ↔ e ∈ (s.cluster (s.coreNo / 32)).cache ∧ s.cacheHit o 0 e.1 = false := by
  unfold invalidated
  dsimp only
  rw [if_pos hb, cluster_setCluster_same]
  simp [cluster_congr (setCo_clusters s _)]

end State

/-! FWCALL. -/

section

variable {s : State} {o : Ops} (h : s.canIssue o [rg o.dNum, rg o.bNum])

include h

theorem fwcall_privileged (hn : 512 ≤ o.imm) (hu : s.cx.super = false) : exec (.fwcall o) s = .next (s.raise (privilegedTrap 0)) := by
  show execFwcall o s = _
  rw [execFwcall, issue_run h]
  simp only [if_pos (show 512 ≤ o.imm.toNat ∧ s.cx.super = false from ⟨by omega, hu⟩)]
  rfl

/-- The request that an FWCALL makes of Cethen (R250). -/
def State.fwRequest (s : State) (o : Ops) : FwReq :=
  { id := s.nextFw, core := s.coreNo, slot := s.cur % 8, svc := o.imm.toNat, arg := s.cx.getG o.bNum, dc := s.cx.dc, trans := s.cx.trans }

/-- An FWCALL that its mode permits, once its release is over: answered at once, or asked of Cethen. -/
theorem fwcall_run (hm : o.imm < 512 ∨ s.cx.super = true) (hr : s.releaseReady s.coreNo (s.cur % 8) = true) : exec (.fwcall o) s =
    if fwProvided o.imm.toNat = false then retired (.fwcall o) ((s.setCx (s.cx.setG o.dNum (BitVec.allOnes 64))).acquire s.coreNo 4)
    else waits (.fwcall o) (.fw s.nextFw) { s with fwq := s.fwq ++ [s.fwRequest o], nextFw := s.nextFw + 1 } := by
  have hmode : ¬(512 ≤ o.imm.toNat ∧ s.cx.super = false) := fun ⟨hn, hu⟩ => by
    obtain hm | hm := hm
    · omega
    · exact absurd (hu.symm.trans hm) Bool.false_ne_true
  have hstall : ¬(s.cx.wait ≠ .none ∨ s.releaseReady s.coreNo (s.cur % 8) = false) := by
    obtain ⟨⟨-, hw, -⟩, -⟩ := h
    simp [hw, hr]
  show execFwcall o s = _
  rw [execFwcall, issue_run h]
  simp only [if_neg hmode, if_neg hstall]
  split <;> rfl

end

/-- The services that Cethen provides (R373). -/
theorem fwProvided_iff {n : Int} (h : 0 ≤ n) : fwProvided n.toNat = true ↔ n ∈ [(0 : Int), 1, 2, 3, 512, 516, 517, 520, 530] := by
  simp only [fwProvided, List.contains_eq_mem, decide_eq_true_iff, List.mem_cons, List.not_mem_nil, or_false]
  omega

/-! The walker, and lines that leave. -/

/-- The page of a leaf holds the address walked (R344, R345). -/
theorem walkFrom_leaf {m : Mem} {bad : Nat → Bool} {va fuel lev t w0 w1 entry base size l : Nat} (h : walkFrom m bad va fuel lev t = .leaf w0 w1 entry base size l) :
    base ≤ va ∧ va < base + size := by
  induction fuel generalizing lev t with
  | zero => cases h
  | succ fuel ih =>
    unfold walkFrom at h
    dsimp only at h
    split at h
    · cases h
    split at h
    · cases h
    split at h
    · split at h
      · cases h
      · exact ih h
    split at h
    · cases h
    split at h
    · cases h
    split at h
    · cases h
    split at h
    · cases h
    cases h
    exact ⟨Nat.div_mul_le_self _ _, Nat.lt_div_mul_add (Nat.two_pow_pos _)⟩

/-- Enters a translation in a TLB of `n` entries, unless one holds the address; a full one loses its oldest (R345). -/
def tlbEnter (n va : Nat) (e : TlbEnt) (l : List TlbEnt) : List TlbEnt := if (tlbFind l e.ctxid va).isSome then l else l.drop (l.length + 1 - n) ++ [e]

theorem tlbFind_tlbEnter {n va : Nat} {e : TlbEnt} (h : e.va ≤ va ∧ va < e.va + e.size) (l : List TlbEnt) : (tlbFind (tlbEnter n va e l) e.ctxid va).isSome = true := by
  unfold tlbEnter
  split
  · assumption
  · simp [tlbFind, h.1, h.2]

theorem hardwareWalk_enters {s : State} {core dc w0 w1 entry base size lev : Nat} {va : Word} (hs : s.still = false) (hva : va.toNat < 2 ^ 56) (hr : s.resident = some dc)
    (hw : s.walk dc va.toNat = .leaf w0 w1 entry base size lev) :
    let e : TlbEnt := { ctxid := (s.recTrans dc).ctxid, va := base, size, w0, w1, entry }
    exec (.hardwareWalk core va) s = .next ((s.setCore core { s.core core with utlb := tlbEnter 32 va.toNat e (s.core core).utlb }).setCluster (core / 32)
      { s.cluster (core / 32) with tlb := tlbEnter 2048 va.toNat e (s.cluster (core / 32)).tlb }) := by
  intro e
  show execHardwareWalk core va s = _
  rw [execHardwareWalk, event_on (by simpa using hva) hs]
  simp only [hr, hw]
  rfl

/-- A line of a data cache leaves (R144). -/
theorem dcacheLineExpiry_run {s : State} (hs : s.still = false) (core line : Nat) :
    exec (.dcacheLineExpiry core line) s = .next (s.setCore core { s.core core with dcache := tdel (s.core core).dcache line }) := by
  show execDcacheLineExpiry core line s = _
  rw [execDcacheLineExpiry, event_on rfl hs]

/-- A line of a cluster cache leaves that is homed elsewhere (R282). -/
theorem clusterCacheLineExpiry_run {s : State} (hs : s.still = false) (n line : Nat) :
    exec (.clusterCacheLineExpiry n line) s = .next (s.setCluster n { s.cluster n with cache := (s.cluster n).cache.filter (fun e => e.1 != line || homeKey e.1) }) := by
  show execClusterCacheLineExpiry n line s = _
  rw [execClusterCacheLineExpiry, event_on rfl hs]

end Sys2Proof.Machine

open Sys2Proof Sys2Proof.Machine

/-- Settles O57, a clause from the lemma of each instruction and event. -/
theorem cachesTlbsAndFirmwareCalls : Obligations.CachesTlbsAndFirmwareCalls := by
  unfold Obligations.CachesTlbsAndFirmwareCalls
  refine ⟨fun o s => ⟨tlbinv_privileged, fun h hu hk hl => tlbinv_past h hu hk rfl hl, fun h hu hg => ?flush, fun h => ⟨fun hb => ?cinv, fun hb hw => ?stall, cwb_run h⟩,
    writtenBack_iff s _, fun h => ⟨fwcall_privileged h, fun h0 hm hr => ⟨fun hn => ?unprovided, fun hp => ?asked⟩⟩⟩, fun s hs => ⟨fun core va dc w0 w1 entry base size lev hva hr hw => ?walk,
    fun core line => ?dcache, fun n line => ?cluster⟩⟩
  case flush =>
    intro ns f hr hf
    obtain ⟨hreg, hctx⟩ := retired_contexts (s.flushAll_keeps f ns (g := State.ctxs) (fun _ _ _ => rfl) fun _ _ _ => rfl)
      (s.flushAll_keeps f ns (g := State.cur) (fun _ _ _ => rfl) fun _ _ _ => rfl) (.tlbinv o) (Instr.marker (.tlbinv o))
    refine ⟨_, tlbinv_flushes h hu hg hr hf, fun m hm => ⟨fun e => s.flushAll_tlb f ns m e hm, fun i hi e => s.flushAll_utlb f ns _ e ?_⟩, fun m hm => s.flushAll_other f ns hm,
      (s.flushAll_sameMemory f ns).trans (sameMemory_setCx _ _), hreg, hctx⟩
    rwa [show (32 * m + i) / 32 = m by omega]
  case cinv =>
    have hrun := (cinv_run h).trans (if_neg fun hw => by
      obtain hb | hb := hb
      · exact absurd (hb.symm.trans hw.1) Bool.false_ne_true
      · exact absurd (hw.2.symm.trans hb) Bool.false_ne_true)
    obtain ⟨hreg, hctx⟩ := retired_contexts (s.invalidated_ctxs o) (s.invalidated_cur o) (.cinv o) (Instr.marker (.cinv o))
    refine ⟨_, hrun, fun e => ?_, fun hb => ⟨State.invalidated_clusters hb, (s.invalidated_sameMemory o).trans (sameMemory_setCx _ _)⟩, fun hb e => State.invalidated_cache hb e, hreg, hctx⟩
    have hco : (s.invalidated o).coreNo = s.coreNo := by rw [State.coreNo, State.invalidated_cur, State.coreNo]
    rw [State.co_setCx, State.co, hco]
    exact s.invalidated_dcache o e
  case stall => exact (cinv_run h).trans (if_pos ⟨hb, hw⟩)
  case unprovided => exact (fwcall_run h hm hr).trans (if_pos (by simpa using mt (fwProvided_iff h0).1 hn))
  case asked =>
    obtain ⟨u, hu, hstate, hcx⟩ := waits_cx (s := s) (t := { s with fwq := s.fwq ++ [s.fwRequest o], nextFw := s.nextFw + 1 }) rfl rfl (.fwcall o) (.fw s.nextFw)
    refine ⟨u, s.fwRequest o, (fwcall_run h hm hr).trans ((if_neg (by simp [(fwProvided_iff h0).2 hp])).trans hu), ?_⟩
    rw [hcx, hstate]
    exact ⟨rfl, rfl, rfl, rfl, rfl, rfl, Int.toNat_of_nonneg h0, rfl, rfl, ⟨rfl, rfl, rfl, rfl⟩, sameRegisters_waiting _ _ _⟩
  case walk =>
    have hin := walkFrom_leaf hw
    refine ⟨_, hardwareWalk_enters hs hva hr hw, ?_, ?_, ⟨rfl, rfl, rfl, rfl⟩, rfl⟩
    · rw [State.core_setCluster, State.core_setCore_same]
      exact tlbFind_tlbEnter hin _
    · rw [State.cluster_setCluster_same]
      exact tlbFind_tlbEnter hin _
  case dcache =>
    refine ⟨_, dcacheLineExpiry_run hs core line, fun e => ?_, ⟨rfl, rfl, rfl, rfl⟩, rfl⟩
    rw [State.core_setCore_same]
    simp [tdel]
  case cluster =>
    refine ⟨_, clusterCacheLineExpiry_run hs n line, fun e => ?_, ⟨rfl, rfl, rfl, rfl⟩, rfl⟩
    rw [State.cluster_setCluster_same]
    simp [homeKey]
end

section
/-! SUPPORT. What the change of an event counter leaves, and the engine instructions (R222, R226 to R229). -/

set_option Elab.async false

namespace Sys2Proof.Machine

open Sys2Proof

/-! Entries of vectors. -/

theorem vget_set_same {α : Type} {n : Nat} (v : Vector α n) {i : Nat} (h : i < n) (x d : α) : vget (v.setIfInBounds i x) i d = x := by
  simp [vget, h]

theorem vget_set_other {α : Type} {n : Nat} (v : Vector α n) {i j : Nat} (h : j ≠ i) (x d : α) : vget (v.setIfInBounds i x) j d = vget v j d := by
  simp [vget, Vector.getElem?_setIfInBounds_ne (Ne.symm h)]

/-! The change of a counter. -/

/-- What no waiting condition is: a context that waits at no WAITC. -/
def Ctx.unasked (c : Ctx) : Prop := ∀ d ps, c.wait ≠ .waitc d ps

/-- What the evaluation of waiting conditions, and the records that leave a counter's wait list, change of the device: of a core, error flags that are raised and its
wait list; of the contexts, those at a WAITC (R132 to R134). -/
structure Evaluates (s t : State) : Prop where
  core : ∀ k, ∃ f w, t.core k = { s.core k with ecf := f, ecWait := w } ∧ ∀ n, vget (s.core k).ecf n .raised = .clear → vget f n .raised = .clear
  ctx : ∀ k, (s.ctx k).unasked → t.ctx k = s.ctx k
  cur : t.cur = s.cur

namespace Evaluates

variable {s t u : State}

theorem refl (s : State) : Evaluates s s := ⟨fun _ => ⟨_, _, rfl, fun _ h => h⟩, fun _ _ => rfl, rfl⟩

theorem trans (h : Evaluates s t) (g : Evaluates t u) : Evaluates s u := by
  refine ⟨fun k => ?_, fun k hk => (g.ctx k ?_).trans (h.ctx k hk), g.cur.trans h.cur⟩
  · obtain ⟨f, w, hc, hf⟩ := h.core k
    obtain ⟨f', w', hc', hf'⟩ := g.core k
    rw [hc] at hc' hf'
    exact ⟨f', w', hc', fun n hn => hf' n (hf n hn)⟩
  · rw [h.ctx k hk]
    exact hk

theorem foldl {α : Type} {f : State → α → State} (hf : ∀ u a, Evaluates u (f u a)) (l : List α) : Evaluates s (l.foldl f s) :=
  foldl_keeps (P := Evaluates s) (fun u a hu => hu.trans (hf u a)) l (.refl s)

/-- An operation that leaves the cores and the contexts alone. -/
theorem of_same (hk : t.cores = s.cores) (hc : t.ctxs = s.ctxs) (hcur : t.cur = s.cur) : Evaluates s t :=
  ⟨fun k => ⟨_, _, State.core_congr hk k, fun _ h => h⟩, fun k _ => State.ctx_congr hc k, hcur⟩

theorem setCore {k : Nat} {c : Core} {f : Vector EcFlag 16} {w : List (QEnt × List Nat)} (hc : c = { s.core k with ecf := f, ecWait := w })
    (hf : ∀ n, vget (s.core k).ecf n .raised = .clear → vget f n .raised = .clear) : Evaluates s (s.setCore k c) := by
  refine ⟨fun j => ?_, fun _ _ => rfl, rfl⟩
  rw [State.core_setCore]
  split
  · subst_vars
    exact ⟨f, w, rfl, hf⟩
  · exact ⟨_, _, rfl, fun _ h => h⟩

/-- A raised flag moves to reported; a clear one stays (R133). -/
theorem waitcEval_core (c : Core) (all : Bool) (ws : List Nat) (ps : List Probe) :
    ∃ f, (waitcEval c all ws ps).2 = { c with ecf := f } ∧ ∀ n, vget c.ecf n .raised = .clear → vget f n .raised = .clear := by
  have hfold : ∀ (l : List Nat) (v : Vector EcFlag 16) (n : Nat), (∀ m ∈ l, vget c.ecf m .clear = .raised) → vget c.ecf n .raised = .clear → vget v n .raised = .clear →
      vget (l.foldl (fun v n => v.setIfInBounds n .reported) v) n .raised = .clear := by
    intro l
    induction l with
    | nil => exact fun v n _ _ hv => hv
    | cons m r ih =>
      refine fun v n hl hc hv => ih _ n (fun j hj => hl j (List.mem_cons_of_mem _ hj)) hc ?_
      have hne : n ≠ m := by
        rintro rfl
        have hm := hl n List.mem_cons_self
        unfold vget at hm hc
        cases h : c.ecf[n]? <;> simp_all
      rw [vget_set_other _ hne, hv]
  unfold waitcEval
  dsimp only
  split
  · exact ⟨_, rfl, fun n hn => hfold _ _ n (fun m hm => by simpa using (List.mem_filter.1 hm).2) hn hn⟩
  · split <;> exact ⟨_, rfl, fun _ h => h⟩

theorem reevaluate (s : State) (k : Nat) : Evaluates s (s.reevaluate k) := by
  unfold State.reevaluate
  dsimp only
  split
  · rename_i deadline ps o hwait hheld
    split
    · exact .refl s
    · split
      · exact .refl s
      · obtain ⟨f, hf, hclear⟩ := waitcEval_core (s.core (k / 8)) (waitcAll o) (condWords o (s.ctx k)) ps
        refine (setCore (k := k / 8) (c := (waitcEval (s.core (k / 8)) (waitcAll o) (condWords o (s.ctx k)) ps).2) (f := f) (w := (s.core (k / 8)).ecWait) hf hclear).trans ?_
        unfold State.completeHeld
        dsimp only
        split
        · exact .refl _
        · refine ⟨fun j => ⟨_, _, rfl, fun _ h => h⟩, fun j hj => ?_, rfl⟩
          refine State.ctx_setCtx_other _ (fun hjk => ?_) _
          subst hjk
          exact hj _ _ hwait
  · exact .refl s

theorem poke (s : State) (core : Nat) : Evaluates s (s.poke core) := foldl reevaluate _

theorem enqueue (s : State) (cl lvl : Nat) (e : QEnt) : Evaluates s (s.enqueue cl lvl e) := by
  obtain ⟨m, lm, p, d, c, q, h⟩ := s.writeLink_eq (32 * cl) e
  refine of_same ?_ ?_ ?_ <;> (unfold State.enqueue; rw [h]; rfl)

theorem counterChanged (s : State) (core n : Nat) : Evaluates s (s.counterChanged core n) := by
  unfold State.counterChanged
  dsimp only
  exact ((setCore rfl fun _ h => h).trans (foldl (fun u e => enqueue u _ _ _) _)).trans (poke _ _)

end Evaluates

/-- The state once a counter's value is written, before what waits for it is evaluated. -/
def State.counterSet (s : State) (core n : Nat) (v : BitVec 32) : State := s.setCore core { s.core core with ec := (s.core core).ec.setIfInBounds n v }

theorem setCounter_evaluates (s : State) (core n : Nat) (v : BitVec 32) : Evaluates (s.counterSet core n v) (s.setCounter core n v) := Evaluates.counterChanged _ _ _

/-- The core after a write of one of its counters. -/
theorem setCounter_core (s : State) (core n : Nat) (v : BitVec 32) :
    ∃ f w, (s.setCounter core n v).core core = { s.core core with ec := (s.core core).ec.setIfInBounds n v, ecf := f, ecWait := w }
      ∧ ∀ n, vget (s.core core).ecf n .raised = .clear → vget f n .raised = .clear := by
  obtain ⟨f, w, hc, hf⟩ := (setCounter_evaluates s core n v).core core
  rw [State.counterSet, State.core_setCore_same] at hc hf
  exact ⟨f, w, hc, hf⟩

theorem setCounter_cx {s : State} {core n : Nat} {v : BitVec 32} (h : s.cx.unasked) : (s.setCounter core n v).cx = s.cx ∧ (s.setCounter core n v).cur = s.cur := by
  have he := setCounter_evaluates s core n v
  have hcur : (s.setCounter core n v).cur = s.cur := he.cur
  refine ⟨?_, hcur⟩
  rw [State.cx, hcur]
  exact he.ctx s.cur h

theorem Ctx.unasked_of_none {c : Ctx} (h : c.wait = .none) : c.unasked := fun _ _ hw => nomatch h.symm.trans hw

/-! Engines. -/

namespace Core

variable (c : Core) (index : Bool) (e : Engine)

@[simp] theorem engine_setEngine : (c.setEngine index e).engine index = e := by cases index <;> rfl
@[simp] theorem lmem_setEngine : (c.setEngine index e).lmem = c.lmem := by cases index <;> rfl
@[simp] theorem ec_setEngine : (c.setEngine index e).ec = c.ec := by cases index <;> rfl

/-- What a core holds beside its engines, its scoreboard and the numbers it gives. -/
def besideEngines (c : Core) : Mem × Vector (BitVec 32) 16 := (c.lmem, c.ec)

/-- A command that a thread has issued, with its number. -/
def numbered (x : Cmd) : Cmd := { x with id := c.nextId }

theorem queueCmd_engine (x : Cmd) : ((c.queueCmd index x).engine index).queue = (c.engine index).queue ++ [.cmd (c.numbered x)] := by
  unfold queueCmd
  dsimp only
  split <;> cases index <;> rfl

theorem queueCmd_beside (x : Cmd) : (c.queueCmd index x).besideEngines = c.besideEngines := by
  unfold queueCmd
  dsimp only
  split <;> cases index <;> rfl

/-- A command has its scoreboard entry as soon as it is queued (R21). -/
theorem queueCmd_scores {x : Cmd} {b lo hi : Nat} (h : (c.numbered x).range index = some (b, lo, hi)) :
    { eng := index, cmd := (c.numbered x).id, buf := b, lo, hi } ∈ (c.queueCmd index x).scores := by
  unfold queueCmd
  dsimp only
  change Cmd.range { x with id := c.nextId } index = some (b, lo, hi) at h
  rw [h]
  simp [numbered]

end Core

/-! XCOPY, XCOPYM, IWALK and IGATH. -/

/-- The command of an engine instruction with code `code`, from the descriptor at `a`: one of another code stands as malformed (R222). -/
def State.engineCmd (s : State) (code a : Nat) : Cmd :=
  let c : Cmd := { id := 0, w := s.co.descriptor a, addr := a, trans := s.cx.trans, uid := s.cx.uid }
  if c.code = code then c else { c with w := [BitVec.ofNat 64 (setFld (c.word 0) 60 4 15)] ++ (s.co.descriptor a).drop 1 }

theorem mread_lt (m : Mem) (a n : Nat) : mread m a n < 256 ^ n := by
  induction n generalizing a with
  | zero => exact Nat.one_pos
  | succ n ih =>
    have hb := (mget m a).isLt
    have hr := ih (a + 1)
    rw [mread, Nat.pow_succ]
    omega

/-- The code of a descriptor in L-memory. -/
theorem code_descriptor (s : State) (a : Nat) (c : Cmd) (h : c.w = s.co.descriptor a) : c.code = fld (mread s.co.lmem a 8) 60 4 := by
  have hw : c.word 0 = mread s.co.lmem a 8 := by
    have hlt := mread_lt s.co.lmem a 8
    rw [Cmd.word, h, Core.descriptor]
    simp only [List.range_succ_eq_map, List.map_cons, List.getElem?_cons_zero, Option.getD_some, Nat.mul_zero, Nat.add_zero, BitVec.toNat_ofNat]
    omega
  rw [Cmd.code, Cmd.f0, hw]

/-- A descriptor whose code is not the instruction's is malformed (R222). -/
theorem malformed_of_code {c : Cmd} (index : Bool) (h : c.code = 15) : c.malformed index = true := by
  simp [Cmd.malformed, h]

theorem engineCmd_spec (s : State) (code a : Nat) :
    (s.engineCmd code a).addr = a ∧ (s.engineCmd code a).trans = s.cx.trans ∧ (s.engineCmd code a).uid = s.cx.uid ∧ (s.engineCmd code a).index = 0xFFFF
      ∧ (fld (mread s.co.lmem a 8) 60 4 = code → (s.engineCmd code a).w = s.co.descriptor a)
      ∧ (fld (mread s.co.lmem a 8) 60 4 ≠ code → (s.engineCmd code a).code = 15) := by
  unfold State.engineCmd
  dsimp only
  rw [code_descriptor s a _ rfl]
  split
  · rename_i h
    exact ⟨rfl, rfl, rfl, rfl, fun _ => rfl, fun hn => absurd h hn⟩
  · rename_i h
    refine ⟨rfl, rfl, rfl, rfl, fun he => absurd he h, fun _ => ?_⟩
    have hset : ∀ x : Nat, fld (setFld x 60 4 15 % 2 ^ 64) 60 4 = 15 := fun x => by
      rw [setFld_eq, fld]
      omega
    exact (congrArg (fld · 60 4) (BitVec.toNat_ofNat _ _)).trans (hset _)

section

variable {i : Instr} {o : Ops} {s : State} {index : Bool} {code a : Nat} (ha : (s.cx.getG o.aNum).toNat = a) (h : s.canIssue o [rg o.aNum])

include ha h

theorem engineOp_align (hm : a % 64 ≠ 0) : engineOp i o index code s = .next (s.raise (trapAt 3 a (info 15 9 0))) := by
  rw [engineOp, issue_run h]
  simp only [ha, if_pos hm]
  rfl

/-- An engine instruction whose descriptor lies in L-memory queues its command, or cannot issue yet. -/
theorem engineOp_run (hm : a % 64 = 0) (hl : a + 64 ≤ 0x18000) : engineOp i o index code s =
    if s.co.busy 2 a (a + 64) = true ∨ 16 ≤ (s.co.engine index).waiting ∨ (((s.engineCmd code a).range index).isSome = true ∧ 16 ≤ s.co.scores.length)
    then .next { s with stall := true } else finishWith i o s (.done (s.setCo (s.co.queueCmd index (s.engineCmd code a)))) := by
  rw [engineOp, issue_run h]
  simp only [ha, if_neg (not_not.2 hm), if_neg (Nat.not_lt.2 hl)]
  rw [apply_ite (finishWith i o s)]
  rfl

end

/-- The instructions of the engine table are `engineOp` with their engine and code. -/
theorem exec_engineTable {mk : Ops → Instr} {index : Bool} {code : Nat} (h : (mk, index, code) ∈ engineTable) (o : Ops) (s : State) : exec (mk o) s = engineOp (mk o) o index code s := by
  simp only [engineTable, List.mem_cons, List.not_mem_nil, or_false, Prod.mk.injEq] at h
  obtain ⟨rfl, rfl, rfl⟩ | ⟨rfl, rfl, rfl⟩ | ⟨rfl, rfl, rfl⟩ | ⟨rfl, rfl, rfl⟩ := h <;> rfl

/-! EGO, EGO.resume and ERDV. -/

section

variable {o : Ops} {s : State}

theorem ego_align {a : Nat} (ha : (s.cx.getG o.aNum).toNat = a) (h : s.canIssue o [rg o.aNum]) (hm : a % 64 ≠ 0) : exec (.ego o) s = .next (s.raise (trapAt 3 a (info 15 9 0))) := by
  show execEgo o s = _
  rw [execEgo, issue_run h]
  simp only [ha, if_pos hm]
  rfl

/-- EGO with room in its engine's queue (R227). -/
theorem ego_run {a : Nat} (ha : (s.cx.getG o.aNum).toNat = a) (h : s.canIssue o [rg o.aNum]) (hm : a % 64 = 0) (hw : (s.co.engine (bit0Of o 0)).waiting < 16) :
    exec (.ego o) s = retired (.ego o) (s.setCo (s.co.queueProg (bit0Of o 0) a (if bitOf (o.clsOr 0) 2 then some o.dNum else none) s.cx.trans s.cx.uid)) := by
  show execEgo o s = _
  rw [execEgo, issue_run h]
  simp only [ha, if_neg (not_not.2 hm), if_neg (Nat.not_le.2 hw)]
  rfl

theorem egoResume_none (h : s.canIssue o []) (hf : (s.co.engine (bit0Of o 0)).fault = none) : exec (.egoResume o) s = retired (.egoResume o) s := by
  show execEgoResume o s = _
  rw [execEgoResume, issue_run h]
  simp only [hf]
  rfl

/-- The core once EGO.resume has put the faulting command back (R227). -/
def Core.resumed (c : Core) (index : Bool) (f : EFault) : Core :=
  let d := c.setEngine index { c.engine index with fault := none, queue := .cmd f.cmd.again :: (c.engine index).queue }
  match f.ec with
  | some n => { d with ecf := d.ecf.setIfInBounds n .clear }
  | none => d

theorem egoResume_some {f : EFault} (h : s.canIssue o []) (hf : (s.co.engine (bit0Of o 0)).fault = some f) :
    exec (.egoResume o) s = retired (.egoResume o) (s.setCo (s.co.resumed (bit0Of o 0) f)) := by
  show execEgoResume o s = _
  rw [execEgoResume, issue_run h]
  simp only [hf]
  rfl

theorem Core.resumed_engine (c : Core) (index : Bool) (f : EFault) :
    (c.resumed index f).engine index = { c.engine index with fault := none, queue := .cmd f.cmd.again :: (c.engine index).queue } := by
  unfold resumed
  dsimp only
  split <;> cases index <;> rfl

theorem Core.resumed_ecf (c : Core) (index : Bool) (f : EFault) {n : Nat} (hn : n < 16) (hf : f.ec = some n) : vget (c.resumed index f).ecf n .raised = .clear := by
  unfold resumed
  simp only [hf]
  exact vget_set_same _ hn _ _

theorem erdv_quiet (h : s.canIssue o []) (hk : s.atCheckpoint = true) (hf : (s.co.engine (bit0Of o 0)).fault = none) (hq : (s.co.engine (bit0Of o 0)).quiet = true) :
    exec (.erdv o) s = retired (.erdv o) s := by
  show execErdv o s = _
  rw [execErdv, issue_run h]
  simp only [hk, hf, hq, and_false, if_false, if_true, Bool.true_eq_false]
  rfl

theorem erdv_fault {f : EFault} (h : s.canIssue o []) (hk : s.atCheckpoint = true) (hf : (s.co.engine (bit0Of o 0)).fault = some f) :
    exec (.erdv o) s = .next (s.raise (f.trap (bit0Of o 0))) := by
  show execErdv o s = _
  rw [execErdv, issue_run h]
  simp only [hk, hf, and_false, if_false, Bool.true_eq_false]
  rfl

/-! ECSET and ECADD. -/

/-- The current core with the error flag that ECSET clears under its class bit (R229). -/
def State.flagCleared (s : State) (o : Ops) : State := if bit0Of o 0 then s.setCo { s.co with ecf := s.co.ecf.setIfInBounds o.dNum .clear } else s

theorem ecset_run (h : s.canIssue o (valueRegs o)) : exec (.ecset o) s =
    retired (.ecset o) ((s.flagCleared o).setCounter (s.flagCleared o).coreNo o.dNum (BitVec.ofNat 32 (valueOf o (s.flagCleared o).cx).toNat)) := by
  show execEcset o s = _
  rw [execEcset, show immOrGRegs o = valueRegs o from rfl, issue_run h]
  rfl

theorem ecadd_run (h : s.canIssue o (valueRegs o)) : exec (.ecadd o) s = retired (.ecadd o) (s.addCounter s.coreNo o.dNum (BitVec.ofNat 32 (valueOf o s.cx).toNat)) := by
  show execEcadd o s = _
  rw [execEcadd, show immOrGRegs o = valueRegs o from rfl, issue_run h]
  rfl

end

/-- What a write of a counter of the current core leaves, once its instruction has completed. -/
theorem setCounter_retired {s : State} (hw : s.cx.wait = .none) {n : Nat} (hn : n < 16) (v : BitVec 32) (i : Instr) :
    ∃ t, retired i (s.setCounter s.coreNo n v) = .next t ∧ vget t.co.ec n 0 = v ∧ (∀ m, m ≠ n → vget t.co.ec m 0 = vget s.co.ec m 0)
      ∧ (∀ m, vget s.co.ecf m .raised = .clear → vget t.co.ecf m .raised = .clear) ∧ sameRegisters s.cx t.cx [] := by
  obtain ⟨hcx, hcur⟩ := setCounter_cx (core := s.coreNo) (n := n) (v := v) (Ctx.unasked_of_none hw)
  obtain ⟨f, w, hc, hf⟩ := setCounter_core s s.coreNo n v
  have hco : (s.setCounter s.coreNo n v).co = { s.co with ec := s.co.ec.setIfInBounds n v, ecf := f, ecWait := w } := by
    have hno : (s.setCounter s.coreNo n v).coreNo = s.coreNo := congrArg (· / 8) hcur
    rw [State.co, hno]
    exact hc
  refine ⟨_, rfl, ?_⟩
  rw [State.co_setCx, State.cx_setCx, hcx, hco]
  exact ⟨vget_set_same _ hn _ _, fun m hm => vget_set_other _ hm _ _, hf, sameRegisters_retire _ _ _⟩

end Sys2Proof.Machine

open Sys2Proof Sys2Proof.Machine

/-- Settles O50, a clause from the lemma of each instruction. -/
theorem engineInstructions : Obligations.EngineInstructions := by
  unfold Obligations.EngineInstructions
  intro o s a
  refine ⟨fun mk index code hmk h hm hl hb hq hsc => ?queue, fun mk index code hmk h hm hl hb => ?busy, fun h hm mk hmk => ?align, fun h hm hw => ?ego, egoResume_none, fun h f hf => ?resume,
    erdv_quiet, fun h hk f hf => erdv_fault h hk hf, fun h hn => ⟨?set, ?add⟩⟩
  case queue =>
    obtain ⟨haddr, htr, huid, hindex, hwhole, hother⟩ := engineCmd_spec s code a
    have hrun := (exec_engineTable hmk o s).trans ((engineOp_run rfl h hm hl).trans (if_neg (by
      rintro (hb' | hq' | ⟨-, hsc'⟩)
      · exact absurd (hb.symm.trans hb') Bool.false_ne_true
      · omega
      · omega)))
    obtain ⟨hreg, hctx⟩ := retired_contexts (s := s) (t := s.setCo (s.co.queueCmd index (s.engineCmd code a))) rfl rfl (mk o) o.s
    have hbeside := s.co.queueCmd_beside index (s.engineCmd code a)
    refine ⟨_, s.co.numbered (s.engineCmd code a), hrun, ?_, haddr, htr, huid, hindex, hwhole, fun hne => malformed_of_code index (hother hne), fun b lo hi hr => ?_, ⟨rfl, rfl, rfl, rfl⟩, hctx, hreg, ?_, ?_⟩
    · rw [State.co_setCx, State.co_setCo]
      exact s.co.queueCmd_engine index _
    · rw [State.co_setCx, State.co_setCo]
      exact s.co.queueCmd_scores index hr
    · rw [State.co_setCx, State.co_setCo]
      exact congrArg Prod.fst hbeside
    · rw [State.co_setCx, State.co_setCo]
      exact congrArg Prod.snd hbeside
  case busy => exact (exec_engineTable hmk o s).trans ((engineOp_run rfl h hm hl).trans (if_pos (.inl hb)))
  case align =>
    simp only [List.mem_cons, List.not_mem_nil, or_false] at hmk
    obtain rfl | rfl | rfl | rfl | rfl := hmk
    · exact engineOp_align rfl h hm
    · exact engineOp_align rfl h hm
    · exact engineOp_align rfl h hm
    · exact engineOp_align rfl h hm
    · exact ego_align rfl h hm
  case ego =>
    refine ⟨_, ego_run rfl h hm hw, ?_, ⟨rfl, rfl, rfl, rfl⟩, ?_⟩
    · rw [State.co_setCx, State.co_setCo, Core.queueProg, Core.engine_setEngine]
    · rw [State.co_setCx, State.co_setCo, Core.queueProg, Core.ec_setEngine]
  case resume =>
    refine ⟨_, f.cmd.again, egoResume_some h hf, ?_⟩
    rw [State.co_setCx, State.co_setCo, Core.resumed_engine]
    exact ⟨rfl, rfl, rfl, rfl, fun n hn he => Core.resumed_ecf _ _ _ hn he⟩
  case set =>
    have hfl : (s.flagCleared o).cx = s.cx ∧ (s.flagCleared o).co.ec = s.co.ec ∧ (bit0Of o 0 = true → vget (s.flagCleared o).co.ecf o.dNum .raised = .clear) := by
      unfold State.flagCleared
      split
      · rw [State.co_setCo]
        exact ⟨rfl, rfl, fun _ => vget_set_same _ hn _ _⟩
      · rename_i hb
        exact ⟨rfl, rfl, fun hb' => absurd hb' hb⟩
    obtain ⟨hcx, hec, hecf⟩ := hfl
    obtain ⟨t, ht, hv, ho, hf, hr⟩ := setCounter_retired (s := s.flagCleared o) (hcx ▸ h.1.2.1) hn (BitVec.ofNat 32 (valueOf o (s.flagCleared o).cx).toNat) (.ecset o)
    rw [hcx] at hv hr
    exact ⟨t, (ecset_run h).trans ht, hv, fun n hne => hec ▸ ho n hne, fun hb => hf _ (hecf hb), hr⟩
  case add =>
    obtain ⟨t, ht, hv, ho, -, hr⟩ := setCounter_retired (s := s) h.1.2.1 hn (vget s.co.ec o.dNum 0 + BitVec.ofNat 32 (valueOf o s.cx).toNat) (.ecadd o)
    exact ⟨t, (ecadd_run h).trans ht, hv, ho, hr⟩
end

section
/-! SUPPORT. What writes of memory leave alone, reads of bytes that no record map touches, and the parts that a check translates (R139, R144, R324). -/

set_option Elab.async false

namespace Sys2Proof.Machine

open Sys2Proof

/-! Writes of memory. -/

/-- An entry of a table whose entries a function maps, when it maps what an unlisted key gives to itself. -/
theorem tget_map_default {α : Type} {f : α → α} {d : α} (h : f d = d) (t : Tbl α) (k : Nat) : tget (t.map (fun e => (e.1, f e.2))) k d = f (tget t k d) := by
  induction t with
  | nil => exact h.symm
  | cons e r ih =>
    obtain ⟨j, x⟩ := e
    rw [List.map_cons, tget, tget, ih]
    split <;> rfl

theorem State.cluster_setCluster (s : State) (k j : Nat) (c : Cluster) : (s.setCluster k c).cluster j = if j = k then c else s.cluster j := tget_tset _ _ _ _ _

/-- Two states have the same clusters but for the copies in their caches. -/
def State.copies (s t : State) : Prop := ∀ k, ∃ cc, t.cluster k = { s.cluster k with cache := cc }

namespace State.copies

variable {s t u : State}

theorem of_same (h : t.clusters = s.clusters) : s.copies t := fun k => ⟨(s.cluster k).cache, State.cluster_congr h k⟩

theorem trans (h : s.copies t) (g : t.copies u) : s.copies u := fun k => by
  obtain ⟨cc, hc⟩ := h k
  obtain ⟨cc', hc'⟩ := g k
  exact ⟨cc', hc'.trans (by rw [hc])⟩

theorem setCluster (s : State) (k : Nat) {c : Cluster} (hc : ∃ cc, c = { s.cluster k with cache := cc }) : s.copies (s.setCluster k c) := fun j => by
  rw [State.cluster_setCluster]
  split
  · subst_vars
    exact hc
  · exact ⟨_, rfl⟩

theorem uncache (s : State) (a : Nat) : s.copies (s.uncache a) := by
  unfold State.uncache
  split
  · intro k
    refine ⟨tdel (s.cluster k).cache (a / 64), ?_⟩
    unfold State.cluster
    exact tget_map_default (f := fun c : Cluster => { c with cache := tdel c.cache (a / 64) }) rfl s.clusters k
  · exact of_same rfl

theorem pierWrite (s : State) (pa n v : Nat) : s.copies (s.pierWrite pa n v) := by
  have hline : ∀ (m : Mem) (t : State) a, s.copies t → s.copies ((t.digestLine m a).uncache a) := fun m t a ht => by
    obtain ⟨lm, d, hd⟩ := t.digestLine_eq m a
    exact (ht.trans (of_same (by rw [hd]))).trans (uncache _ a)
  have hpoison : s.copies (if n = 64 ∧ pa % 64 = 0 then { s with poison := s.poison.filter (· != pa / 64) } else s) := by
    split <;> exact of_same rfl
  exact foldl_keeps (P := s.copies) (hline (mwrite s.mem pa n v)) (linesAt pa n) hpoison

theorem lateWrite (s : State) (pa n v : Nat) : s.copies (s.lateWrite pa n v) := by
  unfold State.lateWrite
  split
  · exact of_same rfl
  · exact pierWrite s pa n v

theorem writeLink (s : State) (core : Nat) (e : QEnt) : s.copies (s.writeLink core e) := by
  unfold State.writeLink
  split
  · split
    · exact lateWrite s _ _ _
    · exact of_same rfl
  · exact of_same rfl

end State.copies

/-- What writes of memory may change of the device beside memory: marks, digests, copies in caches, and the writes that wait at a pier. -/
structure Wrote (s t : State) : Prop where
  frame : ∃ m r lm p d cl cs q, t = { s with mem := m, rmem := r, lineMeta := lm, poison := p, digests := d, clusters := cl, cores := cs, late := q }
  core : ∀ k, ∃ dc, t.core k = { s.core k with dcache := dc }
  cluster : s.copies t

namespace Wrote

variable {s t u : State}

theorem refl (s : State) : Wrote s s := ⟨⟨_, _, _, _, _, _, _, _, rfl⟩, fun _ => ⟨_, rfl⟩, .of_same rfl⟩

theorem trans (h : Wrote s t) (g : Wrote t u) : Wrote s u := by
  refine ⟨?_, fun k => ?_, h.cluster.trans g.cluster⟩
  · obtain ⟨m, r, lm, p, d, cl, cs, q, rfl⟩ := h.frame
    obtain ⟨m', r', lm', p', d', cl', cs', q', rfl⟩ := g.frame
    exact ⟨m', r', lm', p', d', cl', cs', q', rfl⟩
  · obtain ⟨dc, hc⟩ := h.core k
    obtain ⟨dc', hc'⟩ := g.core k
    exact ⟨dc', hc'.trans (by rw [hc])⟩

/-- What is none of those fields stays. -/
theorem keeps (h : Wrote s t) {α : Type} (f : State → α)
    (hf : ∀ m r lm p d cl cs q, f { s with mem := m, rmem := r, lineMeta := lm, poison := p, digests := d, clusters := cl, cores := cs, late := q } = f s) : f t = f s := by
  obtain ⟨m, r, lm, p, d, cl, cs, q, rfl⟩ := h.frame
  exact hf m r lm p d cl cs q

theorem ctxs (h : Wrote s t) : t.ctxs = s.ctxs := h.keeps State.ctxs fun _ _ _ _ _ _ _ _ => rfl
theorem cur (h : Wrote s t) : t.cur = s.cur := h.keeps State.cur fun _ _ _ _ _ _ _ _ => rfl
theorem devctxs (h : Wrote s t) : t.devctxs = s.devctxs := h.keeps State.devctxs fun _ _ _ _ _ _ _ _ => rfl
theorem regs (h : Wrote s t) : t.regs = s.regs := h.keeps State.regs fun _ _ _ _ _ _ _ _ => rfl
theorem tick (h : Wrote s t) : t.tick = s.tick := h.keeps State.tick fun _ _ _ _ _ _ _ _ => rfl
theorem cx (h : Wrote s t) : t.cx = s.cx := by rw [State.cx, State.cx, h.cur, State.ctx_congr h.ctxs]
theorem coreNo (h : Wrote s t) : t.coreNo = s.coreNo := by rw [State.coreNo, State.coreNo, h.cur]

/-- The deque of a core, and the results on their way to it, stay. -/
theorem deque (h : Wrote s t) (k : Nat) : (t.core k).deque = (s.core k).deque := by
  obtain ⟨dc, hc⟩ := h.core k
  rw [hc]

/-- The entries of a level of a cluster queue stay. -/
theorem queues (h : Wrote s t) (k : Nat) : (t.cluster k).queues = (s.cluster k).queues := by
  obtain ⟨cc, hc⟩ := h.cluster k
  rw [hc]

theorem of_cores (h : ∃ m r lm p d cl q, t = { s with mem := m, rmem := r, lineMeta := lm, poison := p, digests := d, clusters := cl, late := q }) (hc : s.copies t) : Wrote s t := by
  obtain ⟨m, r, lm, p, d, cl, q, rfl⟩ := h
  exact ⟨⟨_, _, _, _, _, _, _, _, rfl⟩, fun _ => ⟨_, rfl⟩, hc⟩

theorem foldl {α : Type} {f : State → α → State} (hf : ∀ u a, Wrote u (f u a)) (l : List α) (h : Wrote s t) : Wrote s (l.foldl f t) :=
  foldl_keeps (P := Wrote s) (fun u a hu => hu.trans (hf u a)) l h

theorem pierWrite (s : State) (pa n v : Nat) : Wrote s (s.pierWrite pa n v) := by
  obtain ⟨lm, p, d, cl, h⟩ := s.pierWrite_eq pa n v
  exact of_cores ⟨_, _, lm, p, d, cl, _, h⟩ (.pierWrite s pa n v)

theorem writePlace (s : State) (p : Place) (pa n v : Nat) : Wrote s (s.writePlace p pa n v) := by
  cases p with
  | here => exact pierWrite s pa n v
  | host => exact of_cores ⟨_, _, _, _, _, _, _, rfl⟩ (.of_same rfl)
  | remote d => exact of_cores ⟨_, _, _, _, _, _, _, rfl⟩ (.of_same rfl)
  | window => exact refl s
  | absent => exact refl s

theorem storeHome (s : State) (p : Place) (pa n v : Nat) : Wrote s (s.storeHome p pa n v) := by
  unfold State.storeHome
  extract_lets rs kept
  split
  · refine foldl (fun u i => ?_) _ (refl s)
    split
    · exact refl u
    · exact writePlace u _ _ _ _
  · exact writePlace s _ _ _ _

theorem writeLink (s : State) (core : Nat) (e : QEnt) : Wrote s (s.writeLink core e) := by
  obtain ⟨m, lm, p, d, cl, q, h⟩ := s.writeLink_eq core e
  exact of_cores ⟨m, _, lm, p, d, cl, q, h⟩ (.writeLink s core e)

/-- A change of the copies in a core's data cache. -/
theorem setDcache (s : State) (k : Nat) {c : Core} (hc : ∃ dc, c = { s.core k with dcache := dc }) : Wrote s (s.setCore k c) := by
  refine ⟨⟨_, _, _, _, _, _, _, _, rfl⟩, fun j => ?_, .of_same rfl⟩
  rw [State.core_setCore]
  split
  · subst_vars
    exact hc
  · exact ⟨_, rfl⟩

theorem setCluster (s : State) (k : Nat) {c : Cluster} (hc : ∃ cc, c = { s.cluster k with cache := cc }) : Wrote s (s.setCluster k c) := of_cores ⟨_, _, _, _, _, _, _, rfl⟩ (.setCluster s k hc)

theorem afterStore (s : State) (core : Nat) (keep : Bool) (p : Place) (pa n : Nat) : Wrote s (s.afterStore core keep p pa n) := by
  have hforget : Wrote s (s.forget core p pa n) := (setDcache s core ⟨_, rfl⟩).trans (setCluster _ _ ⟨_, rfl⟩)
  unfold State.afterStore
  dsimp only
  split
  · refine foldl (fun u a => ?_) _ hforget
    split
    · exact setDcache u core ⟨_, rfl⟩
    · exact refl u
  · exact hforget

theorem stored (s : State) (p : Phys) (v : Nat) : Wrote s (s.stored p v) := (storeHome s _ _ _ _).trans (afterStore _ _ _ _ _ _)

theorem addWord (s : State) (p : Phys) (x : Word) : Wrote s (s.addWord p x) := by
  unfold State.addWord
  exact (storeHome s _ _ _ _).trans (afterStore _ _ _ _ _ _)

end Wrote

namespace State

variable (s : State)

/-- What a store does to the caches leaves memory alone. -/
theorem afterStore_mem (core : Nat) (keep : Bool) (p : Place) (pa n : Nat) : (s.afterStore core keep p pa n).mem = s.mem := by
  unfold afterStore
  dsimp only
  split
  · refine foldl_keeps (P := fun u => State.mem u = s.mem) (fun u a hu => ?_) _ rfl
    split
    · exact hu
    · exact hu
  · rfl

variable {s}

/-- A store to bytes that no record map keeps writes them all. -/
theorem storeHome_plain {pa n : Nat} (h : s.plain pa n) (v : Nat) : s.storeHome .here pa n v = s.pierWrite pa n v := by
  have hkept : (List.range n).any (fun i => Place.here == .here && (keptByte s.recordPages (pa + i) || s.headerByte (pa + i))) = false := by
    simp only [List.any_eq_false, List.mem_range]
    intro i hi
    obtain ⟨hk, -, hb⟩ := h i hi
    simp [hk, hb]
  unfold storeHome
  simp only [if_true, hkept, Bool.false_eq_true, if_false]
  rfl

theorem stored_mem {p : Phys} (hp : p.place = .here) (h : s.plain p.pa 8) (v : Nat) : (s.stored p v).mem = mwrite s.mem p.pa 8 v := by
  rw [stored, afterStore_mem, hp, storeHome_plain h, pierWrite_mem]

end State

/-! Numbers in lanes. -/

theorem pack_succ (w n : Nat) (f : Nat → Nat) : pack w (n + 1) f = f 0 % 2 ^ w + 2 ^ w * pack w n (fun i => f (i + 1)) := by
  simp only [pack, List.range_succ_eq_map, List.foldr_cons, List.foldr_map]

theorem pack_congr {w n : Nat} {f g : Nat → Nat} (h : ∀ i, i < n → f i = g i) : pack w n f = pack w n g := by
  induction n generalizing f g with
  | zero => rfl
  | succ n ih => rw [pack_succ, pack_succ, h 0 (Nat.succ_pos n), ih fun i hi => h (i + 1) (Nat.succ_lt_succ hi)]

/-- A number put together from its own lanes. -/
theorem pack_lane (w n v : Nat) : pack w n (lane v w) = v % 2 ^ (w * n) := by
  induction n generalizing v with
  | zero => simp [pack, Nat.mod_one]
  | succ n ih =>
    have hshift : (fun i => lane v w (i + 1)) = lane (v / 2 ^ w) w := by
      funext i
      rw [lane, lane, fld, fld, Nat.div_div_eq_div_mul, ← Nat.pow_add, Nat.mul_succ, Nat.add_comm]
    have hzero : lane v w 0 = v % 2 ^ w := by rw [lane, fld, Nat.mul_zero, Nat.pow_zero, Nat.div_one]
    rw [pack_succ, hshift, ih, hzero, Nat.mod_mod, Nat.mul_succ, Nat.add_comm (w * n), Nat.pow_add, Nat.mod_mul]

theorem State.readHome_plain {s : State} {pa n : Nat} (h : s.plain pa n) : s.readHome .here pa n = mread s.mem pa n := by
  have hlt := mread_lt s.mem pa n
  have hpack : pack 8 n (fun i => lane (mread s.mem pa n) 8 i &&& readMask s.recordPages (pa + i)) = mread s.mem pa n := by
    rw [pack_congr (g := lane (mread s.mem pa n) 8) fun i hi => ?_, pack_lane, Nat.pow_mul]
    · exact Nat.mod_eq_of_lt hlt
    · obtain ⟨-, hm, -⟩ := h i hi
      rw [hm, show (0xFF : Nat) = 2 ^ 8 - 1 from rfl, Nat.and_two_pow_sub_one_eq_mod]
      exact Nat.mod_eq_of_lt (fld_lt _ _ _)
  unfold readHome
  dsimp only
  split
  · exact hpack
  · rfl

/-! The parts of an access. -/

theorem lowestTrap_none {l : List (Nat × Trap)} (h : lowestTrap l = none) : l = [] := by
  have hfold : ∀ (r : List (Nat × Trap)) b, (r.foldl (fun (best : Option (Nat × Trap)) x => match best with
      | none => some x
      | some b => if x.1 < b.1 then some x else some b) (some b)).isSome = true := fun r => by
    induction r with
    | nil => exact fun _ => rfl
    | cons x r ih =>
      intro b
      rw [List.foldl_cons]
      dsimp only
      split <;> exact ih _
  cases l with
  | nil => rfl
  | cons x r =>
    rw [lowestTrap, Option.map_eq_none_iff, List.foldl_cons] at h
    exact absurd (h ▸ hfold r x) (by simp)

theorem xlateAll_parts {s : State} {core : Nat} {t : Trans} {k : Kind} {ps : List Part} {es : List (Part × Phys)} (h : s.xlateAll core t k ps = .ok es) : es.map Prod.fst = ps := by
  unfold State.xlateAll at h
  dsimp only at h
  split at h
  · cases h
  · rename_i hnone
    have hno := List.filterMap_eq_nil_iff.1 (lowestTrap_none hnone)
    obtain rfl := Except.ok.inj h
    clear h hnone
    induction ps with
    | nil => rfl
    | cons p r ih =>
      have htail := ih fun e he => hno e (List.mem_cons_of_mem _ he)
      have hp := hno (p, s.xlate core t p.va.toNat) List.mem_cons_self
      rw [List.map_cons, List.filterMap_cons]
      cases hx : s.xlate core t p.va.toNat with
      | ok q => exact congrArg (p :: ·) htail
      | xlate a b => simp [hx, XRes.trap] at hp
      | range a => simp [hx, XRes.trap] at hp
      | ecc a b => simp [hx, XRes.trap] at hp

/-- What a check that finds no trap has translated are the parts of the access, cut at pages (R139). -/
theorem check_parts {s : State} {k : Kind} {ps : List Part} {es : List (Part × Phys)} (h : s.check k ps = .ok es) : es.map Prod.fst = (ps.map (cutLeaf s.cx.trans k)).flatten := by
  unfold State.check State.checkAccess at h
  split at h
  · cases h
  · rename_i xs hxs
    dsimp only at h
    split at h
    · cases h
    · obtain rfl := Except.ok.inj h
      unfold State.checkSteps at hxs
      split at hxs
      · cases hxs
      · split at hxs
        · cases hxs
        · rename_i ys hys
          split at hxs
          · cases hxs
          · obtain rfl := Except.ok.inj hxs
            exact xlateAll_parts hys

/-- A part is cut into itself or into its bytes. -/
theorem cutLeaf_length (t : Trans) (k : Kind) (p : Part) : cutLeaf t k p = [p] ∨ (cutLeaf t k p).length = p.n := by
  unfold cutLeaf
  dsimp only
  split
  · split
    · exact .inl rfl
    · exact .inr (by simp)
  · exact .inl rfl

/-- As many translated parts as words: no word was cut. -/
theorem check_words {s : State} {k : Kind} {ps : List Part} {es : List (Part × Phys)} (h : s.check k ps = .ok es) (hn : ∀ p ∈ ps, 1 < p.n) (hl : es.length = ps.length) :
    es.map Prod.fst = ps := by
  have hparts := check_parts h
  have hlen : ((ps.map (cutLeaf s.cx.trans k)).flatten).length = ps.length := by rw [← hparts, List.length_map, hl]
  rw [hparts]
  clear hparts hl h
  have hge : ∀ l : List Part, (∀ p ∈ l, 1 < p.n) → l.length ≤ ((l.map (cutLeaf s.cx.trans k)).flatten).length := fun l => by
    induction l with
    | nil => exact fun _ => Nat.le_refl _
    | cons p r ih =>
      intro hl
      have hr := ih fun q hq => hl q (List.mem_cons_of_mem _ hq)
      have hp := hl p List.mem_cons_self
      rw [List.map_cons, List.flatten_cons, List.length_append, List.length_cons]
      rcases cutLeaf_length s.cx.trans k p with hc | hc
      · rw [hc, List.length_singleton]
        omega
      · omega
  induction ps with
  | nil => rfl
  | cons p r ih =>
    have hr := hge r fun q hq => hn q (List.mem_cons_of_mem _ hq)
    have hp := hn p List.mem_cons_self
    rw [List.map_cons, List.flatten_cons] at hlen ⊢
    rw [List.length_append, List.length_cons] at hlen
    rcases cutLeaf_length s.cx.trans k p with hc | hc
    · rw [hc] at hlen ⊢
      rw [List.length_singleton] at hlen
      rw [ih (fun q hq => hn q (List.mem_cons_of_mem _ hq)) (by omega)]
      rfl
    · omega

end Sys2Proof.Machine
end

section
/-! SUPPORT. FORK, JOIN and the deque instructions (R234 to R237): what their bodies write, push, pop and deliver. -/

set_option Elab.async false

namespace Sys2Proof.Machine

open Sys2Proof

/-- The control word of FORK is the one that R11 and R234 give. -/
theorem childWord_childControl (c : Ctx) : childWord c (childControl c) := by
  have hb : c.budget < 2 ^ 8 := fld_lt _ _ _
  have hp := c.prio.isLt
  have hg := c.group.isLt
  have hpark : b2n c.parkEnable < 2 := by cases c.parkEnable <;> decide
  have hbit : bitOf (childControl c) 35 = c.parkEnable := by
    have hdiv : childControl c / 2 ^ 35 % 2 = b2n c.parkEnable := by unfold childControl; omega
    rw [bitOf, Nat.testBit_eq_decide_div_mod_eq, hdiv]
    cases c.parkEnable <;> rfl
  refine ⟨?_, ?_, ?_, hbit, ?_, ?_, ?_, ?_⟩ <;> simp only [childControl, fld] <;> omega

theorem mread_congr {m m' : Mem} {a n : Nat} (h : ∀ i, i < n → mget m (a + i) = mget m' (a + i)) : mread m a n = mread m' a n := by
  induction n generalizing a with
  | zero => rfl
  | succ n ih =>
    rw [mread, mread, ih fun i hi => ?_]
    · rw [show mget m a = mget m' a from h 0 (Nat.succ_pos n)]
    · rw [Nat.add_assoc, Nat.add_comm 1 i]
      exact h (i + 1) (Nat.succ_lt_succ hi)

/-- A read of bytes apart from those that a write has written. -/
theorem mread_mwrite_apart {m : Mem} (h : m.wf = true) {a n b k v : Nat} (hab : b + k ≤ a ∨ a + n ≤ b) : mread (mwrite m a n v) b k = mread m b k :=
  mread_congr fun i hi => mget_mwrite_outside h v (by omega)

/-- The instruction of a context that waits enters its body again. -/
theorem issue_held {s : State} {i : Instr} {o : Ops} {touch : List Nat} {body : State → Eff} (hocc : s.cx.occ = true) (hw : s.cx.wait ≠ .none) :
    issue i o touch body s = finishWith i o s (body s) := by simp [issue, hocc, hw]

/-! The words of a record that FORK names, and what it writes of them. -/

section
variable {s u : State}

theorem State.readParts_words {k : Kind} {a : Nat} {e0 e1 e2 : Part × Phys} (h : s.check k (forkParts a) = .ok [e0, e1, e2]) :
    s.readParts 16 [e0, e1, e2] = s.readHome e1.2.place e1.2.pa 8 := by
  obtain ⟨p0, q0⟩ := e0
  obtain ⟨p1, q1⟩ := e1
  obtain ⟨p2, q2⟩ := e2
  have hp := check_words h (by simp [forkParts]) rfl
  simp only [List.map_cons, List.map_nil, forkParts, List.cons.injEq, and_true] at hp
  obtain ⟨rfl, rfl, rfl⟩ := hp
  simp [readParts]

/-- FORK writes the PC word and the control word of its record. -/
theorem State.putParts_words {k : Kind} {a pc ctl : Nat} {e0 e1 e2 : Part × Phys} (h : s.check k (forkParts a) = .ok [e0, e1, e2]) (hpc : pc < 2 ^ 64) (hctl : ctl < 2 ^ 64) :
    (s.putParts 0 pc [e0, e1, e2]).putParts 24 ctl [e0, e1, e2] = (s.stored e0.2 pc).stored e2.2 ctl := by
  obtain ⟨p0, q0⟩ := e0
  obtain ⟨p1, q1⟩ := e1
  obtain ⟨p2, q2⟩ := e2
  have hp := check_words h (by simp [forkParts]) rfl
  simp only [List.map_cons, List.map_nil, forkParts, List.cons.injEq, and_true] at hp
  obtain ⟨rfl, rfl, rfl⟩ := hp
  have hlow : ∀ v, v < 2 ^ 64 → fld v 0 64 = v := fun v hv => by rw [fld_low, Nat.mod_eq_of_lt hv]
  simp [putParts, stored, hlow pc hpc, hlow ctl hctl]

theorem State.addWord_mem {p : Phys} (hp : p.place = .here) (h : s.plain p.pa 8) (x : Word) :
    (s.addWord p x).mem = mwrite s.mem p.pa 8 (BitVec.ofNat 64 (mread s.mem p.pa 8) + x).toNat := by
  unfold State.addWord
  dsimp only
  rw [afterStore_mem, hp, storeHome_plain h, readHome_plain h, pierWrite_mem]

theorem State.blockFree {p : Part} {q : Phys} (h : q.place = .here) (hb : s.blockBusy q.pa p.n = false) : s.homesFree [(p, q)] = true := by
  simp [homesFree, h, hb]

end

/-! FORK. -/

/-- A forked record goes on the core's deque, live (R234). -/
def State.forkedChild (s : State) (a : Nat) (u : State) : State := (u.setDctx s.cx.dc ((u.dctx s.cx.dc).born 1)).pushDeque s.coreNo (childOf s.cx a)

/-- The record of the child once FORK has written its PC and control words. -/
def State.forkWritten (s : State) (o : Ops) (e0 e2 : Part × Phys) : State := (s.stored e0.2 (fld (s.cx.getG o.bNum).toNat 0 56)).stored e2.2 (childControl s.cx)

theorem State.forkWritten_wrote (s : State) (o : Ops) (e0 e2 : Part × Phys) : Wrote s (s.forkWritten o e0 e2) := (Wrote.stored _ _ _).trans (Wrote.stored _ _ _)

section
variable {s u : State} {o : Ops}

theorem State.forkedChild_spec (h : Wrote s u) (hd : s.co.deque.length < 256) (a : Nat) :
    (s.forkedChild a u).ctxs = s.ctxs ∧ (s.forkedChild a u).cur = s.cur ∧ ((s.forkedChild a u).core s.coreNo).deque = s.co.deque ++ [{ childOf s.cx a with tick := s.tick }]
      ∧ ((s.forkedChild a u).dctx s.cx.dc).live = (s.dctx s.cx.dc).live + 1 := by
  have hdeque : ((u.setDctx s.cx.dc ((u.dctx s.cx.dc).born 1)).core s.coreNo).deque = s.co.deque := h.deque s.coreNo
  have htick : ((u.setDctx s.cx.dc ((u.dctx s.cx.dc).born 1)).writeLink s.coreNo (childOf s.cx a)).tick = s.tick := (Wrote.writeLink _ _ _).tick.trans h.tick
  refine ⟨?_, ?_, ?_, ?_⟩
  · exact (State.pushDeque_frame (f := State.ctxs) (fun _ _ _ _ _ _ _ => rfl) (fun _ _ _ => rfl) (fun _ _ _ => rfl)).trans h.ctxs
  · exact (State.pushDeque_frame (f := State.cur) (fun _ _ _ _ _ _ _ => rfl) (fun _ _ _ => rfl) (fun _ _ _ => rfl)).trans h.cur
  · rw [forkedChild, State.pushDeque_core (hdeque ▸ hd), htick, hdeque]
  · have hlive : ((s.forkedChild a u).dctx s.cx.dc) = (u.setDctx s.cx.dc ((u.dctx s.cx.dc).born 1)).dctx s.cx.dc :=
      State.pushDeque_frame (f := fun t => t.dctx s.cx.dc) (fun _ _ _ _ _ _ _ => rfl) (fun _ _ _ => rfl) (fun _ _ _ => rfl)
    rw [hlive, dctx_setDctx_same, State.dctx_congr h.devctxs]
    rfl

/-- The chain of a FORK that has pushed its child is retired. -/
theorem State.fork_retired (h : Wrote s u) (hd : s.co.deque.length < 256) (a : Nat) :
    ∃ t, finishWith (.fork o) o s (.done (s.forkedChild a u)) = .next t ∧ .next t = retired (.fork o) (s.forkedChild a u)
      ∧ t.co.deque = s.co.deque ++ [{ childOf s.cx a with tick := s.tick }] ∧ (t.dctx s.cx.dc).live = (s.dctx s.cx.dc).live + 1 ∧ sameRegisters s.cx t.cx [] ∧ sameContexts s t s.cur := by
  obtain ⟨hctxs, hcur, hdeque, hlive⟩ := State.forkedChild_spec h hd a
  obtain ⟨hregs, hothers⟩ := retired_contexts hctxs hcur (.fork o) o.s
  refine ⟨_, rfl, rfl, ?_, hlive, hregs, hothers⟩
  rw [co_setCx, State.co, State.coreNo, hcur]
  exact hdeque

variable {a : Nat} (ha : fld (s.cx.getG o.aNum).toNat 0 56 = a) (h : s.canIssue o [rg o.aNum, rg o.bNum]) (hm : a % 64 = 0) (hpc : (s.cx.getG o.bNum).getLsbD 0 = false)
  (hr : s.releaseReady s.coreNo (s.cur % 8) = true) {e0 e1 e2 : Part × Phys} (hc : s.check .store (forkParts a) = .ok [e0, e1, e2]) (hf : s.homesFree [e0, e1, e2] = true)
include ha h hm hpc hr hc hf

omit ha h hm hpc hr hf in
theorem State.fork_writes : (s.putParts 0 (fld (s.cx.getG o.bNum).toNat 0 56) [e0, e1, e2]).putParts 24 (childControl s.cx) [e0, e1, e2] = s.forkWritten o e0 e2 :=
  State.putParts_words hc (Nat.lt_trans (fld_lt _ 0 56) (by decide)) (Nat.lt_trans (childWord_childControl s.cx).2.2.2.2.2.2.2 (by decide))

/-- FORK of a record with no join word. -/
theorem fork_alone (hj : s.readHome e1.2.place e1.2.pa 8 = 0) : exec (.fork o) s = finishWith (.fork o) o s (.done (s.forkedChild a (s.forkWritten o e0 e2))) := by
  show execFork o s = _
  rw [execFork, issue_run h]
  have hn : ∀ d, ((s.forkWritten o e0 e2).setDctx s.cx.dc d).coreNo = s.coreNo := fun _ => (State.forkWritten_wrote s o e0 e2).coreNo
  simp only [ha, hm, hpc, hc, hr, hf, State.readParts_words hc, hj, State.fork_writes hc, ne_eq, not_true_eq_false, Bool.false_eq_true, Bool.true_eq_false, or_self, if_false, if_true, hn]
  rfl

/-- FORK of a record whose join word names a counter. -/
theorem fork_joined {j : Nat} (hj : s.readHome e1.2.place e1.2.pa 8 = j) (hj0 : j ≠ 0) (hj8 : j % 8 = 0) {p : Part} {q : Phys}
    (hjc : s.check (.atomic 0) [{ off := 0, va := (fld j 0 56 : Nat), n := 8 }] = .ok [(p, q)]) (hjf : s.homesFree [(p, q)] = true) :
    exec (.fork o) s = finishWith (.fork o) o s (.done (s.forkedChild a ((s.forkWritten o e0 e2).addWord q 1))) := by
  show execFork o s = _
  rw [execFork, issue_run h]
  have hn : ∀ d, (((s.forkWritten o e0 e2).addWord q 1).setDctx s.cx.dc d).coreNo = s.coreNo :=
    fun _ => ((State.forkWritten_wrote s o e0 e2).trans (Wrote.addWord _ q 1)).coreNo
  simp only [ha, hm, hpc, hc, hr, hf, State.readParts_words hc, hj, hj0, hj8, hjc, hjf, State.fork_writes hc, ne_eq, not_true_eq_false, Bool.false_eq_true, Bool.true_eq_false, or_self, if_false,
    List.foldl_cons, List.foldl_nil, hn]
  rfl

end

/-! JOIN. -/

theorem sgn_toInt (n : Nat) : sgn n 64 = (BitVec.ofNat 64 n).toInt := by
  rw [sgn, BitVec.toInt_eq_toNat_cond, BitVec.toNat_ofNat]
  by_cases h : n % 2 ^ 64 < 2 ^ 63
  · rw [if_neg (by decide), if_pos h, if_pos (by omega)]
  · rw [if_neg (by decide), if_neg h, if_neg (by omega)]

theorem sgn_pred (n : Nat) : sgn (n + (2 ^ 64 - 1)) 64 = (BitVec.ofNat 64 n - 1).toInt := by
  have hneg : BitVec.ofNat 64 (2 ^ 64 - 1) = -1 := by decide
  rw [sgn_toInt, BitVec.ofNat_add, hneg, sub_eq_add_neg]

theorem State.acquire_sameMemory (s : State) (core scope : Nat) : sameMemory s (s.acquire core scope) := by
  unfold State.acquire
  split <;> exact .refl s

theorem State.endContext_regs (s : State) (k : Nat) : (s.endContext k).regs = s.regs := by
  have hidle : ∀ (t : State) k, (t.idleRow k).regs = t.regs := fun t k => by
    unfold State.idleRow
    dsimp only
    split <;> rfl
  rw [State.endContext_eq]
  exact hidle _ _

/-- The current context after its instruction has been retired in a state with the same contexts. -/
theorem cx_retired {s t : State} (hc : t.ctxs = s.ctxs) (hk : t.cur = s.cur) (i : Instr) (m : Bool) : (t.setCx (t.cx.retire i m)).cx = s.cx.retire i m := by
  rw [State.cx_setCx, State.cx, State.cx, hk, State.ctx_congr hc]

/-- A join counter below 0 is counted (R235). -/
def State.joinError (s : State) : State := { s with regs := { s.regs with rasjoin := bump s.regs.rasjoin } }

/-- What is left to do of a JOIN that has taken 1 from its counter (R235). -/
def joined (s : State) (r : Int) (u : State) : Eff :=
  if 0 < r then (if s.cx.drained then .gone (u.endContext u.cur) else .hold (.access (2 ^ 64)) u)
  else if r = 0 then .done (u.acquire u.coreNo 3)
  else .done u.joinError

section
variable {s u : State} {o : Ops}

theorem join_empty (h : s.canIssue o [rg o.aNum]) (hk : s.atCheckpoint = true) (hx : s.cx.getG o.aNum = 0) : exec (.join o) s = retired (.join o) s := by
  obtain ⟨⟨hocc, hw, hd⟩, hg⟩ := h
  show execJoin o s = _
  rw [execJoin, issue_run ⟨⟨hocc, hw, hd⟩, hg⟩]
  simp only [hw, hk, hx, ne_eq, not_true_eq_false, Bool.true_eq_false, if_false, if_true]
  rfl

/-- A JOIN that has subtracted and waits for its results (R235). -/
theorem join_again (hocc : s.cx.occ = true) (hw : s.cx.wait = .access (2 ^ 64)) : exec (.join o) s = .next (if s.cx.drained then s.endContext s.cur else { s with stall := true }) := by
  show execJoin o s = _
  rw [execJoin, issue_held hocc (by rw [hw]; nofun)]
  simp only [hw, ne_eq, reduceCtorEq, not_false_eq_true, if_true]
  split <;> rfl

variable {a : Nat} (ha : fld (s.cx.getG o.aNum).toNat 0 56 = a) (h : s.canIssue o [rg o.aNum]) (hk : s.atCheckpoint = true) (hx : s.cx.getG o.aNum ≠ 0) (hm : a % 8 = 0)
  (hr : s.releaseReady s.coreNo (s.cur % 8) = true) {p : Part} {q : Phys} (hc : s.check (.atomic 0) [{ off := 0, va := (a : Nat), n := 8 }] = .ok [(p, q)]) (hf : s.homesFree [(p, q)] = true)
include ha h hk hx hm hr hc hf

/-- JOIN subtracts 1 from its counter in one step. -/
theorem join_run : exec (.join o) s = finishWith (.join o) o s (joined s (BitVec.ofNat 64 (s.readHome q.place q.pa 8) - 1).toInt (s.addWord q (-1))) := by
  obtain ⟨⟨hocc, hw, hd⟩, hg⟩ := h
  show execJoin o s = _
  rw [execJoin, issue_run ⟨⟨hocc, hw, hd⟩, hg⟩]
  simp only [hw, hk, hx, ha, hm, hc, hr, hf, ne_eq, not_true_eq_false, Bool.true_eq_false, or_self, if_false, List.foldl_cons, List.foldl_nil, sgn_pred]
  rfl

end

section
variable {s u : State} {o : Ops} (h : Wrote s u)
include h

/-- How a JOIN ends, its counter left positive, 0 or negative (R235). -/
theorem joined_spec (r : Int) : ∃ t, finishWith (.join o) o s (joined s r u) = .next t ∧ t.mem = u.mem
    ∧ (0 < r → if s.cx.drained then (t.ctx s.cur).occ = false ∧ (t.dctx s.cx.dc).live = (s.dctx s.cx.dc).live - 1 else t.cx.wait = .access (2 ^ 64) ∧ t.cx.held = some (.join o))
    ∧ (r ≤ 0 → t.cx.pc = (s.cx.retire (.join o) o.s).pc ∧ sameRegisters s.cx t.cx [])
    ∧ (r < 0 → t.regs = { s.regs with rasjoin := bump s.regs.rasjoin }) ∧ (0 ≤ r → t.regs = s.regs) := by
  have hcx := h.cx
  unfold joined
  rcases lt_trichotomy r 0 with hr | hr | hr
  · rw [if_neg (by omega), if_neg (by omega)]
    refine ⟨_, rfl, rfl, fun h0 => absurd h0 (by omega), fun _ => ?_, fun _ => ?_, fun h0 => absurd h0 (by omega)⟩
    · rw [cx_retired (t := u.joinError) h.ctxs h.cur]
      exact ⟨rfl, sameRegisters_retire _ _ _⟩
    · show { u.regs with rasjoin := bump u.regs.rasjoin } = _
      rw [h.regs]
  · rw [if_neg (by omega), if_pos hr]
    refine ⟨_, rfl, (State.acquire_sameMemory u _ _).1, fun h0 => absurd h0 (by omega), fun _ => ?_, fun h0 => absurd h0 (by omega), fun _ => h.regs⟩
    rw [cx_retired (t := u.acquire u.coreNo 3) h.ctxs h.cur]
    exact ⟨rfl, sameRegisters_retire _ _ _⟩
  · rw [if_pos hr]
    by_cases hd : s.cx.drained = true
    · rw [if_pos hd]
      refine ⟨_, rfl, (State.endContext_sameMemory u u.cur).1, fun _ => ?_, fun h0 => absurd h0 (by omega), fun h0 => absurd h0 (by omega), fun _ => (State.endContext_regs _ _).trans h.regs⟩
      rw [if_pos hd, ← h.cur, ← hcx]
      refine ⟨State.endContext_occ _ _, ?_⟩
      rw [← State.dctx_congr h.devctxs]
      exact State.endContext_live _ _
    · rw [if_neg hd]
      refine ⟨_, rfl, rfl, fun _ => ?_, fun h0 => absurd h0 (by omega), fun h0 => absurd h0 (by omega), fun _ => h.regs⟩
      rw [if_neg hd, State.cx_setCx]
      exact ⟨rfl, rfl⟩

end

/-! The deque instructions. -/

theorem check_word {s : State} {k : Kind} {p : Part} {e : Part × Phys} (h : s.check k [p] = .ok [e]) (hn : 1 < p.n) : e.1 = p := by
  have hp := check_words h (by simpa using hn) rfl
  exact (List.cons.inj hp).1

theorem State.readParts_word {s : State} {p : Part} {q : Phys} (h : p.off = 0) (hn : p.n = 8) : s.readParts 0 [(p, q)] = s.readHome q.place q.pa 8 := by
  simp [readParts, h, hn]

section
variable {s : State} {o : Ops}

theorem dqpush_run {a : Nat} (ha : fld (s.cx.getG o.aNum).toNat 0 56 = a) (h : s.canIssue o [rg o.aNum]) (hm : a % 64 = 0) (hr : s.releaseReady s.coreNo (s.cur % 8) = true)
    {e : Part × Phys} (hc : s.check .load [{ off := 0, va := (a + 24 : Nat), n := 8 }] = .ok [e]) (hf : s.homesFree [e] = true) :
    exec (.dqpush o) s = retired (.dqpush o) (s.pushDeque s.coreNo { rcd := BitVec.ofNat 64 a, dc := s.cx.dc, prio := fld (s.readHome e.2.place e.2.pa 8) 0 2 }) := by
  have hread : s.readParts 0 [e] = s.readHome e.2.place e.2.pa 8 := by
    obtain ⟨p, q⟩ := e
    obtain rfl := check_word hc (Nat.lt_of_lt_of_le (by decide) (Nat.le_refl 8))
    exact State.readParts_word rfl rfl
  show execDqpush o s = _
  rw [execDqpush, issue_run h]
  simp only [ha, hm, hc, hr, hf, hread, ne_eq, not_true_eq_false, Bool.true_eq_false, or_self, if_false]
  rfl

/-- An instruction that has pushed a record is retired. -/
theorem pushDeque_retired (hd : s.co.deque.length < 256) (e : QEnt) (i : Instr) :
    ∃ t, retired i (s.pushDeque s.coreNo e) = .next t ∧ t.co.deque = s.co.deque ++ [{ e with tick := s.tick }] ∧ sameRegisters s.cx t.cx [] := by
  have hctxs : (s.pushDeque s.coreNo e).ctxs = s.ctxs := State.pushDeque_frame (f := State.ctxs) (fun _ _ _ _ _ _ _ => rfl) (fun _ _ _ => rfl) (fun _ _ _ => rfl)
  have hcur : (s.pushDeque s.coreNo e).cur = s.cur := State.pushDeque_frame (f := State.cur) (fun _ _ _ _ _ _ _ => rfl) (fun _ _ _ => rfl) (fun _ _ _ => rfl)
  have hno : (s.pushDeque s.coreNo e).coreNo = s.coreNo := congrArg (· / 8) hcur
  refine ⟨_, rfl, ?_, (retired_contexts hctxs hcur i _).1⟩
  rw [State.co_setCx, State.co, hno]
  exact (congrArg Core.deque (State.pushDeque_core hd)).trans (by rw [(Wrote.writeLink s s.coreNo e).tick, State.co])

end

/-- What releases retained slots and accumulators leaves of a core. -/
theorem Core.releaseKept_keeps {α : Type} (g : Core → α) (hg : ∀ (c : Core) (x : Tbl Own) (y : Tbl Acc) (z : List Kept), g { c with slots := x, accs := y, kept := z } = g c) (c : Core) (rcd : Word) :
    g (c.releaseKept rcd) = g c := by
  have hslots := foldl_keeps (P := fun d => g d = g c) (f := fun (d : Core) n => if d.own n = .kept rcd then d.setOwn n .free else d)
    (fun d n hd => by
      split
      · exact (hg d _ _ _).trans hd
      · exact hd) (List.range 96) rfl
  have haccs := foldl_keeps (P := fun d => g d = g c) (f := fun (d : Core) n => if (d.acc n).own = .kept rcd then d.setAcc n { d.acc n with own := .free } else d)
    (fun d n hd => by
      split
      · exact (hg d _ _ _).trans hd
      · exact hd) (List.range 32) hslots
  exact (hg _ _ _ _).trans haccs

/-- What the release of retained slots leaves of a core's deque, of its results on their way and of its data cache. -/
def Core.besideKept (c : Core) : List QEnt × List Result × Tbl (BitVec 512) := (c.deque, c.results, c.dcache)

/-- A release changes cores alone, and nothing of their deques, results and data caches. -/
theorem State.released_spec (s : State) (rcd : Word) : (∃ cs, s.released rcd = { s with cores := cs }) ∧ ∀ k, ((s.released rcd).core k).besideKept = (s.core k).besideKept := by
  unfold State.released
  refine foldl_keeps (P := fun t : State => (∃ cs, t = { s with cores := cs }) ∧ ∀ k, (t.core k).besideKept = (s.core k).besideKept) (fun t e ht => ?_) s.cores ⟨⟨_, rfl⟩, fun _ => rfl⟩
  obtain ⟨⟨cs, hcs⟩, hk⟩ := ht
  split
  · refine ⟨⟨_, by rw [hcs]; rfl⟩, fun k => ?_⟩
    rw [State.core_setCore]
    split
    · subst_vars
      exact (Core.releaseKept_keeps Core.besideKept (fun _ _ _ _ => rfl) _ _).trans (hk _)
    · exact hk k
  · exact ⟨⟨cs, hcs⟩, hk⟩

/-- Delivers results of the current context in its registers; the deques and the data caches stay. -/
theorem delivered {s u : State} (hmem : sameMemory s u) (hctxs : u.ctxs = s.ctxs) (hcur : u.cur = s.cur) (hres : u.co.results = s.co.results) {i : Instr} {o : Ops} {g : List (Nat × Word)} {regs : List Nat} :
    ∃ t, finishWith i o s (.done (pendResult { slot := 0, g } regs u)) = .next t ∧ resultSent s t g ∧ sameMemory s t ∧ sameRegisters s.cx t.cx []
      ∧ (∀ k, (t.core k).deque = (u.core k).deque) ∧ t.co.dcache = u.co.dcache ∧ t.ports = u.ports ∧ t.coreNo = s.coreNo := by
  obtain ⟨hsent, -, hm, hregs, -⟩ := pendResult_retired (s := u) (i := i) (m := o.s) (g := g) (regs := regs)
  have hcx : u.cx = s.cx := by rw [State.cx, State.cx, hcur, State.ctx_congr hctxs]
  refine ⟨_, rfl, ?_, hmem.trans hm, hcx ▸ hregs, fun k => ?_, ?_, rfl, congrArg (· / 8) hcur⟩
  · rw [resultSent, ← hcur, ← hres]
    exact hsent
  · unfold pendResult
    dsimp only
    rw [State.core_setCx, State.setCo, State.core_setCore]
    split
    · subst_vars
      rfl
    · rfl
  · unfold pendResult
    rw [State.co_setCx, State.co_setCo]
    rfl

/-- No record: 0 is delivered (R236). -/
theorem takeResult_none {s : State} {i : Instr} {o : Ops} :
    ∃ t, finishWith i o s (takeResult o none s) = .next t ∧ resultSent s t [(o.dNum, 0)] ∧ (∀ k, (t.core k).deque = (s.core k).deque) ∧ t.coreNo = s.coreNo := by
  obtain ⟨t, ht, hsent, -, -, hdeque, -, -, hno⟩ := delivered (i := i) (o := o) (g := [(o.dNum, 0)]) (regs := [rg o.dNum]) (sameMemory.refl s) rfl rfl rfl
  exact ⟨t, ht, hsent, hdeque, hno⟩

/-- An acquire at a scope past the core empties the core's data cache (R144). -/
theorem State.acquire_core (s : State) {core scope : Nat} (h : 2 ≤ scope) (k : Nat) : (s.acquire core scope).core k = if k = core then { s.core core with dcache := [] } else s.core k := by
  rw [State.acquire, if_neg (Nat.not_lt.2 h)]
  dsimp only
  rw [State.core_setCluster, State.core_setCore]

theorem State.acquire_deque (s : State) {core scope : Nat} (h : 2 ≤ scope) (k : Nat) :
    ((s.acquire core scope).core k).deque = (s.core k).deque ∧ ((s.acquire core scope).core k).results = (s.core k).results := by
  rw [s.acquire_core h]
  split
  · subst_vars
    exact ⟨rfl, rfl⟩
  · exact ⟨rfl, rfl⟩

theorem State.acquire_beside (s : State) (core scope : Nat) : ∃ cs cl, s.acquire core scope = { s with cores := cs, clusters := cl } := by
  unfold State.acquire
  split
  · exact ⟨_, _, rfl⟩
  · exact ⟨_, _, rfl⟩

/-- The state once a core has taken a record, whose retained slots it releases, and acquired what its thread has written (R15, R236). -/
def State.taken (s : State) (rcd : Word) : State := (s.released rcd).acquire s.coreNo 2

theorem State.taken_beside (s : State) (rcd : Word) : sameMemory s (s.taken rcd) ∧ (s.taken rcd).ctxs = s.ctxs ∧ (s.taken rcd).cur = s.cur := by
  obtain ⟨cs, hcs⟩ := (s.released_spec rcd).1
  obtain ⟨cs', cl, ha⟩ := (s.released rcd).acquire_beside s.coreNo 2
  rw [State.taken, ha, hcs]
  exact ⟨.refl s, rfl, rfl⟩

theorem State.taken_core (s : State) (rcd : Word) (k : Nat) : ((s.taken rcd).core k).deque = (s.core k).deque ∧ ((s.taken rcd).core k).results = (s.core k).results := by
  obtain ⟨hd, hr⟩ := (s.released rcd).acquire_deque (core := s.coreNo) (Nat.le_refl 2) k
  have hview := (s.released_spec rcd).2 k
  simp only [Core.besideKept, Prod.mk.injEq] at hview
  exact ⟨hd.trans hview.1, hr.trans hview.2.1⟩

/-- A record taken from a deque is delivered, and what was retained for it is released (R15, R236). -/
theorem takeResult_some {s u : State} (hmem : sameMemory s u) (hctxs : u.ctxs = s.ctxs) (hcur : u.cur = s.cur) (hres : u.co.results = s.co.results) (rcd : Word) {i : Instr} {o : Ops} :
    ∃ t, finishWith i o s (takeResult o (some rcd) u) = .next t ∧ resultSent s t [(o.dNum, rcd)] ∧ (∀ k, (t.core k).deque = (u.core k).deque) ∧ t.coreNo = s.coreNo ∧ t.co.dcache = []
      ∧ sameMemory s t ∧ sameRegisters s.cx t.cx [] := by
  obtain ⟨hm, hc, hk⟩ := u.taken_beside rcd
  have hno : (u.taken rcd).coreNo = u.coreNo := by rw [State.coreNo, hk, State.coreNo]
  have hresults : (u.taken rcd).co.results = s.co.results := by rw [State.co, hno, (u.taken_core rcd _).2, ← hres, State.co]
  have hcache : (u.taken rcd).co.dcache = [] := by rw [State.co, hno, State.taken, State.acquire_core _ (Nat.le_refl 2), if_pos rfl]
  obtain ⟨t, ht, hsent, hmt, hregs, hdeque, hdc, -, htno⟩ := delivered (hmem.trans hm) (hc.trans hctxs) (hk.trans hcur) hresults (i := i) (o := o) (g := [(o.dNum, rcd)]) (regs := [rg o.dNum])
  exact ⟨t, ht, hsent, fun k => (hdeque k).trans (u.taken_core rcd k).1, htno, hdc.trans hcache, hmt, hregs⟩

/-! DQPOP, DQSTEAL and DQPOP.lq. -/

section
variable {s : State} {o : Ops}

/-- A core's deque replaced. -/
def State.setDeque (s : State) (k : Nat) (l : List QEnt) : State := s.setCore k { s.core k with deque := l }

theorem State.setDeque_deque (s : State) (k : Nat) (l : List QEnt) : ((s.setDeque k l).core k).deque = l := by rw [setDeque, core_setCore_same]

theorem State.setDeque_results (s : State) (k j : Nat) (l : List QEnt) : ((s.setDeque k l).core j).results = (s.core j).results := by
  rw [setDeque, core_setCore]
  split
  · subst_vars
    rfl
  · rfl

/-- A record taken from a deque leaves the rest of it there. -/
theorem taken_from (k : Nat) (l : List QEnt) (rcd : Word) {i : Instr} : ∃ t, finishWith i o s (takeResult o (some rcd) (s.setDeque k l)) = .next t ∧ resultSent s t [(o.dNum, rcd)]
    ∧ (t.core k).deque = l ∧ t.coreNo = s.coreNo ∧ t.co.dcache = [] ∧ sameMemory s t ∧ sameRegisters s.cx t.cx [] := by
  obtain ⟨t, ht, hsent, hdeque, hrest⟩ := takeResult_some (s := s) (u := s.setDeque k l) (.refl s) rfl rfl (s.setDeque_results k _ l) rcd (i := i) (o := o)
  exact ⟨t, ht, hsent, (hdeque k).trans (s.setDeque_deque k l), hrest⟩

theorem dqpop_empty (h : s.canIssue o [rg o.dNum]) (hd : s.co.deque = []) : exec (.dqpop o) s = finishWith (.dqpop o) o s (takeResult o none s) := by
  show execDqpop o s = _
  rw [execDqpop, issue_run h]
  simp only [hd, List.getLast?_nil]

theorem dqpop_last {l : List QEnt} {e : QEnt} (h : s.canIssue o [rg o.dNum]) (hd : s.co.deque = l ++ [e]) :
    exec (.dqpop o) s = finishWith (.dqpop o) o s (takeResult o (some e.rcd) (s.setDeque s.coreNo l)) := by
  show execDqpop o s = _
  rw [execDqpop, issue_run h]
  simp only [hd, List.getLast?_concat, List.dropLast_concat]
  rfl

theorem dqsteal_nothing (h : s.canIssue o [rg o.dNum, rg o.aNum]) {k : Nat} (hn : (s.cx.getG o.aNum).toNat ≤ 31) (hk : s.coreNo / 32 * 32 + (s.cx.getG o.aNum).toNat = k)
    (hd : (∀ e ∈ (s.core k).deque, e.pin ≠ none) ∨ (s.core k).fenced = true ∨ s.co.fenced = true) : exec (.dqsteal o) s = finishWith (.dqsteal o) o s (takeResult o none s) := by
  have hfind : (if (s.core k).fenced || s.co.fenced then none else (s.core k).deque.findIdx? (fun e => e.pin == none)) = none := by
    rcases hd with hd | hd | hd
    · rw [List.findIdx?_eq_none_iff.2 fun e he => beq_false_of_ne (hd e he), ite_self]
    · rw [hd, Bool.true_or, if_pos rfl]
    · rw [hd, Bool.or_true, if_pos rfl]
  show execDqsteal o s = _
  rw [execDqsteal, issue_run h]
  simp only [if_neg (Nat.not_lt.2 hn), hk, hfind]

theorem findIdx_past {α : Type} {p : α → Bool} (l : List α) (e : α) (r : List α) (hl : ∀ x ∈ l, p x = false) (he : p e = true) : (l ++ e :: r).findIdx? p = some l.length := by
  induction l with
  | nil => rw [List.nil_append, List.findIdx?_cons, he, if_pos rfl, List.length_nil]
  | cons x l ih =>
    rw [List.cons_append, List.findIdx?_cons, hl x List.mem_cons_self, ih fun y hy => hl y (List.mem_cons_of_mem _ hy)]
    rfl

theorem dqsteal_oldest (h : s.canIssue o [rg o.dNum, rg o.aNum]) {k : Nat} (hn : (s.cx.getG o.aNum).toNat ≤ 31) (hk : s.coreNo / 32 * 32 + (s.cx.getG o.aNum).toNat = k)
    {l : List QEnt} {e : QEnt} {r : List QEnt} (hf : (s.core k).fenced = false) (hf' : s.co.fenced = false) (hd : (s.core k).deque = l ++ e :: r) (hl : ∀ x ∈ l, x.pin ≠ none) (he : e.pin = none) :
    exec (.dqsteal o) s = finishWith (.dqsteal o) o s (takeResult o (some e.rcd) (s.setDeque k (l ++ r))) := by
  have hfind : (if (s.core k).fenced || s.co.fenced then none else (s.core k).deque.findIdx? (fun e => e.pin == none)) = some l.length := by
    rw [hf, hf', hd, Bool.or_false, if_neg (by decide)]
    exact findIdx_past l e r (fun x hx => beq_false_of_ne (hl x hx)) (by rw [he]; rfl)
  show execDqsteal o s = _
  rw [execDqsteal, issue_run h]
  simp only [if_neg (Nat.not_lt.2 hn), hk, hfind]
  rw [hd, List.getElem?_append_right (Nat.le_refl _), Nat.sub_self, List.getElem?_cons_zero, List.eraseIdx_append_of_length_le (Nat.le_refl _), Nat.sub_self, List.eraseIdx_cons_zero]
  rfl

/-- A port's queue without its head, and the core's caches emptied of what its thread may read (R237). -/
def State.portTaken (s : State) (l : Nat) (r : List (Nat × Nat)) : State := (s.setPort l { s.port l with queue := r }).acquire s.coreNo 4

/-- What DQPOP.lq takes from a port's queue leaves memory and the contexts alone, and the core's data cache empty. -/
theorem State.portTaken_spec (s : State) (l : Nat) (r : List (Nat × Nat)) : sameMemory s (s.portTaken l r) ∧ (s.portTaken l r).ctxs = s.ctxs ∧ (s.portTaken l r).cur = s.cur
    ∧ (s.portTaken l r).co.results = s.co.results ∧ (s.portTaken l r).co.dcache = [] ∧ (tget (s.portTaken l r).ports l {}).queue = r := by
  have hk : (4 : Nat) ≥ 2 := by decide
  obtain ⟨cs, cl, ha⟩ := (s.setPort l { s.port l with queue := r }).acquire_beside s.coreNo 4
  have hcur : (s.portTaken l r).cur = s.cur := by rw [portTaken, ha]; rfl
  have hno : (s.portTaken l r).coreNo = s.coreNo := congrArg (· / 8) hcur
  refine ⟨State.acquire_sameMemory (s.setPort l _) _ _, by rw [portTaken, ha]; rfl, hcur, ?_, ?_, ?_⟩
  · rw [co, hno]
    exact ((s.setPort l _).acquire_deque hk _).2
  · rw [co, hno, portTaken, acquire_core _ hk, if_pos rfl]
  · rw [portTaken, ha]
    exact congrArg Port.queue (tget_tset_same _ _ _ _)

/-- The port whose gateway cluster is that of the current core. -/
theorem dqpopLq_run (h : s.canIssue o [rg o.dNum, rg (o.dNum + 1), rg o.aNum]) {l : Nat} (hl : (s.cx.getG o.aNum).toNat = l) (hm : l ≤ 23) (hk : s.coreNo / 32 = 2 * l) :
    ((s.port l).queue = [] → exec (.dqpopLq o) s =
      finishWith (.dqpopLq o) o s (.done (pendResult { slot := 0, g := [(o.dNum, 0), (o.dNum + 1, 0)] } [rg o.dNum, rg (o.dNum + 1)] s)))
    ∧ ∀ e r, (s.port l).queue = e :: r → exec (.dqpopLq o) s =
      finishWith (.dqpopLq o) o s (.done (pendResult { slot := 0, g := [(o.dNum, BitVec.ofNat 64 (2 ^ 63 + e.1)), (o.dNum + 1, BitVec.ofNat 64 e.2)] } [rg o.dNum, rg (o.dNum + 1)]
        (s.portTaken l r))) := by
  have h' : s.canIssue o ([rg o.dNum, rg (o.dNum + 1)] ++ [rg o.aNum]) := h
  have hport : ¬(23 < l ∨ s.coreNo / 32 ≠ 2 * l) := by omega
  refine ⟨fun hq => ?_, fun e r hq => ?_⟩
  · show execDqpopLq o s = _
    rw [execDqpopLq, issue_run h']
    simp only [hl, if_neg hport, hq]
  · show execDqpopLq o s = _
    rw [execDqpopLq, issue_run h']
    simp only [hl, if_neg hport, hq]
    rfl

end

/-! The clauses about FORK, JOIN and DQPOP.lq. -/

section
variable {s : State} {o : Ops}

/-- What FORK leaves in the words of its record, at home in two places of memory (R234). -/
theorem State.forkWritten_mem (hwf : s.memWf = true) {e0 e2 : Part × Phys} (h0 : e0.2.place = .here) (h2 : e2.2.place = .here)
    (hapart : e0.2.pa + 8 ≤ e2.2.pa ∨ e2.2.pa + 8 ≤ e0.2.pa) (hplain : s.plain e0.2.pa 8) (hplain' : (s.stored e0.2 (fld (s.cx.getG o.bNum).toNat 0 56)).plain e2.2.pa 8) :
    let u := s.forkWritten o e0 e2
    mread u.mem e0.2.pa 8 = fld (s.cx.getG o.bNum).toNat 0 56 ∧ mread u.mem e2.2.pa 8 = childControl s.cx
      ∧ (∀ x, (x < e0.2.pa ∨ e0.2.pa + 8 ≤ x) → (x < e2.2.pa ∨ e2.2.pa + 8 ≤ x) → mget u.mem x = mget s.mem x) ∧ Mem.wf u.mem = true := by
  intro u
  obtain ⟨hs, -, -⟩ := State.memWf_iff.1 hwf
  have hmem : u.mem = mwrite (mwrite s.mem e0.2.pa 8 (fld (s.cx.getG o.bNum).toNat 0 56)) e2.2.pa 8 (childControl s.cx) :=
    (State.stored_mem h2 hplain' _).trans (by rw [State.stored_mem h0 hplain])
  have hwf1 := wf_mwrite hs e0.2.pa 8 (fld (s.cx.getG o.bNum).toNat 0 56)
  have hlt : childControl s.cx < 2 ^ 48 := (childWord_childControl s.cx).2.2.2.2.2.2.2
  have hpclt := fld_lt (s.cx.getG o.bNum).toNat 0 56
  rw [hmem]
  refine ⟨?_, ?_, fun x hx hx' => ?_, wf_mwrite hwf1 _ _ _⟩
  · rw [mread_mwrite_apart hwf1 (hapart), mread_mwrite hs]
    exact Nat.mod_eq_of_lt (Nat.lt_trans hpclt (by decide))
  · rw [mread_mwrite hwf1]
    exact Nat.mod_eq_of_lt (Nat.lt_trans hlt (by decide))
  · rw [mget_mwrite_outside hwf1 _ hx', mget_mwrite_outside hs _ hx]

/-- The word that FORK or JOIN adds to (R16). -/
theorem addWord_spec {u : State} (hwf : Mem.wf u.mem = true) {q : Phys} (hq : q.place = .here) (hplain : u.plain q.pa 8) (x : Word) :
    mread (u.addWord q x).mem q.pa 8 = (BitVec.ofNat 64 (mread u.mem q.pa 8) + x).toNat ∧ ∀ b, b < q.pa ∨ q.pa + 8 ≤ b → mget (u.addWord q x).mem b = mget u.mem b := by
  rw [State.addWord_mem hq hplain]
  refine ⟨?_, fun b hb => mget_mwrite_outside hwf _ hb⟩
  rw [mread_mwrite hwf]
  exact Nat.mod_eq_of_lt (BitVec.isLt _)

end

end Sys2Proof.Machine

open Sys2Proof Sys2Proof.Machine

/-- Settles O53: each instruction's body is run on a state that its clause describes; FORK and JOIN write memory by `stored` and `addWord`, whose frame
is `Wrote`, and a taken record is delivered by `takeResult`. -/
theorem forkJoinAndDeques : Obligations.ForkJoinAndDeques := by
  unfold Obligations.ForkJoinAndDeques
  intro o s c a
  refine ⟨?_, fun h hk hx => join_empty h hk hx, ?_, fun hocc hw => join_again hocc hw, ?_, ?_, ?_, ?_⟩
  · intro h hm hpc hr hd hwf e0 e1 e2 hc hf h0 h2 hapart hplain j u1 hplain'
    obtain ⟨hm0, hm2, hout, hwf2⟩ := State.forkWritten_mem hwf h0 h2 hapart hplain hplain'
    have hw := State.forkWritten_wrote s o e0 e2
    refine ⟨childControl c, s.forkWritten o e0 e2, childWord_childControl c, rfl, hm0, hm2, hout, fun hj => ?_, fun hj hj8 q hjc hq hb hqp => ?_⟩
    · rw [fork_alone (a := a) rfl h hm hpc hr hc hf hj]
      exact State.fork_retired hw hd a
    · obtain ⟨hadd, hrest⟩ := addWord_spec hwf2 hq hqp 1
      rw [fork_joined (a := a) rfl h hm hpc hr hc hf rfl hj hj8 hjc (State.blockFree hq hb)]
      obtain ⟨t, ht, hret, hdone⟩ := State.fork_retired (o := o) (hw.trans (Wrote.addWord _ q 1)) hd a
      exact ⟨t, _, ht, hret, hadd, hrest, hdone⟩
  · intro h hk hx hm hr hwf p hc hp hb hplain old
    obtain ⟨hs, -, -⟩ := State.memWf_iff.1 hwf
    have hold : s.readHome p.place p.pa 8 = mread s.mem p.pa 8 := by rw [hp, State.readHome_plain hplain]
    obtain ⟨hadd, hrest⟩ := addWord_spec hs hp hplain (-1)
    obtain ⟨t, ht, hmem, hend⟩ := joined_spec (o := o) (Wrote.addWord s p (-1)) (old - 1).toInt
    rw [join_run (a := a) rfl h hk hx hm hr hc (State.blockFree hp hb), hold]
    refine ⟨t, ht, ?_, fun x hx => ?_, hend⟩
    · rw [hmem, hadd, ← sub_eq_add_neg]
    · rw [hmem, hrest x hx]
  · intro h hm hr hd e0 hc hf
    rw [dqpush_run (a := a) rfl h hm hr hc hf]
    obtain ⟨t, ht, hdeque, hregs⟩ := pushDeque_retired hd { rcd := BitVec.ofNat 64 a, dc := c.dc, prio := fld (s.readHome e0.2.place e0.2.pa 8) 0 2 } (.dqpush o)
    exact ⟨t, _, ht, hdeque, rfl, rfl, rfl, hregs⟩
  · intro h
    refine ⟨fun hd => ?_, fun l e hd => ?_⟩
    · obtain ⟨t, ht, hsent, hdeque, hno⟩ := takeResult_none (s := s) (i := .dqpop o) (o := o)
      refine ⟨t, (dqpop_empty h hd).trans ht, hsent, ?_⟩
      rw [State.co, hno, hdeque]
      exact hd
    · rw [dqpop_last h hd]
      obtain ⟨t, ht, hsent, hdeque, hno, hrest⟩ := taken_from (s := s) (o := o) s.coreNo l e.rcd (i := .dqpop o)
      refine ⟨t, ht, hsent, ?_, hrest⟩
      rw [State.co, hno, hdeque]
  · intro h hn k
    refine ⟨fun hd => ?_, fun l e r hf hf' hd hl he => ?_⟩
    · obtain ⟨t, ht, hsent, hdeque, -⟩ := takeResult_none (s := s) (i := .dqsteal o) (o := o)
      exact ⟨t, (dqsteal_nothing h hn rfl hd).trans ht, hsent, hdeque k⟩
    · rw [dqsteal_oldest h hn rfl hf hf' hd hl he]
      obtain ⟨t, ht, hsent, hdeque, -, hrest⟩ := taken_from (s := s) (o := o) k (l ++ r) e.rcd (i := .dqsteal o)
      exact ⟨t, ht, hsent, hdeque, hrest⟩
  · intro h l hl hk
    obtain ⟨hnone, hhead⟩ := dqpopLq_run (l := l) h rfl hl hk
    refine ⟨fun hq => ?_, fun e r hq => ?_⟩
    · rw [hnone hq]
      obtain ⟨t, ht, hsent, -⟩ := delivered (i := .dqpopLq o) (o := o) (g := [(o.dNum, 0), (o.dNum + 1, 0)]) (regs := [rg o.dNum, rg (o.dNum + 1)]) (sameMemory.refl s) rfl rfl rfl
      exact ⟨t, ht, hsent⟩
    · rw [hhead e r hq]
      obtain ⟨hpm, hpc, hpk, hpr, hpd, hpq⟩ := s.portTaken_spec l r
      obtain ⟨t, ht, hsent, -, -, -, hdc, hports, -⟩ := delivered (s := s) (u := s.portTaken l r) (i := .dqpopLq o) (o := o) (g := [(o.dNum, BitVec.ofNat 64 (2 ^ 63 + e.1)), (o.dNum + 1, BitVec.ofNat 64 e.2)])
        (regs := [rg o.dNum, rg (o.dNum + 1)]) hpm hpc hpk hpr
      refine ⟨t, ht, hsent, ?_, hdc.trans hpd⟩
      rw [State.port, hports]
      exact hpq

end

section
/-! SUPPORT. A member of a gang that waits at the join while its slice still runs a product (R205, R206). -/

set_option Elab.async false

namespace Sys2Proof.Machine

open Sys2Proof

/-- A context at the join of the gang of core 0 alone, its budget not spent, before the join's conditions hold. -/
def gangMemberWaiting : Ctx := { occ := true, wait := .gang 5 false, held := some (.mma {}), sr := { mctl := BitVec.ofNat 128 (2 ^ 56) } }

/-- A dense product of no rows, no columns and no slots that runs in a slice. -/
def emptyProduct : MatOp := { matOp 1 {} 0 0 0 {} 0 with running := true }

/-- The member waits on the core whose slice runs that product. -/
def gangBehindProduct : State := { ctxs := [(0, gangMemberWaiting)], cores := [(0, { mat := [emptyProduct] })] }

/-- The end of the product leaves the slice empty, which is the join's last condition: in the same step the member's wait no longer runs out (R205). -/
theorem productEnd_holds_join : ∃ t, exec (.matrixOpEnd 0) gangBehindProduct = .next t ∧ (t.ctx 0).wait = .gang 5 true := by
  refine ⟨_, rfl, ?_⟩
  decide +kernel

end Sys2Proof.Machine

open Sys2Proof Sys2Proof.Machine

/-- Refutes O48: the clause about the end of a product of one core says that all contexts stay as they were. The end of the product of
`gangBehindProduct` empties the slice for which a member of a gang waits; the join's conditions then hold, and the member's context notes it. -/
theorem not_matrixProducts : ¬ Obligations.MatrixProducts := by
  unfold Obligations.MatrixProducts
  intro h
  obtain ⟨-, -, -, hend, -, -⟩ := h
  obtain ⟨-, hlone⟩ := hend 0 gangBehindProduct emptyProduct [] (by decide) rfl
  obtain ⟨hdense, -⟩ := hlone rfl rfl (by decide) (by decide)
  obtain ⟨t, ht, -, -, -, -, -, -, hstay⟩ := hdense (.inl rfl)
  obtain ⟨-, -, hctxs⟩ := hstay (by decide)
  obtain ⟨u, hu, hwait⟩ := productEnd_holds_join
  obtain rfl : t = u := Host.Outcome.next.inj (ht.symm.trans hu)
  rw [State.ctx_congr hctxs] at hwait
  exact absurd hwait (by decide)

end

section
/-! SUPPORT. Queue registers and queue entries (R327 to R329, R339). -/

set_option Elab.async false

namespace Sys2Proof.Machine

open Sys2Proof

/-! Fields of `qstat`. -/

theorem DevCtx.setStat_toNat (d : DevCtx) (lo n v : Nat) : (d.setStat lo n v).qstat.toNat = setFld d.qstat.toNat lo n v % 2 ^ 64 := BitVec.toNat_ofNat _ _

theorem DevCtx.setStat_rest (d : DevCtx) (lo n v : Nat) : (d.setStat lo n v).qhead = d.qhead ∧ (d.setStat lo n v).qsize = d.qsize ∧ (d.setStat lo n v).lnch = d.lnch ∧ (d.setStat lo n v).ptroot = d.ptroot :=
  ⟨rfl, rfl, rfl, rfl⟩

theorem DevCtx.setStat_err (d : DevCtx) (v : Nat) : fld (d.setStat 4 4 v).qstat.toNat 4 4 = v % 16 := by
  rw [setStat_toNat, setFld_eq, fld]
  omega

theorem DevCtx.setStat_status (d : DevCtx) (v : Nat) : fld (d.setStat 12 4 v).qstat.toNat 12 4 = v % 16 := by
  rw [setStat_toNat, setFld_eq, fld]
  omega

/-- The index of an entry leaves the fields below it. -/
theorem DevCtx.setStat_ridx (d : DevCtx) (v : Nat) : (d.setStat 16 16 v).qstat.toNat % 2 ^ 16 = d.qstat.toNat % 2 ^ 16 ∧ fld (d.setStat 16 16 v).qstat.toNat 16 16 = v % 2 ^ 16 := by
  rw [setStat_toNat, setFld_eq, fld]
  omega

theorem DevCtx.setStat_status_ridx (d : DevCtx) (v e : Nat) : fld ((d.setStat 12 4 v).setStat 16 16 e).qstat.toNat 12 4 = v % 16 := by
  have hlow := ((d.setStat 12 4 v).setStat_ridx e).1
  have hstatus := d.setStat_status v
  rw [fld] at hstatus ⊢
  omega

theorem DevCtx.setStat_ref (d : DevCtx) (e : Nat) : ((d.setStat 11 1 1).setStat 16 16 e).qstat.getLsbD 11 = true := by
  have hlow := ((d.setStat 11 1 1).setStat_ridx e).1
  have hbit : (d.setStat 11 1 1).qstat.toNat / 2 ^ 11 % 2 = 1 := by
    rw [setStat_toNat, setFld_eq]
    omega
  rw [BitVec.getLsbD, Nat.testBit_eq_decide_div_mod_eq, decide_eq_true_eq]
  omega

/-! Tables and the record pages that page tables map. -/

theorem mem_of_thas {α : Type} {t : Tbl α} {n : Nat} (h : thas t n = true) (d : α) : (n, tget t n d) ∈ t := by
  induction t with
  | nil => cases h
  | cons e r ih =>
    obtain ⟨j, x⟩ := e
    rw [tget]
    split
    · subst_vars
      exact List.mem_cons_self
    · refine List.mem_cons_of_mem _ (ih ?_)
      rw [thas, List.any_cons, Bool.or_eq_true, beq_iff_eq] at h
      exact h.resolve_left ‹_›

/-- Whether some entry of a table passes a test does not change with an entry that passes it as the one before. -/
theorem any_tset {α : Type} {t : Tbl α} {n : Nat} {v : α} (d : α) {g : Nat × α → Bool} (hn : thas t n = true) (hg : g (n, v) = g (n, tget t n d)) : (tset t n v).any g = t.any g := by
  induction t with
  | nil => cases hn
  | cons e r ih =>
    obtain ⟨j, x⟩ := e
    have hmem := mem_of_thas hn d
    rw [tset]
    split
    · rw [List.any_cons, hg]
      by_cases hx : g (n, tget ((j, x) :: r) n d) = true
      · rw [hx, Bool.true_or]
        exact (List.any_eq_true.2 ⟨_, hmem, hx⟩).symm
      · rw [eq_false_of_ne_true hx, Bool.false_or]
    · split
      · subst_vars
        rw [tget, if_pos rfl] at hg
        rw [List.any_cons, List.any_cons, hg]
      · rw [tget, if_neg ‹_›] at hg
        rw [thas, List.any_cons, Bool.or_eq_true, beq_iff_eq] at hn
        rw [List.any_cons, List.any_cons, ih (hn.resolve_left ‹_›) hg]

theorem thas_of_tget {α : Type} {t : Tbl α} {n : Nat} {d : α} (h : tget t n d ≠ d) : thas t n = true := by
  induction t with
  | nil => exact absurd rfl h
  | cons e r ih =>
    obtain ⟨j, x⟩ := e
    rw [tget] at h
    rw [thas, List.any_cons, Bool.or_eq_true, beq_iff_eq]
    split at h
    · exact .inl ‹_›
    · exact .inr (ih h)

/-- Two states map the same parameter-record pages over bytes of memory. -/
def State.samePages (s t : State) : Prop := ∀ p, t.recordPages.any p = s.recordPages.any p

/-- A change of a listed device context that leaves its page table's root leaves the record pages. -/
theorem State.samePages_setDctx {s : State} {n : Nat} {d : DevCtx} (hn : thas s.devctxs n = true) (hd : d.ptroot = (s.dctx n).ptroot) : s.samePages (s.setDctx n d) := fun p => by
  unfold State.recordPages
  rw [List.any_flatten, List.any_flatten, List.any_map, List.any_map]
  exact any_tset {} hn (by
    show (Machine.recordPages s.mem 5 0 (fld d.ptroot.toNat 12 44 * 4096)).any p = (Machine.recordPages s.mem 5 0 (fld (s.dctx n).ptroot.toNat 12 44 * 4096)).any p
    rw [hd])

theorem State.plain_of_samePages {s t : State} (h : s.samePages t) (ha : t.armed = s.armed) {pa n : Nat} (hp : s.plain pa n) : t.plain pa n := by
  have hh : ∀ b, inHeader t.recordPages b = inHeader s.recordPages b := fun b => h _
  have hr : ∀ b, inReserve t.recordPages b = inReserve s.recordPages b := fun b => congrArg (decide (448 ≤ b % 512) && ·) (h _)
  intro i hi
  obtain ⟨hk, hm, hb⟩ := hp i hi
  refine ⟨?_, ?_, ?_⟩
  · rw [keptByte, hh, hr]
    exact hk
  · rw [readMask, hh, hr]
    exact hm
  · rw [State.headerByte, ha]
    exact hb

/-! A copy into an empty memory. -/

theorem mget_of_absent {m : Mem} {a : Nat} (h : ∀ e ∈ m, e.1 ≠ a) : mget m a = 0 := by
  induction m with
  | nil => rfl
  | cons e r ih =>
    rw [mget, if_neg (h e List.mem_cons_self)]
    exact ih fun d hd => h d (List.mem_cons_of_mem _ hd)

/-- A byte of a memory into which the entries of a range of another are copied: what the other lists for it, else what it was. -/
theorem mget_copied {lo n i : Nat} (hi : i < n) {l m : Mem} (hl : l.wf = true) (hm : m.wf = true) :
    mget (l.foldl (fun m e => if lo ≤ e.1 ∧ e.1 < lo + n then mset m (0 + (e.1 - lo)) e.2 else m) m) i = if ∃ e ∈ l, e.1 = lo + i then mget l (lo + i) else mget m i := by
  rw [Mem.wf_iff] at hl
  obtain ⟨-, hp⟩ := hl
  induction l generalizing m with
  | nil => simp
  | cons e r ih =>
    obtain ⟨j, x⟩ := e
    obtain ⟨hj, hr⟩ := List.pairwise_cons.1 hp
    have hwf : Mem.wf (if lo ≤ j ∧ j < lo + n then mset m (0 + (j - lo)) x else m) = true := by
      split
      · exact wf_mset hm _ _
      · exact hm
    rw [List.foldl_cons, ih hwf hr]
    by_cases hja : j = lo + i
    · have hnone : ¬∃ e ∈ r, e.1 = lo + i := by
        rintro ⟨e, he, hea⟩
        have := hj e he
        dsimp only at this
        omega
      have hsome : ∃ e ∈ (j, x) :: r, e.1 = lo + i := ⟨_, List.mem_cons_self, hja⟩
      have hrange : lo ≤ j ∧ j < lo + n := by omega
      have hat : i = 0 + (j - lo) := by omega
      rw [if_neg hnone, if_pos hsome, if_pos hrange, mget_mset hm, if_pos hat, mget, if_pos hja]
    · have hsame : mget (if lo ≤ j ∧ j < lo + n then mset m (0 + (j - lo)) x else m) i = mget m i := by
        split
        · rw [mget_mset hm, if_neg (by omega)]
        · rfl
      have hiff : (∃ e ∈ (j, x) :: r, e.1 = lo + i) ↔ ∃ e ∈ r, e.1 = lo + i := by simp [hja]
      rw [hsame, mget, if_neg hja]
      simp only [hiff]

theorem mget_mcopy_nil {src : Mem} (h : src.wf = true) {lo n i : Nat} (hi : i < n) : mget (mcopy [] 0 src lo n) i = mget src (lo + i) := by
  rw [mcopy, show mclear [] 0 (0 + n) = [] from rfl, mget_copied hi h rfl]
  split
  · rfl
  · rename_i hnone
    exact (mget_of_absent fun e he hea => hnone ⟨e, he, hea⟩).symm

/-! Taking an entry. -/

section
variable {s : State} {n : Nat}

/-- Word i of the entry that a queue takes next. -/
def State.entryWord (s : State) (n i : Nat) : Nat := mread s.mem ((s.dctx n).entryAt + 8 * i) 8

theorem State.moves_of_ready (h : s.ready = true) : s.still = false := by
  rw [State.ready, beq_iff_eq] at h
  simp [State.still, h]

theorem State.takes_iff : s.takes n = true ↔ s.ready = true ∧ s.resident = some n ∧ s.incoming = none ∧ (s.dctx n).launch = none ∧ fld (s.dctx n).qstat.toNat 4 4 = 0
    ∧ (s.dctx n).qsize ≠ 0 ∧ (s.dctx n).qhead ≠ (s.dctx n).qtail := by
  simp [State.takes, and_assoc]

/-- A device context whose queue has a size is listed. -/
theorem State.listed_of_takes (h : s.takes n = true) : thas s.devctxs n = true := by
  obtain ⟨-, -, -, -, -, hq, -⟩ := State.takes_iff.1 h
  refine thas_of_tget (d := ({} : DevCtx)) fun h0 => hq ?_
  rw [State.dctx, h0]

variable {kinds : Nat → Bool} {f : (Nat → Nat) → State → State} (h : s.takes n = true) (hp : s.physOk (s.dctx n).entryAt 256 = true)
include h hp

theorem takeEntry_held (hb : s.placeHeld (placeOf (s.dctx n).entryAt) (s.dctx n).entryAt 256 = true) : takeEntry n kinds f s = .next s := by
  rw [takeEntry, event_on h (State.moves_of_ready (State.takes_iff.1 h).1)]
  simp only [hp, hb, Bool.true_eq_false, if_false, if_true]

theorem takeEntry_run (hb : s.placeHeld (placeOf (s.dctx n).entryAt) (s.dctx n).entryAt 256 = false) (hk : kinds (s.entryWord n 31 % 256) = true) :
    takeEntry n kinds f s = .next (f (s.entryWord n) s) := by
  have hk' : kinds (fld (s.rd ((s.dctx n).entryAt + 8 * 31) 8) 0 8) = true := by
    rw [fld_low]
    exact hk
  rw [takeEntry, event_on h (State.moves_of_ready (State.takes_iff.1 h).1)]
  simp only [hp, hb, hk', Bool.true_eq_false, Bool.false_eq_true, if_false, if_true]
  rfl

end

end Sys2Proof.Machine
end

section
/-! SUPPORT. Queue registers, and the entries that are no launch (R327 to R329, R339). -/

set_option Elab.async false

namespace Sys2Proof.Machine

open Sys2Proof

theorem keep_low (v : Word) (hi : Nat) : keep v hi 0 = BitVec.ofNat 64 (v.toNat % 2 ^ (hi + 1)) := by
  rw [keep, fld_low, Nat.pow_zero, Nat.mul_one]
  rfl

/-! Queue registers. -/

section
variable {s : State} {n : Nat} (v : Word) (hs : s.still = false) (hn : n < 64)
include hs hn

theorem qtailDoorbell_run : exec (.qtailDoorbell n v) s = .next (s.qtailWrite n v) := by
  show execQtailDoorbell n v s = _
  rw [execQtailDoorbell, event_on (decide_eq_true hn) hs]

omit hs hn in
theorem State.qtailWrite_dctx : (s.qtailWrite n v).dctx n =
    if (s.dctx n).qsize.toNat ≤ v.toNat % 2 ^ 16 then ({ s.dctx n with qtail := BitVec.ofNat 64 (v.toNat % 2 ^ 16) } : DevCtx).setStat 4 4 1 else { s.dctx n with qtail := BitVec.ofNat 64 (v.toNat % 2 ^ 16) } := by
  have hlt : v.toNat % 2 ^ 16 % 2 ^ 64 = v.toNat % 2 ^ 16 := by omega
  unfold State.qtailWrite
  rw [keep_low]
  dsimp only
  rw [State.dctx_setDctx_same, BitVec.toNat_ofNat, hlt]

theorem qtailDoorbell_spec : ∃ t, exec (.qtailDoorbell n v) s = .next t ∧ (t.dctx n).qtail = BitVec.ofNat 64 (v.toNat % 2 ^ 16)
    ∧ ((s.dctx n).qsize.toNat ≤ v.toNat % 2 ^ 16 → fld (t.dctx n).qstat.toNat 4 4 = 1) ∧ (v.toNat % 2 ^ 16 < (s.dctx n).qsize.toNat → (t.dctx n).qstat = (s.dctx n).qstat)
    ∧ (t.dctx n).qhead = (s.dctx n).qhead := by
  refine ⟨_, qtailDoorbell_run v hs hn, ?_⟩
  rw [State.qtailWrite_dctx]
  by_cases h : (s.dctx n).qsize.toNat ≤ v.toNat % 2 ^ 16
  · rw [if_pos h]
    exact ⟨rfl, fun _ => DevCtx.setStat_err _ 1, fun h' => absurd h (Nat.not_le.2 h'), rfl⟩
  · rw [if_neg h]
    exact ⟨rfl, fun h' => absurd h' h, fun _ => rfl, rfl⟩

theorem qsizeWrite_run : exec (.qsizeWrite n v) s = .next (if (s.dctx n).launch.isSome then s else s.setDctx n { s.dctx n with qsize := keep v 15 0, qstat := 0 }) := by
  show execQsizeWrite n v s = _
  rw [execQsizeWrite, event_on (decide_eq_true hn) hs]
  rfl

omit hn in
theorem registerWrite_run {off : Nat} (h : (off % 8 == 0 && !hasBehaviour off) = true) : exec (.registerWrite off v) s = .next (s.plainWrite off v) := by
  show execRegisterWrite off v s = _
  rw [execRegisterWrite, event_on h hs]

theorem qbasepWrite_run (hl : (s.dctx n).launch = none) : exec (.registerWrite (0x10000 + 64 * n) v) s = .next (s.setDctx n { s.dctx n with qbasep := keep v 55 0 }) := by
  have hoff : ((0x10000 + 64 * n) % 8 == 0 && !hasBehaviour (0x10000 + 64 * n)) = true := by
    unfold hasBehaviour
    simp
    omega
  have hin : 0x10000 ≤ 0x10000 + 64 * n ∧ 0x10000 + 64 * n < 0x11000 := by omega
  have hidx : (0x10000 + 64 * n - 0x10000) / 64 = n := by omega
  have hreg : (0x10000 + 64 * n) % 64 / 8 = 0 := by omega
  rw [registerWrite_run v hs hoff, State.plainWrite, if_pos hin]
  simp only [hidx, hreg, hl, Option.isSome_none, Bool.false_eq_true, if_false]

theorem ptrootWrite_run : exec (.registerWrite (0x20000 + 64 * n) v) s = .next (if s.resident = some n then s else s.setDctx n { s.dctx n with ptroot := keep v 55 12 }) := by
  have hoff : ((0x20000 + 64 * n) % 8 == 0 && !hasBehaviour (0x20000 + 64 * n)) = true := by
    unfold hasBehaviour
    simp
    omega
  have hin : ¬(0x10000 ≤ 0x20000 + 64 * n ∧ 0x20000 + 64 * n < 0x11000) := by omega
  have hin' : 0x20000 ≤ 0x20000 + 64 * n ∧ 0x20000 + 64 * n < 0x21000 := by omega
  have hidx : (0x20000 + 64 * n - 0x20000) / 64 = n := by omega
  have hreg : (0x20000 + 64 * n) % 64 / 8 = 0 := by omega
  rw [registerWrite_run v hs hoff, State.plainWrite, if_neg hin, if_pos hin']
  simp only [hidx, hreg]

omit hn in
theorem pwcapWrite_run : exec (.registerWrite 0x50038 v) s = .next { s with regs := { s.regs with pwcap := BitVec.ofNat 64 (v.toNat % 2 ^ 12) } } := by
  rw [registerWrite_run v hs (by decide), ← keep_low v 11]
  rfl

end

/-! Entries that are no launch. -/

theorem zeros_iff {w : Nat → Nat} {lo hi : Nat} : zeros w lo hi = true ↔ ∀ i, lo ≤ i → i ≤ hi → w i = 0 := by
  rw [zeros, List.all_eq_true]
  refine ⟨fun h i hlo hhi => ?_, fun h i hi => ?_⟩
  · have := h (i - lo) (List.mem_range.2 (by omega))
    rw [beq_iff_eq] at this
    rwa [Nat.add_sub_cancel' hlo] at this
  · rw [beq_iff_eq]
    rw [List.mem_range] at hi
    exact h _ (by omega) (by omega)

theorem State.advance_dctx (s : State) (n : Nat) : (s.advance n).dctx n = { s.dctx n with qhead := BitVec.ofNat 64 (((s.dctx n).qhead.toNat + 1) % (s.dctx n).qsize.toNat) } := by
  rw [State.advance]
  exact State.dctx_setDctx_same _ _ _

theorem State.entryWord_lt (s : State) (n i : Nat) : s.entryWord n i < 2 ^ 64 := mread_lt _ _ _

section
variable {s : State} {n : Nat} (h : s.takes n = true) (hp : s.physOk (s.dctx n).entryAt 256 = true)
include h hp

theorem entries_held (hb : s.placeHeld (placeOf (s.dctx n).entryAt) (s.dctx n).entryAt 256 = true) : ∀ i ∈ [Instr.queueNop n, .rules n, .signal n, .launch n], exec i s = .next s := by
  intro i hi
  simp only [List.mem_cons, List.not_mem_nil, or_false] at hi
  rcases hi with rfl | rfl | rfl | rfl
  · show execQueueNop n s = _
    rw [execQueueNop, takeEntry_held h hp hb]
  · show execRules n s = _
    rw [execRules, takeEntry_held h hp hb]
  · show execSignal n s = _
    rw [execSignal, takeEntry_held h hp hb]
  · show execLaunch n s = _
    rw [execLaunch, takeEntry_held h hp hb]

variable (hb : s.placeHeld (placeOf (s.dctx n).entryAt) (s.dctx n).entryAt 256 = false)
include hb

theorem queueNop_nothing (hk : s.entryWord n 31 = 0) (hz : ∀ i, i < 31 → s.entryWord n i = 0) : exec (.queueNop n) s = .next (s.advance n) := by
  have hzeros : zeros (s.entryWord n) 0 30 = true := zeros_iff.2 fun i _ hi => hz i (by omega)
  show execQueueNop n s = _
  rw [execQueueNop, takeEntry_run h hp hb (by rw [hk]; rfl)]
  simp only [hk, hzeros, and_self, if_true]

theorem queueNop_unknown (hk : 3 < s.entryWord n 31 % 256) : exec (.queueNop n) s = .next (s.refuse n) := by
  have hne : ¬(s.entryWord n 31 = 0 ∧ zeros (s.entryWord n) 0 30 = true) := fun h0 => by
    rw [h0.1] at hk
    omega
  show execQueueNop n s = _
  rw [execQueueNop, takeEntry_run h hp hb (by simp [hk])]
  simp only [if_neg hne]

theorem rules_loaded (hk : s.entryWord n 31 = 2) (hz : ∀ i, 1 ≤ i → i < 31 → s.entryWord n i = 0) (ha : s.entryWord n 0 % 128 = 0) (hl : s.entryWord n 0 + 2048 ≤ 0x8000000000)
    (hbad : s.badLine [] (s.entryWord n 0) 2048 = none) (hj : s.jobs = []) :
    exec (.rules n) s = .next ((s.setDctx n { s.dctx n with rules := mcopy [] 0 s.mem (s.entryWord n 0) 2048 }).advance n) := by
  have hzeros : zeros (s.entryWord n) 1 30 = true := zeros_iff.2 fun i h1 hi => hz i h1 (by omega)
  show execRules n s = _
  rw [execRules, takeEntry_run h hp hb (by rw [hk]; rfl)]
  simp only [hk, hzeros, ha, Nat.not_lt.2 hl, hbad, hj, ne_eq, not_true_eq_false, Bool.true_eq_false, Bool.false_eq_true, Option.isSome_none, or_self, if_false, List.any_nil]

variable (hk : s.entryWord n 31 = 3) (hz : ∀ i, 2 ≤ i → i < 31 → s.entryWord n i = 0) (ha : s.entryWord n 0 % 8 = 0) (hl : s.entryWord n 0 < 0x8000000000)
include hk hz ha hl

theorem signal_run : exec (.signal n) s = .next (if s.blockBusy (s.entryWord n 0) 8 then s
    else if ((s.advance n).badLine [] (s.entryWord n 0) 8).isSome then s.advance n else (s.advance n).storeHome .here (s.entryWord n 0) 8 (s.entryWord n 1)) := by
  have hzeros : zeros (s.entryWord n) 2 30 = true := zeros_iff.2 fun i h1 hi => hz i h1 (by omega)
  have hplace : placeOf (s.entryWord n 0) = .here := by rw [placeOf, if_pos hl]
  have hheld : s.placeHeld .here (s.entryWord n 0) 8 = s.blockBusy (s.entryWord n 0) 8 := by
    simp [State.placeHeld]
  show execSignal n s = _
  rw [execSignal, takeEntry_run h hp hb (by rw [hk]; rfl)]
  simp only [hk, hzeros, ha, hplace, hheld, ne_eq, not_true_eq_false, Bool.true_eq_false, or_self, if_false, true_and, reduceCtorEq]

theorem signal_held (hbusy : s.blockBusy (s.entryWord n 0) 8 = true) : exec (.signal n) s = .next s := by
  rw [signal_run h hp hb hk hz ha hl, if_pos hbusy]

theorem signal_sent (hbusy : s.blockBusy (s.entryWord n 0) 8 = false) (hbad : s.badLine [] (s.entryWord n 0) 8 = none) (hplain : s.plain (s.entryWord n 0) 8) :
    exec (.signal n) s = .next ((s.advance n).pierWrite (s.entryWord n 0) 8 (s.entryWord n 1)) := by
  have hpages : s.samePages (s.advance n) := State.samePages_setDctx (State.listed_of_takes h) rfl
  have hbad' : (s.advance n).badLine [] (s.entryWord n 0) 8 = none := hbad
  rw [signal_run h hp hb hk hz ha hl, hbusy, hbad', if_neg (by decide), if_neg (by decide), State.storeHome_plain (State.plain_of_samePages hpages rfl hplain)]

end

end Sys2Proof.Machine
end

section
/-! SUPPORT. Cluster queues and deques as records are placed on them (R236, R332, R335), and the completion of a launch (R331, R333). -/

set_option Elab.async false

namespace Sys2Proof.Machine

open Sys2Proof

/-! Records on queues and deques. -/

namespace State

variable (s : State)

theorem enqueue_queues (cl lvl : Nat) (e : QEnt) (k : Nat) : ((s.enqueue cl lvl e).cluster k).queues =
    if k = cl then (s.cluster cl).queues.setIfInBounds lvl (vget (s.cluster cl).queues lvl [] ++ [{ e with tick := s.tick }]) else (s.cluster k).queues := by
  have hw := Wrote.writeLink s (32 * cl) e
  unfold State.enqueue
  dsimp only
  rw [State.cluster_setCluster]
  split
  · rw [hw.queues, hw.tick]
  · exact hw.queues k

/-- A level of a cluster queue after a record has come to it. -/
theorem enqueue_level {cl lvl : Nat} (h : lvl < 4) (e : QEnt) : vget ((s.enqueue cl lvl e).cluster cl).queues lvl [] = vget (s.cluster cl).queues lvl [] ++ [{ e with tick := s.tick }] := by
  rw [enqueue_queues, if_pos rfl]
  exact vget_set_same _ h _ _

theorem enqueue_level_mem {cl lvl : Nat} {e : QEnt} {k l : Nat} {x : QEnt} (hx : x ∈ vget (s.cluster k).queues l []) : x ∈ vget ((s.enqueue cl lvl e).cluster k).queues l [] := by
  rw [enqueue_queues]
  split
  · subst_vars
    by_cases hl : l = lvl
    · subst hl
      by_cases h4 : l < 4
      · rw [vget_set_same _ h4]
        exact List.mem_append_left _ hx
      · have hout : (s.cluster k).queues.setIfInBounds l (vget (s.cluster k).queues l [] ++ [{ e with tick := s.tick }]) = (s.cluster k).queues := by
          simp [Vector.setIfInBounds_eq_of_size_le (Nat.not_lt.1 h4)]
        rw [hout]
        exact hx
    · rw [vget_set_other _ hl]
      exact hx
  · exact hx

theorem enqueue_core (cl lvl : Nat) (e : QEnt) (k : Nat) : (s.enqueue cl lvl e).core k = s.core k := State.core_congr (writeLink_cores s _ e) k

variable {s} in
theorem enqueue_frame {cl lvl : Nat} {e : QEnt} {α : Type} {f : State → α}
    (hw : ∀ (t : State) m lm p d cl q, f { t with mem := m, lineMeta := lm, poison := p, digests := d, clusters := cl, late := q } = f t)
    (hc : ∀ (t : State) n c, f (t.setCluster n c) = f t) : f (s.enqueue cl lvl e) = f s := by
  obtain ⟨m, lm, p, d, c, q, h⟩ := s.writeLink_eq (32 * cl) e
  unfold State.enqueue
  dsimp only
  rw [hc, h, hw]

/-- A push on a deque that is not full leaves the cluster queues and the other deques. -/
theorem pushDeque_deque (core : Nat) (e : QEnt) (k : Nat) : ((s.pushDeque core e).core k).deque =
    if k = core ∧ (s.core core).deque.length < 256 then (s.core core).deque ++ [{ e with tick := s.tick }] else (s.core k).deque := by
  have hw := Wrote.writeLink s core e
  unfold State.pushDeque
  split
  · rw [if_neg (by omega), enqueue_core]
  · dsimp only
    rw [State.core_setCore]
    by_cases hk : k = core
    · rw [if_pos hk, if_pos ⟨hk, by omega⟩, hw.tick, hw.deque]
    · rw [if_neg hk, if_neg fun h => hk h.1, hw.deque]

end State

/-! The completion of a launch. -/

section
variable {s : State} {n : Nat}

theorem Wrote.writeBytes (s : State) (places bs : List Nat) : Wrote s (s.writeBytes places bs) := by
  unfold State.writeBytes
  exact Wrote.foldl (fun u _ => Wrote.storeHome u _ _ _ _) _ (Wrote.refl s)

/-- A device context whose launch has completed with a status (R331, R333). -/
def State.completedCtx (s : State) (n : Nat) (l : Launch) (status : Nat) : DevCtx :=
  let d := (s.dctx n).setStat 12 4 status
  let d := if l.completion.isNone then d.setStat 16 16 l.entry else d
  { d with launch := none, live := 0, aborting := false, lnch := d.lnch + 1 }

/-- The bytes of a completion record (R333). -/
def completionBytes (status sum ticks created : Nat) : List Nat := toBytes 8 status ++ toBytes 8 sum ++ toBytes 8 ticks ++ toBytes 8 created

/-- The state with a launch ended, before its completion record is written. -/
def State.launchEnded (s : State) (n : Nat) (l : Launch) (status : Nat) : State := { s with digests := tdel s.digests n }.setDctx n (s.completedCtx n l status)

theorem State.complete_eq (s : State) (n : Nat) (l : Launch) (status ticks : Nat) : ∃ v, s.complete n l status ticks =
    { (s.launchEnded n l status).writeBytes (l.completion.getD []) (completionBytes status (s.digestSum n) ticks l.created) with msix := v } ∧ v.length = s.msix.length + 1 := by
  have hw := Wrote.writeBytes (s.launchEnded n l status) (l.completion.getD []) (completionBytes status (s.digestSum n) ticks l.created)
  have hmsix : ((s.launchEnded n l status).writeBytes (l.completion.getD []) (completionBytes status (s.digestSum n) ticks l.created)).msix = s.msix := hw.keeps State.msix fun _ _ _ _ _ _ _ _ => rfl
  obtain ⟨entry, completion, dsize, firstTick, super, created⟩ := l
  cases completion with
  | none => exact ⟨_, rfl, List.length_append.trans (congrArg (fun v : List Nat => v.length + 1) hmsix)⟩
  | some xs => exact ⟨_, rfl, List.length_append.trans (congrArg (fun v : List Nat => v.length + 1) hmsix)⟩

theorem State.completedCtx_status (s : State) (n : Nat) (l : Launch) (status : Nat) : fld (s.completedCtx n l status).qstat.toNat 12 4 = status % 16 := by
  unfold State.completedCtx
  dsimp only
  split
  · exact DevCtx.setStat_status_ridx _ _ _
  · exact DevCtx.setStat_status _ _

theorem State.completedCtx_rest (s : State) (n : Nat) (l : Launch) (status : Nat) :
    (s.completedCtx n l status).launch = none ∧ (s.completedCtx n l status).aborting = false ∧ (s.completedCtx n l status).qhead = (s.dctx n).qhead ∧ (s.completedCtx n l status).lnch = (s.dctx n).lnch + 1
      ∧ (s.completedCtx n l status).ptroot = (s.dctx n).ptroot := by
  unfold State.completedCtx
  dsimp only
  split <;> simp only [DevCtx.setStat_rest, and_self]

/-- What the completion of a launch leaves of its device context and of the contexts. -/
theorem State.complete_spec (s : State) (n : Nat) (l : Launch) (status ticks : Nat) :
    (s.complete n l status ticks).dctx n = s.completedCtx n l status ∧ (s.complete n l status ticks).ctxs = s.ctxs ∧ (s.complete n l status ticks).fwq = s.fwq
      ∧ (s.complete n l status ticks).msix.length = s.msix.length + 1
      ∧ (s.complete n l status ticks).mem = ((s.launchEnded n l status).writeBytes (l.completion.getD []) (completionBytes status (s.digestSum n) ticks l.created)).mem := by
  have hw := Wrote.writeBytes (s.launchEnded n l status) (l.completion.getD []) (completionBytes status (s.digestSum n) ticks l.created)
  obtain ⟨v, hv, hlen⟩ := s.complete_eq n l status ticks
  rw [hv]
  refine ⟨?_, hw.ctxs, hw.keeps State.fwq fun _ _ _ _ _ _ _ _ => rfl, hlen, rfl⟩
  exact (State.dctx_congr hw.devctxs n).trans (State.dctx_setDctx_same _ _ _)

end

end Sys2Proof.Machine
end

section
/-! SUPPORT. LAUNCH (R330 to R332): the launches that do not start, the start, and the places of the records. -/

set_option Elab.async false

namespace Sys2Proof.Machine

open Sys2Proof

theorem State.readTemplate_some {s u : State} {n : Nat} (h : s.readTemplate n = some u) : ∃ v, u = s.setDctx n { s.dctx n with template := v } := by
  unfold State.readTemplate at h
  dsimp only at h
  split at h
  · cases h
  · exact ⟨_, (Option.some.inj h).symm⟩

/-- A launch that does not start: it completes at once with its status. -/
def State.stopLaunch (s : State) (n status : Nat) (completion : Option (List Nat)) : State :=
  (s.advance n).complete n { entry := (s.dctx n).qhead.toNat, completion } status 0

/-- The places of a run of bytes are found exactly where all of them pass as a store. -/
theorem State.placesOf_isNone (s : State) (n va len : Nat) : (s.placesOf n va len).isNone = !s.storable n va len := by
  unfold State.placesOf
  split
  · rename_i hst
    rw [hst]
    rfl
  · rename_i hst
    rw [eq_false_of_ne_true hst]
    rfl

/-! The steps of a start. -/

section
variable (s : State)

theorem State.latchAll_eq : ∃ l, s.latchAll = { s with latched := l } := by
  have hlatch : ∀ (t : State) g d, (∃ l, t = { s with latched := l }) → ∃ l, t.latch g d = { s with latched := l } := fun t g d ⟨l, ht⟩ => by
    subst ht
    unfold State.latch
    split
    · exact ⟨_, rfl⟩
    · exact ⟨_, rfl⟩
  unfold State.latchAll
  refine foldl_keeps (P := fun t : State => ∃ l, t = { s with latched := l }) (fun t e ht => ?_) s.cores ⟨_, rfl⟩
  refine foldl_keeps (P := fun t : State => ∃ l, t = { s with latched := l }) (fun u g hu => ?_) (List.range 8) ht
  split
  · exact hlatch u _ _ hu
  · exact hu

theorem State.startDigest_eq (n base size : Nat) : ∃ d lm, s.startDigest n base size = { s with digests := d, lineMeta := lm } := by
  unfold State.startDigest
  split
  · exact ⟨_, _, rfl⟩
  · exact ⟨_, _, rfl⟩

theorem Wrote.cethenWrite (n va v : Nat) : Wrote s (s.cethenWrite n va v) := by
  unfold State.cethenWrite
  refine Wrote.foldl (fun u p => ?_) _ (Wrote.refl s)
  split
  · exact Wrote.storeHome u _ _ _ _
  · exact Wrote.refl u

theorem Wrote.writeRecord (n : Nat) (w : Nat → Nat) (i : Nat) : Wrote s (s.writeRecord n w i) := by
  unfold State.writeRecord
  exact Wrote.foldl (fun u _ => Wrote.cethenWrite u _ _ _) _ (Wrote.refl s)

end

/-! The places of the records. -/

/-- The queue entry of record i of a launch. -/
def launchEnt (n : Nat) (w : Nat → Nat) (i : Nat) : QEnt := { rcd := w64 (w 7 + 64 * i), dc := n, prio := fld (w 4) 0 2 }

section
variable (s : State) (n : Nat) (w : Nat → Nat)

theorem placeRecord_queue (h : fld (w 5) 22 2 = 0) (i : Nat) : s.placeRecord n w i = s.enqueue (i % 48) (fld (w 4) 0 2) (launchEnt n w i) := by
  unfold State.placeRecord
  rw [if_pos h]
  rfl

theorem placeRecord_pinned (h : fld (w 5) 22 2 ≠ 0) (i : Nat) : s.placeRecord n w i = s.pushDeque i { launchEnt n w i with pin := some i } := by
  unfold State.placeRecord
  rw [if_neg h]
  rfl

/-- The states once the first records of a launch have been placed. -/
def State.placed (c : Nat) : State := (List.range c).foldl (fun s i => s.placeRecord n w i) s

theorem State.placed_succ (c : Nat) : s.placed n w (c + 1) = (s.placed n w c).placeRecord n w c := by
  rw [placed, List.range_succ, List.foldl_append]
  rfl

theorem State.placed_frame {α : Type} {f : State → α}
    (hw : ∀ (t : State) m lm p d cl q, f { t with mem := m, lineMeta := lm, poison := p, digests := d, clusters := cl, late := q } = f t)
    (hc : ∀ (t : State) n c, f (t.setCluster n c) = f t) (hk : ∀ (t : State) n c, f (t.setCore n c) = f t) (c : Nat) : f (s.placed n w c) = f s := by
  induction c with
  | zero => rfl
  | succ c ih =>
    rw [State.placed_succ]
    by_cases h : fld (w 5) 22 2 = 0
    · rw [placeRecord_queue _ _ _ h]
      exact (State.enqueue_frame hw hc).trans ih
    · rw [placeRecord_pinned _ _ _ h]
      exact (State.pushDeque_frame hw hc hk).trans ih

/-- Record i lies on its cluster queue once it has been placed. -/
theorem State.placed_queue (h : fld (w 5) 22 2 = 0) {i c : Nat} (hi : i < c) :
    ∃ e ∈ vget ((s.placed n w c).cluster (i % 48)).queues (fld (w 4) 0 2) [], e.rcd = w64 (w 7 + 64 * i) ∧ e.dc = n ∧ e.pin = none := by
  have hlvl : fld (w 4) 0 2 < 4 := fld_lt _ _ _
  induction c with
  | zero => omega
  | succ c ih =>
    rw [State.placed_succ, placeRecord_queue _ _ _ h]
    by_cases hic : i = c
    · subst hic
      rw [State.enqueue_level _ hlvl]
      exact ⟨_, List.mem_append_right _ (List.mem_singleton.2 rfl), rfl, rfl, rfl⟩
    · obtain ⟨e, he, hspec⟩ := ih (by omega)
      exact ⟨e, State.enqueue_level_mem _ he, hspec⟩

/-- The deque of a core whose record has not been placed yet. -/
theorem State.placed_deque (h : fld (w 5) 22 2 ≠ 0) {i c : Nat} (hi : c ≤ i) : ((s.placed n w c).core i).deque = (s.core i).deque := by
  induction c with
  | zero => rfl
  | succ c ih =>
    rw [State.placed_succ, placeRecord_pinned _ _ _ h, State.pushDeque_deque, if_neg (by omega)]
    exact ih (by omega)

/-- Record i lies pinned on the deque of core i once it has been placed. -/
theorem State.placed_pinned (h : fld (w 5) 22 2 ≠ 0) {i c : Nat} (hi : i < c) (hd : (s.core i).deque.length < 256) :
    ∃ e ∈ ((s.placed n w c).core i).deque, e.rcd = w64 (w 7 + 64 * i) ∧ e.dc = n ∧ e.pin = some i := by
  induction c with
  | zero => omega
  | succ c ih =>
    rw [State.placed_succ, placeRecord_pinned _ _ _ h, State.pushDeque_deque]
    by_cases hic : i = c
    · subst hic
      rw [State.placed_deque s n w h (Nat.le_refl i), if_pos ⟨rfl, hd⟩]
      exact ⟨_, List.mem_append_right _ (List.mem_singleton.2 rfl), rfl, rfl, rfl⟩
    · rw [if_neg fun h0 => hic h0.1]
      exact ih (by omega)

end

/-! The start of a launch. -/

/-- The launch that starts. -/
def State.newLaunch (s : State) (n : Nat) (w : Nat → Nat) (completion : Option (List Nat)) : Launch :=
  { entry := (s.dctx n).qhead.toNat, completion, dsize := w 18, firstTick := (s.startDigest n (w 17) (w 18)).tick, super := bitOf (w 5) 24 }

/-- The device context whose launch starts. -/
def State.launchCtx (s : State) (n : Nat) (w : Nat → Nat) (completion : Option (List Nat)) : DevCtx :=
  ({ s.dctx n with launch := some (s.newLaunch n w completion), live := 0, regions := if bitOf (w 5) 24 then (s.startDigest n (w 17) (w 18)).readRegions (fld (s.dctx n).rtbase.toNat 16 40 * 2 ^ 16) else (s.dctx n).regions } : DevCtx).born (fld (w 5) 0 21)

/-- The state at the start of a launch, before its records are written. -/
def State.launchBegun (s : State) (n : Nat) (w : Nat → Nat) (completion : Option (List Nat)) : State :=
  (({ (s.startDigest n (w 17) (w 18)).setDctx n (s.launchCtx n w completion) with truss := launchTruss w } : State).latchAll).advance n

section
variable (s : State) (n : Nat) (w : Nat → Nat) (completion : Option (List Nat))

theorem State.startLaunch_eq : s.startLaunch n w completion =
    ((List.range (fld (w 5) 0 21)).foldl (fun s i => s.writeRecord n w i) (s.launchBegun n w completion)).placed n w (fld (w 5) 0 21) := rfl

theorem State.launchBegun_spec :
    (s.launchBegun n w completion).ctxs = s.ctxs ∧ (s.launchBegun n w completion).cores = s.cores ∧ (s.launchBegun n w completion).truss = launchTruss w
      ∧ (s.launchBegun n w completion).dctx n = { s.launchCtx n w completion with qhead := BitVec.ofNat 64 (((s.dctx n).qhead.toNat + 1) % (s.dctx n).qsize.toNat) } := by
  obtain ⟨l, hl⟩ := State.latchAll_eq { (s.startDigest n (w 17) (w 18)).setDctx n (s.launchCtx n w completion) with truss := launchTruss w }
  obtain ⟨d, lm, hd⟩ := s.startDigest_eq n (w 17) (w 18)
  unfold State.launchBegun
  rw [State.advance_dctx, hl]
  have hctx : ({ (s.startDigest n (w 17) (w 18)).setDctx n (s.launchCtx n w completion) with truss := launchTruss w, latched := l } : State).dctx n = s.launchCtx n w completion :=
    State.dctx_setDctx_same (s.startDigest n (w 17) (w 18)) _ _
  refine ⟨?_, ?_, rfl, ?_⟩
  · show (s.startDigest n (w 17) (w 18)).ctxs = s.ctxs
    rw [hd]
  · show (s.startDigest n (w 17) (w 18)).cores = s.cores
    rw [hd]
  · rw [hctx]
    rfl

/-- A launch that starts: it runs with its records live, each at its place (R332). -/
theorem State.startLaunch_spec :
    let t := s.startLaunch n w completion
    t.dctx n = { s.launchCtx n w completion with qhead := BitVec.ofNat 64 (((s.dctx n).qhead.toNat + 1) % (s.dctx n).qsize.toNat) } ∧ t.truss = launchTruss w ∧ t.ctxs = s.ctxs
      ∧ ∀ i, i < fld (w 5) 0 21 →
        (fld (w 5) 22 2 = 0 → ∃ e ∈ vget (t.cluster (i % 48)).queues (fld (w 4) 0 2) [], e.rcd = w64 (w 7 + 64 * i) ∧ e.dc = n ∧ e.pin = none)
        ∧ (fld (w 5) 22 2 ≠ 0 → (s.core i).deque.length < 256 → ∃ e ∈ (t.core i).deque, e.rcd = w64 (w 7 + 64 * i) ∧ e.dc = n ∧ e.pin = some i) := by
  intro t
  obtain ⟨hctxs, hcores, htruss, hdctx⟩ := s.launchBegun_spec n w completion
  have hw := Wrote.foldl (f := fun s i => State.writeRecord s n w i) (fun u i => Wrote.writeRecord u n w i) (List.range (fld (w 5) 0 21)) (Wrote.refl (s.launchBegun n w completion))
  have ht : t = ((List.range (fld (w 5) 0 21)).foldl (fun s i => s.writeRecord n w i) (s.launchBegun n w completion)).placed n w (fld (w 5) 0 21) := s.startLaunch_eq n w completion
  rw [ht]
  refine ⟨?_, ?_, ?_, fun i hi => ⟨fun h => State.placed_queue _ _ _ h hi, fun h hd => State.placed_pinned _ _ _ h hi ?_⟩⟩
  · exact (State.placed_frame (f := fun t => t.dctx n) _ _ _ (fun _ _ _ _ _ _ _ => rfl) (fun _ _ _ => rfl) (fun _ _ _ => rfl) _).trans ((State.dctx_congr hw.devctxs n).trans hdctx)
  · exact (State.placed_frame (f := State.truss) _ _ _ (fun _ _ _ _ _ _ _ => rfl) (fun _ _ _ => rfl) (fun _ _ _ => rfl) _).trans
      ((hw.keeps State.truss fun _ _ _ _ _ _ _ _ => rfl).trans htruss)
  · exact (State.placed_frame (f := State.ctxs) _ _ _ (fun _ _ _ _ _ _ _ => rfl) (fun _ _ _ => rfl) (fun _ _ _ => rfl) _).trans (hw.ctxs.trans hctxs)
  · rw [hw.deque, State.core_congr hcores]
    exact hd

end

/-! LAUNCH. -/

section
variable {s u : State} {n : Nat} (h : s.takes n = true) (hp : s.physOk (s.dctx n).entryAt 256 = true)
  (hb : s.placeHeld (placeOf (s.dctx n).entryAt) (s.dctx n).entryAt 256 = false) (hk : s.entryWord n 31 % 256 = 1)
include h hp hb hk

theorem launch_held (hh : s.launchHeld n (s.entryWord n) = true) : exec (.launch n) s = .next s := by
  show execLaunch n s = _
  rw [execLaunch, takeEntry_run h hp hb (by rw [hk]; rfl)]
  simp only [hh, if_true]

variable (hh : s.launchHeld n (s.entryWord n) = false)
include hh

theorem launch_noTemplate (ht : s.readTemplate n = none) : exec (.launch n) s = .next (s.setDctx n ((s.dctx n).setStat 4 4 3)) := by
  show execLaunch n s = _
  rw [execLaunch, takeEntry_run h hp hb (by rw [hk]; rfl)]
  simp only [hh, ht, Bool.false_eq_true, if_false]

variable (ht : s.readTemplate n = some u)
include ht

theorem launch_bad (hl : launchOk (s.entryWord n) = false) : exec (.launch n) s = .next (u.stopLaunch n 1 (u.placesOf n (s.entryWord n 19) 32)) := by
  show execLaunch n s = _
  rw [execLaunch, takeEntry_run h hp hb (by rw [hk]; rfl)]
  simp only [hh, ht, hl, Bool.false_eq_true, if_false, if_true]
  rfl

variable (hl : launchOk (s.entryWord n) = true)
include hl

theorem launch_fenced (hf : u.spreadFenced (s.entryWord n) = true) :
    exec (.launch n) s = .next (({ u with regs := { u.regs with raslast := 1 } } : State).stopLaunch n 1 (u.placesOf n (s.entryWord n 19) 32)) := by
  show execLaunch n s = _
  rw [execLaunch, takeEntry_run h hp hb (by rw [hk]; rfl)]
  simp only [hh, ht, hl, hf, Bool.false_eq_true, Bool.true_eq_false, if_false, if_true]
  rfl

variable (hf : u.spreadFenced (s.entryWord n) = false)
include hf

theorem launch_unstorable (hst : u.storable n (s.entryWord n 19) 32 = false ∨ u.storable n (s.entryWord n 7) (64 * fld (s.entryWord n 5) 0 21) = false
      ∨ u.storable n (s.entryWord n 8) (fld (s.entryWord n 5) 0 21 * s.entryWord n 6) = false) :
    exec (.launch n) s = .next (u.stopLaunch n 2 (u.placesOf n (s.entryWord n 19) 32)) := by
  have hbad : ((u.placesOf n (s.entryWord n 19) 32).isNone || !u.storable n (s.entryWord n 7) (64 * fld (s.entryWord n 5) 0 21)
      || !u.storable n (s.entryWord n 8) (fld (s.entryWord n 5) 0 21 * s.entryWord n 6)) = true := by
    rw [State.placesOf_isNone]
    rcases hst with hst | hst | hst <;> simp [hst]
  show execLaunch n s = _
  rw [execLaunch, takeEntry_run h hp hb (by rw [hk]; rfl)]
  simp only [hh, ht, hl, hf, hbad, Bool.false_eq_true, Bool.true_eq_false, if_false, if_true]
  rfl

variable (h19 : u.storable n (s.entryWord n 19) 32 = true) (h7 : u.storable n (s.entryWord n 7) (64 * fld (s.entryWord n 5) 0 21) = true)
  (h8 : u.storable n (s.entryWord n 8) (fld (s.entryWord n 5) 0 21 * s.entryWord n 6) = true)
include h19 h7 h8

theorem launch_checked : exec (.launch n) s = .next (if u.digestOverlaps n (s.entryWord n 17) (s.entryWord n 18) then u.stopLaunch n 4 (u.placesOf n (s.entryWord n 19) 32)
    else u.startLaunch n (s.entryWord n) (u.placesOf n (s.entryWord n 19) 32)) := by
  have hgood : ((u.placesOf n (s.entryWord n 19) 32).isNone || !u.storable n (s.entryWord n 7) (64 * fld (s.entryWord n 5) 0 21)
      || !u.storable n (s.entryWord n 8) (fld (s.entryWord n 5) 0 21 * s.entryWord n 6)) = false := by
    rw [State.placesOf_isNone, h19, h7, h8]
    rfl
  show execLaunch n s = _
  rw [execLaunch, takeEntry_run h hp hb (by rw [hk]; rfl)]
  simp only [hh, ht, hl, hf, hgood, Bool.false_eq_true, Bool.true_eq_false, if_false]
  rfl

end

/-- What a launch that does not start leaves (R331). -/
theorem State.stopLaunch_spec {s u : State} {n : Nat} (hu : ∃ v r, u = { s.setDctx n { s.dctx n with template := v } with regs := r }) {status : Nat} (hst : status < 16) (completion : Option (List Nat)) :
    ((u.stopLaunch n status completion).dctx n).launch = none ∧ ((u.stopLaunch n status completion).dctx n).qhead = BitVec.ofNat 64 (((s.dctx n).qhead.toNat + 1) % (s.dctx n).qsize.toNat)
      ∧ fld ((u.stopLaunch n status completion).dctx n).qstat.toNat 12 4 = status ∧ (u.stopLaunch n status completion).ctxs = s.ctxs := by
  obtain ⟨v, r, rfl⟩ := hu
  have hd : ({ s.setDctx n { s.dctx n with template := v } with regs := r } : State).dctx n = { s.dctx n with template := v } := State.dctx_setDctx_same s _ _
  obtain ⟨hdctx, hctxs, -⟩ := State.complete_spec (({ s.setDctx n { s.dctx n with template := v } with regs := r } : State).advance n) n
    { entry := (({ s.setDctx n { s.dctx n with template := v } with regs := r } : State).dctx n).qhead.toNat, completion } status 0
  unfold State.stopLaunch
  rw [hdctx]
  obtain ⟨hl, -, hq, -, -⟩ := State.completedCtx_rest (({ s.setDctx n { s.dctx n with template := v } with regs := r } : State).advance n) n
    { entry := (({ s.setDctx n { s.dctx n with template := v } with regs := r } : State).dctx n).qhead.toNat, completion } status
  refine ⟨hl, ?_, (State.completedCtx_status _ _ _ _).trans (Nat.mod_eq_of_lt hst), hctxs⟩
  rw [hq, State.advance_dctx, hd]

end Sys2Proof.Machine
end

section
/-! SUPPORT. The completion record of a launch (R333). -/

set_option Elab.async false

namespace Sys2Proof.Machine

open Sys2Proof

/-- A number read from bytes that are its own. -/
theorem mread_of_bytes {m : Mem} {a n v : Nat} (h : ∀ j, j < n → mget m (a + j) = BitVec.ofNat 8 (v / 256 ^ j)) : mread m a n = v % 256 ^ n := by
  induction n generalizing a v with
  | zero => rw [mread, Nat.pow_zero, Nat.mod_one]
  | succ n ih =>
    have h0 := h 0 (Nat.succ_pos n)
    have htail := ih (a := a + 1) (v := v / 256) fun j hj => by
      rw [Nat.add_assoc, Nat.add_comm 1 j, h (j + 1) (Nat.succ_lt_succ hj), Nat.div_div_eq_div_mul, Nat.pow_succ, Nat.mul_comm]
    rw [Nat.add_zero, Nat.pow_zero, Nat.div_one] at h0
    rw [mread, h0, htail, BitVec.toNat_ofNat, Nat.pow_succ 256, Nat.mul_comm (256 ^ n), Nat.mod_mul]

section
variable {u : State} {pa n : Nat}

/-- Bytes apart from which memory changes keep their record maps. -/
theorem State.plainFor_pierWrite (h : u.plainFor pa n) (hwf : Mem.wf u.mem = true) {a k : Nat} (v : Nat) (hlo : pa ≤ a) (hhi : a + k ≤ pa + n) : (u.pierWrite a k v).plainFor pa n := by
  obtain ⟨lm, p, d, cl, ht⟩ := u.pierWrite_eq a k v
  rw [ht]
  intro m hm hout
  refine h m hm fun x hx => (hout x hx).trans ?_
  exact mget_mwrite_outside hwf v (by omega)

theorem State.plain_of_plainFor (h : u.plainFor pa n) (hwf : Mem.wf u.mem = true) {a k : Nat} (hlo : pa ≤ a) (hhi : a + k ≤ pa + n) : u.plain a k := fun i hi => by
  have hi' := h u.mem hwf (fun _ _ => rfl) (a + i - pa) (by omega)
  rwa [show pa + (a + i - pa) = a + i by omega] at hi'

theorem unplace_here {x : Nat} (h : x < 0x8000000000) : unplace x = (.here, x) := by
  rw [unplace, if_pos (by omega), placeOf, if_pos h]

/-- Bytes written one after the other at places of device memory that no record map touches. -/
theorem State.writeBytes_mem (h : u.plainFor pa n) (hwf : Mem.wf u.mem = true) (hpa : pa + n ≤ 0x8000000000) (bs : List Nat) (i : Nat) (hi : i + bs.length ≤ n) :
    (∀ j, j < bs.length → mget (u.writeBytes ((List.range' i bs.length).map (pa + ·)) bs).mem (pa + i + j) = BitVec.ofNat 8 (bs.getD j 0))
      ∧ ∀ a, a < pa + i ∨ pa + i + bs.length ≤ a → mget (u.writeBytes ((List.range' i bs.length).map (pa + ·)) bs).mem a = mget u.mem a := by
  induction bs generalizing u i with
  | nil => exact ⟨fun j hj => absurd hj (Nat.not_lt_zero j), fun _ _ => rfl⟩
  | cons b bs ih =>
    rw [List.length_cons] at hi ⊢
    have hplain : u.plain (pa + i) 1 := State.plain_of_plainFor h hwf (by omega) (by omega)
    have hstep : u.writeBytes ((List.range' i (bs.length + 1)).map (pa + ·)) (b :: bs) = (u.pierWrite (pa + i) 1 b).writeBytes ((List.range' (i + 1) bs.length).map (pa + ·)) bs := by
      rw [List.range'_succ, List.map_cons, State.writeBytes, List.zip_cons_cons, List.foldl_cons, unplace_here (by omega), State.storeHome_plain hplain]
      rfl
    have hwf' : Mem.wf (u.pierWrite (pa + i) 1 b).mem = true := wf_mwrite hwf _ _ _
    obtain ⟨hin, hout⟩ := ih (State.plainFor_pierWrite h hwf b (by omega) (by omega)) hwf' (i + 1) (by omega)
    rw [hstep]
    refine ⟨fun j hj => ?_, fun a ha => ?_⟩
    · cases j with
      | zero =>
        rw [hout (pa + i + 0) (by omega), State.pierWrite_mem]
        have hbyte := mget_mwrite_inside hwf (a := pa + i) (n := 1) (i := 0) b (Nat.one_pos)
        rwa [Nat.pow_zero, Nat.div_one] at hbyte
      | succ j =>
        rw [show pa + i + (j + 1) = pa + (i + 1) + j by omega, hin j (by omega)]
        rfl
    · rw [hout a (by omega), State.pierWrite_mem, mget_mwrite_outside hwf b (by omega)]

end

/-! The words of a completion record. -/

theorem toBytes_length (n v : Nat) : (toBytes n v).length = n := by
  induction n generalizing v with
  | zero => rfl
  | succ n ih => rw [toBytes, List.length_cons, ih]

theorem toBytes_getD {n v j : Nat} (h : j < n) : (toBytes n v).getD j 0 = v / 256 ^ j % 256 := by
  induction n generalizing v j with
  | zero => omega
  | succ n ih =>
    cases j with
    | zero => rw [toBytes, List.getD_cons_zero, Nat.pow_zero, Nat.div_one]
    | succ j => rw [toBytes, List.getD_cons_succ, ih (Nat.lt_of_succ_lt_succ h), Nat.div_div_eq_div_mul, Nat.pow_succ, Nat.mul_comm 256]

theorem completionBytes_length (a b c d : Nat) : (completionBytes a b c d).length = 32 := by
  simp only [completionBytes, List.length_append, toBytes_length]

/-- Byte j of the last of some words. -/
theorem getD_append_toBytes {l : List Nat} {k : Nat} (hl : l.length = k) (v : Nat) {j : Nat} (hj : j < 8) : (l ++ toBytes 8 v).getD (k + j) 0 = v / 256 ^ j % 256 := by
  rw [List.getD_append_right _ _ _ _ (by omega), hl, Nat.add_sub_cancel_left, toBytes_getD hj]

theorem getD_append_before {l r : List Nat} {k j : Nat} (hl : l.length = k) (hj : j < k) : (l ++ r).getD j 0 = l.getD j 0 := List.getD_append _ _ _ _ (by omega)

/-- Byte j of each word of a completion record. -/
theorem completionBytes_getD (a b c d : Nat) {j : Nat} (hj : j < 8) :
    (completionBytes a b c d).getD j 0 = a / 256 ^ j % 256 ∧ (completionBytes a b c d).getD (8 + j) 0 = b / 256 ^ j % 256
      ∧ (completionBytes a b c d).getD (16 + j) 0 = c / 256 ^ j % 256 ∧ (completionBytes a b c d).getD (24 + j) 0 = d / 256 ^ j % 256 := by
  have h1 : (toBytes 8 a).length = 8 := toBytes_length _ _
  have h2 : (toBytes 8 a ++ toBytes 8 b).length = 16 := by rw [List.length_append, toBytes_length, toBytes_length]
  have h3 : (toBytes 8 a ++ toBytes 8 b ++ toBytes 8 c).length = 24 := by rw [List.length_append, h2, toBytes_length]
  unfold completionBytes
  refine ⟨?_, ?_, ?_, getD_append_toBytes h3 d hj⟩
  · rw [getD_append_before h3 (by omega), getD_append_before h2 (by omega), getD_append_before h1 hj, toBytes_getD hj]
  · rw [getD_append_before h3 (by omega), getD_append_before h2 (by omega), getD_append_toBytes h1 b hj]
  · rw [getD_append_before h3 (by omega), getD_append_toBytes h2 c hj]

/-- The words of a completion record in device memory (R333). -/
theorem State.writeBytes_completion {u : State} {pa : Nat} (h : u.plainFor pa 32) (hwf : Mem.wf u.mem = true) (hpa : pa + 32 ≤ 0x8000000000) (a b c d : Nat) :
    let m := (u.writeBytes ((List.range 32).map (pa + ·)) (completionBytes a b c d)).mem
    mread m pa 8 = a % 2 ^ 64 ∧ mread m (pa + 8) 8 = b % 2 ^ 64 ∧ mread m (pa + 16) 8 = c % 2 ^ 64 ∧ mread m (pa + 24) 8 = d % 2 ^ 64 := by
  intro m
  have hlen := completionBytes_length a b c d
  have hm : ∀ j, j < 32 → mget m (pa + j) = BitVec.ofNat 8 ((completionBytes a b c d).getD j 0) := fun j hj => by
    have hin := (State.writeBytes_mem h hwf hpa (completionBytes a b c d) 0 (by omega)).1 j (by omega)
    rwa [hlen, ← List.range_eq_range', Nat.add_zero] at hin
  have hmod : ∀ x, BitVec.ofNat 8 (x % 256) = BitVec.ofNat 8 x := fun x => by
    apply BitVec.eq_of_toNat_eq
    rw [BitVec.toNat_ofNat, BitVec.toNat_ofNat]
    omega
  refine ⟨mread_of_bytes fun j hj => ?_, mread_of_bytes fun j hj => ?_, mread_of_bytes fun j hj => ?_, mread_of_bytes fun j hj => ?_⟩
  · rw [hm j (by omega), (completionBytes_getD a b c d hj).1, hmod]
  · rw [Nat.add_assoc, hm (8 + j) (by omega), (completionBytes_getD a b c d hj).2.1, hmod]
  · rw [Nat.add_assoc, hm (16 + j) (by omega), (completionBytes_getD a b c d hj).2.2.1, hmod]
  · rw [Nat.add_assoc, hm (24 + j) (by omega), (completionBytes_getD a b c d hj).2.2.2, hmod]

/-! LAUNCH_COMPLETION. -/

section
variable {s : State} {n : Nat} {l : Launch} (hr : s.ready = true) (hn : s.resident = some n) (hl : (s.dctx n).launch = some l) (hlive : (s.dctx n).live = 0) (hab : (s.dctx n).aborting = false)
  (hq : ∀ e ∈ s.cores, e.2.copy.quiet = true ∧ e.2.index.quiet = true ∧ e.2.flight = [])
include hr hn hl hlive hab hq

theorem launchCompletion_run : exec (.launchCompletion n) s = .next (if s.completionHeld l.completion then s else s.complete n l 0 (s.tick - l.firstTick)) := by
  have hall : s.cores.all (fun e => e.2.copy.quiet && e.2.index.quiet && e.2.flight.isEmpty) = true := List.all_eq_true.2 fun e he => by
    obtain ⟨hc, hi, hf⟩ := hq e he
    rw [hc, hi, hf]
    rfl
  show execLaunchCompletion n s = _
  rw [execLaunchCompletion, event_on (by rw [hr, hn]; simp) (State.moves_of_ready hr)]
  simp only [hl, hlive, hab, hall, ne_eq, not_true_eq_false, Bool.true_eq_false, Bool.false_eq_true, false_or]

omit hr hn hlive hab hq in
/-- The record maps over a completion record are the same once the launch has ended. -/
theorem State.plainFor_launchEnded {pa : Nat} (h : s.plainFor pa 32) : (s.launchEnded n l 0).plainFor pa 32 := by
  have hlisted : thas s.devctxs n = true := thas_of_tget (d := ({} : DevCtx)) fun h0 => by
    rw [State.dctx, h0] at hl
    cases hl
  intro m hm hout
  have hpages : ({ s with mem := m, digests := tdel s.digests n } : State).samePages (({ s with mem := m, digests := tdel s.digests n } : State).setDctx n (s.completedCtx n l 0)) :=
    State.samePages_setDctx hlisted (State.completedCtx_rest s n l 0).2.2.2.2
  exact State.plain_of_samePages hpages rfl (h m hm hout)

end

end Sys2Proof.Machine
end

section
/-! SUPPORT. The ends of waits, reads for the device's own use, and pre-emption requests (R359, R362). -/

set_option Elab.async false

namespace Sys2Proof.Machine

open Sys2Proof

/-! Translations and reads in states alike. -/

section
variable {s t : State} (hm : t.mem = s.mem) (hr : t.rmem = s.rmem) (hp : t.poison = s.poison) (hd : t.devctxs = s.devctxs) {core : Nat} (hu : (t.core core).utlb = (s.core core).utlb)
  (hc : (t.cluster (core / 32)).tlb = (s.cluster (core / 32)).tlb)
include hm hp hd hu hc

theorem State.xlate_congr (tr : Trans) (va : Nat) : t.xlate core tr va = s.xlate core tr va := by
  have hwalk : ∀ dc va, t.walk dc va = s.walk dc va := fun dc va => by
    unfold State.walk
    rw [hm, hp, State.dctx_congr hd]
  unfold State.xlate
  simp only [hu, hc, hwalk]

include hr

theorem State.readVa_congr (tr : Trans) (va n : Nat) : t.readVa core tr va n = s.readVa core tr va n := by
  have hx := State.xlate_congr hm hp hd hu hc tr
  have hb : ∀ l pa n, t.badLine l pa n = s.badLine l pa n := fun l pa n => by
    unfold State.badLine
    rw [hp]
  have hrd : ∀ p pa n, t.readPlace p pa n = s.readPlace p pa n := fun p pa n => by
    unfold State.readPlace
    rw [hm, hr]
  unfold State.readVa
  simp only [hx, hb, hrd]

theorem State.checkpoint_congr (c : Ctx) (pc : Word) : t.checkpoint core c pc = s.checkpoint core c pc := by
  have hrd := State.readVa_congr hm hr hp hd hu hc c.trans
  have hscan : ∀ base pc fuel n prev found, t.ckScan core c.trans base pc fuel n prev found = s.ckScan core c.trans base pc fuel n prev found := fun base pc fuel => by
    induction fuel with
    | zero => exact fun _ _ _ => rfl
    | succ fuel ih =>
      intro n prev found
      unfold State.ckScan
      simp only [hrd, ih]
  unfold State.checkpoint
  simp only [hrd, hscan]

end

/-! The ends of waits. -/

/-- What the end of a wait leaves of a context. -/
def Ctx.steady (c : Ctx) : (Vector Word 64 × Vector Vec 64 × BitVec 8 × Vector (BitVec 32) 8 × Vector (BitVec 32) 16 × SRegs) × Word × Bool × Bool × Nat × Option Trap × Word :=
  (c.file, c.pc, c.occ, c.stopped, c.dc, c.trap, c.rcd)

theorem Ctx.steady_iff {c d : Ctx} : d.steady = c.steady ↔ d.file = c.file ∧ d.pc = c.pc ∧ d.occ = c.occ ∧ d.stopped = c.stopped ∧ d.dc = c.dc ∧ d.trap = c.trap ∧ d.rcd = c.rcd := by
  simp only [Ctx.steady, Prod.mk.injEq]

theorem Ctx.steady_mark (c : Ctx) (b : Bool) (r : Nat) : (c.mark b r).steady = c.steady := by
  unfold Ctx.mark
  dsimp only
  split
  · split <;> rfl
  · rfl
  · split <;> rfl
  · split <;> rfl

/-- What the ends of waits may change: flags and waits of contexts, and the accesses in flight. -/
structure Calms (s t : State) : Prop where
  frame : ∃ cs xs, t = { s with cores := cs, ctxs := xs }
  utlb : ∀ k, (t.core k).utlb = (s.core k).utlb
  ctx : ∀ k, (t.ctx k).steady = (s.ctx k).steady

/-- One state's context k is that of another, but for the flag of a wait at a gang join. -/
def Beside (k : Nat) (s t : State) : Prop := ∃ w, t.ctx k = { s.ctx k with wait := w } ∧ ((∀ till met, (s.ctx k).wait ≠ .gang till met) → w = (s.ctx k).wait)

namespace Beside

variable {k : Nat} {s t u : State}

theorem of_same (h : t.ctx k = s.ctx k) : Beside k s t := ⟨_, h, fun _ => rfl⟩

theorem trans (h : Beside k s t) (g : Beside k t u) : Beside k s u := by
  obtain ⟨w, hw, hs⟩ := h
  obtain ⟨x, hx, ht⟩ := g
  refine ⟨x, hx.trans (by rw [hw]), fun hng => ?_⟩
  have hwait : (t.ctx k).wait = (s.ctx k).wait := (congrArg Ctx.wait hw).trans (hs hng)
  exact (ht fun till met => hwait ▸ hng till met).trans hwait

/-- A context that does not wait at a join stays as it is. -/
theorem same (h : Beside k s t) (hng : ∀ till met, (s.ctx k).wait ≠ .gang till met) : t.ctx k = s.ctx k := by
  obtain ⟨w, hw, hs⟩ := h
  rw [hw, hs hng]

theorem foldl {α : Type} {f : State → α → State} {l : List α} (hf : ∀ u, ∀ a ∈ l, Beside k u (f u a)) (s : State) : Beside k s (l.foldl f s) := by
  induction l generalizing s with
  | nil => exact of_same rfl
  | cons a l ih => exact (hf s a List.mem_cons_self).trans (ih (fun u b hb => hf u b (List.mem_cons_of_mem _ hb)) _)

theorem meetGangs (s : State) (row : Nat) (fresh : Option Nat) : Beside k s (s.meetGangs row fresh) := by
  unfold State.meetGangs
  dsimp only
  refine foldl_keeps (P := Beside k s) (fun t e ht => ?_) _ (of_same rfl)
  split
  · rename_i till met hw
    by_cases hk : k = e.1
    · subst hk
      obtain ⟨w, hw', -⟩ := ht
      refine ⟨_, (State.ctx_setCtx_same _ _ _).trans (by rw [hw']), fun hng => absurd hw (hng till met)⟩
    · exact ht.trans (of_same (State.ctx_setCtx_other _ hk _))
  · exact ht

theorem endWait {j : Nat} (hj : k ≠ j) (s : State) : Beside k s (s.endWait j) := by
  have hset : ∀ (t : State) c, t.ctx k = s.ctx k → Beside k s (t.setCtx j c) := fun t c ht => of_same ((State.ctx_setCtx_other _ hj _).trans ht)
  unfold State.endWait
  dsimp only
  split
  · exact hset _ _ rfl
  · exact hset _ _ rfl
  · exact hset _ _ rfl
  · exact hset _ _ rfl
  · exact (hset s _ rfl).trans (meetGangs _ _ _)
  · split
    · exact of_same rfl
    · exact hset _ _ rfl
  · exact hset _ _ rfl
  · exact of_same rfl

end Beside

namespace Calms

variable {s t u : State}

theorem refl (s : State) : Calms s s := ⟨⟨_, _, rfl⟩, fun _ => rfl, fun _ => rfl⟩

theorem trans (h : Calms s t) (g : Calms t u) : Calms s u := by
  refine ⟨?_, fun k => (g.utlb k).trans (h.utlb k), fun k => (g.ctx k).trans (h.ctx k)⟩
  obtain ⟨cs, xs, rfl⟩ := h.frame
  obtain ⟨cs', xs', rfl⟩ := g.frame
  exact ⟨cs', xs', rfl⟩

theorem foldl {α : Type} {f : State → α → State} (hf : ∀ u a, Calms u (f u a)) (l : List α) (s : State) : Calms s (l.foldl f s) :=
  foldl_keeps (P := Calms s) (fun u a hu => hu.trans (hf u a)) l (refl s)

theorem setCtx (s : State) {k : Nat} {c : Ctx} (h : c.steady = (s.ctx k).steady) : Calms s (s.setCtx k c) := by
  refine ⟨⟨_, _, rfl⟩, fun _ => rfl, fun j => ?_⟩
  rw [State.ctx_setCtx]
  split
  · subst_vars
    exact h
  · rfl

theorem setCore (s : State) {k : Nat} {c : Core} (h : c.utlb = (s.core k).utlb) : Calms s (s.setCore k c) := by
  refine ⟨⟨_, _, rfl⟩, fun j => ?_, fun _ => rfl⟩
  rw [State.core_setCore]
  split
  · subst_vars
    exact h
  · rfl

theorem meetGangs (s : State) (row : Nat) (fresh : Option Nat) : Calms s (s.meetGangs row fresh) := by
  unfold State.meetGangs
  dsimp only
  refine foldl (fun u e => ?_) _ s
  split
  · exact setCtx u rfl
  · exact refl u

theorem dropAccess (s : State) (core id : Nat) : Calms s (s.dropAccess core id) := setCore s rfl

theorem endWait (s : State) (k : Nat) : Calms s (s.endWait k) := by
  unfold State.endWait
  dsimp only
  split
  · exact (dropAccess s _ _).trans (setCtx _ (by rfl))
  · refine setCtx s ?_
    split
    · exact Ctx.steady_mark _ _ _
    · rfl
  · exact setCtx s (by rfl)
  · exact setCtx s (by rfl)
  · exact (setCtx s (by rfl)).trans (meetGangs _ _ _)
  · split
    · exact refl s
    · exact setCtx s (by rfl)
  · exact setCtx s (by rfl)
  · exact refl s

/-- What is neither a core nor a context stays. -/
theorem keeps (h : Calms s t) {α : Type} (f : State → α) (hf : ∀ cs xs, f { s with cores := cs, ctxs := xs } = f s) : f t = f s := by
  obtain ⟨cs, xs, rfl⟩ := h.frame
  exact hf cs xs

theorem sameMemory (h : Calms s t) : sameMemory s t := by
  obtain ⟨cs, xs, rfl⟩ := h.frame
  exact .refl s

theorem checkpoint (h : Calms s t) (core : Nat) (c : Ctx) (pc : Word) : t.checkpoint core c pc = s.checkpoint core c pc :=
  State.checkpoint_congr (h.keeps State.mem fun _ _ => rfl) (h.keeps State.rmem fun _ _ => rfl) (h.keeps State.poison fun _ _ => rfl) (h.keeps State.devctxs fun _ _ => rfl) (h.utlb core)
    (h.keeps (fun t => (t.cluster (core / 32)).tlb) fun _ _ => rfl) c pc

theorem dctx (h : Calms s t) (n : Nat) : t.dctx n = s.dctx n := by
  obtain ⟨cs, xs, rfl⟩ := h.frame
  rfl

end Calms

/-- A context that waits for nothing has no wait that a pre-emption ends. -/
theorem State.endWait_none {s : State} {k : Nat} (h : (s.ctx k).wait = .none) : s.endWait k = s := by
  unfold State.endWait
  simp only [h]

theorem State.endWait_idle {s : State} {k n : Nat} (h : (s.ctx k).wait = .idle n) : s.endWait k = s.setCtx k { s.ctx k with wait := .none, held := none } := by
  unfold State.endWait
  simp only [h]

/-! Pre-emption requests. -/

/-- The context of a slot is asked to leave, or to take a PREEMPT trap (R359). -/
def State.preemptSlot (core : Nat) (pm : Bool) (s : State) (k : Nat) : State :=
  if (s.ctx k).occ = false ∨ (s.ctx k).stopped = true then s
  else (s.endWait k).setCtx k { (s.endWait k).ctx k with
    preempt := true
    pmTrap := pm && !((s.endWait k).ctx k).super && !((s.ctx k).wait.leaves && ((s.endWait k).checkpoint core ((s.endWait k).ctx k) ((s.endWait k).ctx k).pc).isSome) }

/-- The state once every slot of a core has been asked. -/
def State.preemptSlots (s : State) (core : Nat) : State := (State.slotsOf core).foldl (State.preemptSlot core ((s.dctx (s.resident.getD 0)).dlctl.getLsbD 32)) s

section
variable (s : State) (core : Nat)

theorem State.preemptCore_eq : s.preemptCore core =
    if (s.preemptSlots core).incoming.isSome && (State.slotsOf core).any (fun k => ((s.preemptSlots core).ctx k).occ)
    then (s.preemptSlots core).setCore core { (s.preemptSlots core).core core with preemptAt := some (s.preemptSlots core).tick } else s.preemptSlots core := rfl

theorem Calms.preemptSlot (pm : Bool) (k : Nat) : Calms s (s.preemptSlot core pm k) := by
  unfold State.preemptSlot
  split
  · exact .refl s
  · exact (Calms.endWait s k).trans (.setCtx _ rfl)

theorem Beside.preemptSlot {k j : Nat} (hj : k ≠ j) (pm : Bool) : Beside k s (s.preemptSlot core pm j) := by
  unfold State.preemptSlot
  split
  · exact .of_same rfl
  · exact (Beside.endWait hj s).trans (.of_same (State.ctx_setCtx_other _ hj _))

theorem Calms.preemptCore : Calms s (s.preemptCore core) := by
  have hslots : Calms s (s.preemptSlots core) := Calms.foldl (fun u k => Calms.preemptSlot u core _ k) _ s
  rw [State.preemptCore_eq]
  generalize s.preemptSlots core = u at hslots ⊢
  split
  · exact hslots.trans (.setCore u rfl)
  · exact hslots

theorem State.preemptCore_ctx (k : Nat) : (s.preemptCore core).ctx k = (s.preemptSlots core).ctx k := by
  rw [State.preemptCore_eq]
  generalize s.preemptSlots core = u
  split
  · exact State.ctx_setCore _ _ _ _
  · rfl

theorem mem_slotsOf {k : Nat} : k ∈ State.slotsOf core ↔ k / 8 = core := by
  simp only [State.slotsOf, List.mem_map, List.mem_range]
  refine ⟨?_, fun h => ⟨k % 8, by omega, by omega⟩⟩
  rintro ⟨i, hi, rfl⟩
  omega

theorem Beside.preemptCore {k : Nat} (h : k / 8 ≠ core) : Beside k s (s.preemptCore core) := by
  have hslots : Beside k s (s.preemptSlots core) := Beside.foldl (fun u j hj => Beside.preemptSlot u core (fun hkj => h (by rw [hkj]; exact (mem_slotsOf core).1 hj)) _) s
  exact hslots.trans (.of_same (s.preemptCore_ctx core k))

/-- What a request does with one context: another slot's changes at most the flag of a wait at a gang join. -/
theorem State.preemptSlots_at {k : Nat} (h : k / 8 = core) : ∃ u, Calms s u ∧ Beside k s u ∧ Beside k (u.preemptSlot core ((s.dctx (s.resident.getD 0)).dlctl.getLsbD 32) k) (s.preemptSlots core) := by
  obtain ⟨l, r, hlr⟩ := List.append_of_mem ((mem_slotsOf core).2 h)
  have hnodup : (State.slotsOf core).Nodup := List.Nodup.map (fun a b hab => Nat.add_left_cancel hab) List.nodup_range
  rw [hlr] at hnodup
  obtain ⟨-, hkr, hdis⟩ := List.nodup_append.1 hnodup
  have hl : ∀ j ∈ l, k ≠ j := fun j hj hkj => hdis j hj k List.mem_cons_self hkj.symm
  have hr : ∀ j ∈ r, k ≠ j := fun j hj hkj => (List.nodup_cons.1 hkr).1 (hkj ▸ hj)
  refine ⟨l.foldl (State.preemptSlot core ((s.dctx (s.resident.getD 0)).dlctl.getLsbD 32)) s, Calms.foldl (fun u j => Calms.preemptSlot u core _ j) l s,
    Beside.foldl (fun u j hj => Beside.preemptSlot u core (hl j hj) _) s, ?_⟩
  rw [State.preemptSlots, hlr, List.foldl_append, List.foldl_cons]
  exact Beside.foldl (fun u j hj => Beside.preemptSlot u core (hr j hj) _) _

/-- A request as a context of the core sees it (R359). -/
theorem State.preemptCore_spec {k : Nat} (h : k / 8 = core) (hocc : (s.ctx k).occ = true) (hst : (s.ctx k).stopped = false) :
    ((s.preemptCore core).ctx k).preempt = true
      ∧ ((s.ctx k).wait = .none → ((s.preemptCore core).ctx k).pmTrap = ((s.dctx (s.resident.getD 0)).dlctl.getLsbD 32 && !(s.ctx k).super))
      ∧ ∀ n, (s.ctx k).wait = .idle n → ((s.preemptCore core).ctx k).wait = .none
        ∧ (((s.endWait k).checkpoint core ((s.endWait k).ctx k) (s.ctx k).pc).isSome = true → ((s.preemptCore core).ctx k).pmTrap = false) := by
  obtain ⟨u, hu, hb, hafter⟩ := s.preemptSlots_at core h
  obtain ⟨-, -, hocc', hst', -⟩ := Ctx.steady_iff.1 (hu.ctx k)
  have hrun : u.preemptSlot core ((s.dctx (s.resident.getD 0)).dlctl.getLsbD 32) k = (u.endWait k).setCtx k { (u.endWait k).ctx k with
      preempt := true
      pmTrap := (s.dctx (s.resident.getD 0)).dlctl.getLsbD 32 && !((u.endWait k).ctx k).super && !((u.ctx k).wait.leaves && ((u.endWait k).checkpoint core ((u.endWait k).ctx k) ((u.endWait k).ctx k).pc).isSome) } := by
    unfold State.preemptSlot
    rw [if_neg (by rw [hocc', hst', hocc, hst]; decide)]
  obtain ⟨w, hw, hsame⟩ := hafter
  rw [hrun, State.ctx_setCtx_same] at hw hsame
  rw [State.preemptCore_ctx, hw]
  refine ⟨rfl, fun hn => ?_, fun n hi => ?_⟩
  · have huk : u.ctx k = s.ctx k := hb.same fun _ _ => by rw [hn]; nofun
    have hend := State.endWait_none (huk ▸ hn : (u.ctx k).wait = .none)
    dsimp only
    rw [hend, huk, hn]
    simp [Wait.leaves]
  · have huk : u.ctx k = s.ctx k := hb.same fun _ _ => by rw [hi]; nofun
    have hend := State.endWait_idle (huk ▸ hi : (u.ctx k).wait = .idle n)
    have hend' := State.endWait_idle hi
    have hctx : (u.endWait k).ctx k = { s.ctx k with wait := .none, held := none } := by rw [hend, State.ctx_setCtx_same, huk]
    rw [hctx] at hsame ⊢
    refine ⟨hsame nofun, fun hck => ?_⟩
    rw [(Calms.endWait s k).checkpoint, hend', State.ctx_setCtx_same] at hck
    dsimp only
    rw [huk, hi, (hu.trans (Calms.endWait u k)).checkpoint, hck]
    simp [Wait.leaves]

theorem preemptRequest_run (hr : s.ready = true) (hres : s.resident ≠ none) (hcore : core < 1536) : exec (.preemptRequest core) s = .next (s.preemptCore core) := by
  have hsome : s.resident.isSome = true := Option.isSome_iff_ne_none.2 hres
  have hon : (s.ready && s.resident.isSome && decide (core < 1536)) = true := by simp [hr, hsome, hcore]
  show execPreemptRequest core s = _
  rw [execPreemptRequest, event_on hon (State.moves_of_ready hr)]

end

/-! CONTEXT_SWITCH. -/

/-- The cores up to one are pre-empted for a switch. -/
def State.preemptedTo (s : State) (c : Nat) : State := (List.range c).foldl (fun s k => s.preemptCore k) s

section
variable (s : State)

theorem State.preemptedTo_succ (c : Nat) : s.preemptedTo (c + 1) = (s.preemptedTo c).preemptCore c := by
  simp only [preemptedTo, List.range_succ, List.foldl_append, List.foldl_cons, List.foldl_nil]

theorem Calms.preemptedTo (c : Nat) : Calms s (s.preemptedTo c) := Calms.foldl (fun u k => Calms.preemptCore u k) _ s

theorem State.preemptedTo_preempt {k c : Nat} (hk : k / 8 < c) (hocc : (s.ctx k).occ = true) (hst : (s.ctx k).stopped = false) : ((s.preemptedTo c).ctx k).preempt = true := by
  induction c with
  | zero => omega
  | succ c ih =>
    rw [State.preemptedTo_succ]
    by_cases hkc : k / 8 = c
    · obtain ⟨-, -, hocc', hst', -⟩ := Ctx.steady_iff.1 ((Calms.preemptedTo s c).ctx k)
      exact ((s.preemptedTo c).preemptCore_spec c hkc (hocc'.trans hocc) (hst'.trans hst)).1
    · obtain ⟨w, hw, -⟩ := Beside.preemptCore (s.preemptedTo c) c hkc
      rw [hw]
      exact ih (by omega)

theorem contextSwitch_run {n m : Nat} (hr : s.ready = true) (hres : s.resident = some n) (hm : m < 64) (hne : m ≠ n) (hinc : s.incoming = none) :
    exec (.contextSwitch m) s = .next (({ s with incoming := some m } : State).preemptedTo 1536) := by
  have hother : (some n != some m) = true := by
    rw [bne_iff_ne]
    exact fun h => hne (Option.some.inj h).symm
  have hon : (s.ready && s.incoming.isNone && s.resident.isSome && s.resident != some m && decide (m < 64)) = true := by
    rw [hr, hinc, hres, hother, decide_eq_true hm]
    rfl
  show execContextSwitch m s = _
  rw [execContextSwitch, event_on hon (State.moves_of_ready hr), State.preemptedTo]

end

end Sys2Proof.Machine
end

section
/-! SUPPORT. A pickup (R12, R17, R317): the record that a slot takes, and what its load leaves. -/

set_option Elab.async false

namespace Sys2Proof.Machine

open Sys2Proof

/-! The record that a slot takes. -/

theorem findLast_concat {α : Type} (l : List α) (e : α) {f : α → Bool} (h : f e = true) : findLast (l ++ [e]) f = some l.length := by
  rw [findLast, List.reverse_append, List.reverse_singleton, List.singleton_append, List.findIdx?_cons, h, if_pos rfl, List.length_append]
  rfl

theorem takeAt_concat {α : Type} (l : List α) (e : α) : takeAt (l ++ [e]) l.length = l := by
  simp [takeAt]

theorem State.nextRecord_newest {s : State} {core : Nat} {l : List QEnt} {e : QEnt} (hd : (s.core core).deque = l ++ [e]) (ht : s.takeable core e = true) :
    s.nextRecord core = some (e, s.setDeque core l) := by
  have hlast := findLast_concat l e (f := fun e => s.takeable core e) ht
  unfold State.nextRecord
  simp only [hd, hlast, takeAt_concat, List.getElem?_concat_length, Option.map_some]
  rfl

/-! The load of a record. -/

/-- What of a core the retention for a successor and a load of its record leave. -/
def Core.untaken (c : Core) : List QEnt × List TlbEnt := (c.deque, c.utlb)

/-- What a load changes before its acquire: its own context, what cores retain, and the count of continuations. -/
structure Loads (k : Nat) (s t : State) : Prop where
  frame : ∃ cs xs n, t = { s with cores := cs, ctxs := xs, nextUid := n }
  core : ∀ j, (t.core j).untaken = (s.core j).untaken
  ctx : ∀ j, j ≠ k → t.ctx j = s.ctx j

namespace Loads

variable {k : Nat} {s t u : State}

theorem refl (s : State) : Loads k s s := ⟨⟨_, _, _, rfl⟩, fun _ => rfl, fun _ _ => rfl⟩

theorem trans (h : Loads k s t) (g : Loads k t u) : Loads k s u := by
  refine ⟨?_, fun j => (g.core j).trans (h.core j), fun j hj => (g.ctx j hj).trans (h.ctx j hj)⟩
  obtain ⟨cs, xs, n, rfl⟩ := h.frame
  obtain ⟨cs', xs', n', rfl⟩ := g.frame
  exact ⟨cs', xs', n', rfl⟩

theorem setCtx (s : State) (c : Ctx) : Loads k s (s.setCtx k c) := ⟨⟨_, _, _, rfl⟩, fun _ => rfl, fun _ hj => State.ctx_setCtx_other _ hj _⟩

theorem setCore (s : State) {j : Nat} {c : Core} (h : c.untaken = (s.core j).untaken) : Loads k s (s.setCore j c) := by
  refine ⟨⟨_, _, _, rfl⟩, fun i => ?_, fun _ _ => rfl⟩
  rw [State.core_setCore]
  split
  · subst_vars
    exact h
  · rfl

theorem setUid (s : State) (n : Nat) : Loads k s { s with nextUid := n } := ⟨⟨_, _, _, rfl⟩, fun _ => rfl, fun _ _ => rfl⟩

theorem keeps (h : Loads k s t) {α : Type} (f : State → α) (hf : ∀ cs xs n, f { s with cores := cs, ctxs := xs, nextUid := n } = f s) : f t = f s := by
  obtain ⟨cs, xs, n, rfl⟩ := h.frame
  exact hf cs xs n

theorem readVa (h : Loads k s t) (core : Nat) (tr : Trans) (va n : Nat) : t.readVa core tr va n = s.readVa core tr va n :=
  State.readVa_congr (h.keeps State.mem fun _ _ _ => rfl) (h.keeps State.rmem fun _ _ _ => rfl) (h.keeps State.poison fun _ _ _ => rfl) (h.keeps State.devctxs fun _ _ _ => rfl)
    (congrArg Prod.snd (h.core core)) (h.keeps (fun t => (t.cluster (core / 32)).tlb) fun _ _ _ => rfl) tr va n

theorem recTrans (h : Loads k s t) (dc : Nat) : t.recTrans dc = s.recTrans dc := by
  unfold State.recTrans
  rw [State.dctx_congr (h.keeps State.devctxs fun _ _ _ => rfl)]

theorem recCkid (h : Loads k s t) (core : Nat) (e : QEnt) : t.recCkid core e = s.recCkid core e := by
  unfold State.recCkid
  rw [h.recTrans, h.readVa]

theorem sameMemory (h : Loads k s t) : sameMemory s t := by
  obtain ⟨cs, xs, n, rfl⟩ := h.frame
  exact .refl s

end Loads

theorem Core.untaken_releaseKept (c : Core) (rcd : Word) : (c.releaseKept rcd).untaken = c.untaken := Core.releaseKept_keeps Core.untaken (fun _ _ _ _ => rfl) c rcd

/-- A core whose context of a slot takes over what is kept for a record (R15). -/
def Core.reclaim (c : Core) (slot : Nat) (rcd : Word) : Core :=
  let c := (List.range 96).foldl (fun c n => if c.own n = .kept rcd then c.setOwn n (.ctx slot) else c) c
  let c := (List.range 32).foldl (fun c n => if (c.acc n).own = .kept rcd then c.setAcc n { c.acc n with own := .ctx slot } else c) c
  { c with kept := c.kept.filter (fun x => x.rcd != rcd) }

theorem Core.untaken_changed (c : Core) (x : Tbl Own) (y : Tbl Acc) (z : List Kept) : ({ c with slots := x, accs := y, kept := z } : Core).untaken = c.untaken := rfl

theorem Core.untaken_reclaim (c : Core) (slot : Nat) (rcd : Word) : (c.reclaim slot rcd).untaken = c.untaken := by
  have hslots := foldl_keeps (P := fun d : Core => d.untaken = c.untaken) (f := fun (c : Core) n => if c.own n = .kept rcd then c.setOwn n (.ctx slot) else c)
    (fun d n hd => by
      split
      · exact (d.untaken_changed _ _ _).trans hd
      · exact hd) (List.range 96) rfl
  have haccs := foldl_keeps (P := fun d : Core => d.untaken = c.untaken) (f := fun (c : Core) n => if (c.acc n).own = .kept rcd then c.setAcc n { c.acc n with own := .ctx slot } else c)
    (fun d n hd => by
      split
      · exact (d.untaken_changed _ _ _).trans hd
      · exact hd) (List.range 32) hslots
  exact (Core.untaken_changed _ _ _ _).trans haccs

/-- A context with the bindings of its accumulators replaced. -/
def Ctx.rebound (c d : Ctx) : Prop := ∃ v, d = { c with tc := v }

/-- The retention for a picked-up successor ends: the context has at most what was retained, its bindings with it (R15). -/
theorem State.takeKept_spec (s : State) (k : Nat) (rcd : Word) : Loads k s (s.takeKept k rcd) ∧ (s.ctx k).rebound ((s.takeKept k rcd).ctx k) := by
  have helse : ∀ l : Tbl Core, Loads k s (l.foldl (fun s e => if e.1 = k / 8 then s else if e.2.kept.any (fun x => x.rcd == rcd) then s.setCore e.1 ((s.core e.1).releaseKept rcd) else s) s)
      ∧ (l.foldl (fun s e => if e.1 = k / 8 then s else if e.2.kept.any (fun x => x.rcd == rcd) then s.setCore e.1 ((s.core e.1).releaseKept rcd) else s) s).ctxs = s.ctxs := fun l =>
    foldl_keeps (P := fun t : State => Loads k s t ∧ t.ctxs = s.ctxs) (fun t e ht => by
      split
      · exact ht
      · split
        · exact ⟨ht.1.trans (.setCore t (Core.untaken_releaseKept _ _)), ht.2⟩
        · exact ht) l ⟨.refl s, rfl⟩
  obtain ⟨hl, hc⟩ := helse s.cores
  unfold State.takeKept
  dsimp only
  generalize s.cores.foldl (fun s e => if e.1 = k / 8 then s else if e.2.kept.any (fun x => x.rcd == rcd) then s.setCore e.1 ((s.core e.1).releaseKept rcd) else s) s = u at hl hc ⊢
  have huk : u.ctx k = s.ctx k := State.ctx_congr hc k
  split
  · exact ⟨hl, ⟨_, huk⟩⟩
  · exact ⟨hl.trans ((Loads.setCore u (Core.untaken_reclaim _ _ _)).trans (.setCtx _ _)), ⟨_, (State.ctx_setCtx_same _ _ _).trans (by rw [State.ctx_setCore, huk])⟩⟩

/-- What a context has from its record alone. -/
def Ctx.fromRecord (c : Ctx) (rcd : Word) (dc : Nat) (pc : Word) : Prop := c.occ = true ∧ c.rcd = rcd ∧ c.dc = dc ∧ c.wait = .none ∧ c.pc = pc

theorem Ctx.fromRecord_rebound {c d : Ctx} {rcd : Word} {dc : Nat} {pc : Word} (h : c.rebound d) (hc : c.fromRecord rcd dc pc) : d.fromRecord rcd dc pc := by
  obtain ⟨v, rfl⟩ := h
  exact hc

theorem State.loadedCtx_fromRecord (s : State) (core : Nat) (e : QEnt) (uid : Nat) :
    (s.loadedCtx core e uid).fromRecord e.rcd e.dc (keep (w64 ((s.readVa core (s.recTrans e.dc) (fld e.rcd.toNat 0 56) 8).getD 0)) 55 0) := ⟨rfl, rfl, rfl, rfl, rfl⟩

/-- The number of a continuation as it is loaded, and the state in which it has been given. -/
def State.loadUid (s : State) (e : QEnt) : Nat := if e.uid = 0 then s.nextUid else e.uid
def State.numbered (s : State) (e : QEnt) : State := { s with nextUid := if e.uid = 0 then s.nextUid + 1 else s.nextUid }

/-- A record loaded into a slot, before the acquire and the restore of its checkpoint. -/
def State.loadBegun (s : State) (k : Nat) (e : QEnt) : State := ((s.numbered e).setCtx k ((s.numbered e).loadedCtx (k / 8) e (s.loadUid e))).takeKept k e.rcd

/-- What the load does after its acquire, for a record of checkpoint `id` (R317). -/
def State.loadRest (s : State) (k : Nat) (e : QEnt) (id : Nat) : State := match s.recordPoison (k / 8) e with
  | some t => s.setCtx k { s.ctx k with ecc := some t }
  | none =>
  if id = 0 then s
  else
    let c := s.ctx k
    if s.checkpoint (k / 8) c c.pc ≠ some id then s.trapCtx k ((s.ckPoison (k / 8) c).getD { cause := 10, xinfo := 1 })
    else match s.restoreContext k id with
      | .ok t => t
      | .error t => (s.setCtx k { c with unrestored := some id }).trapCtx k { t with xpc := some c.pc }

section
variable {s : State} {k : Nat} {e : QEnt}

/-- The PC that a record gives. -/
def State.recordPc (s : State) (core : Nat) (e : QEnt) : Word := keep (w64 ((s.readVa core (s.recTrans e.dc) (fld e.rcd.toNat 0 56) 8).getD 0)) 55 0

theorem State.loadBegun_spec (s : State) (k : Nat) (e : QEnt) : Loads k s (s.loadBegun k e) ∧ ((s.loadBegun k e).ctx k).fromRecord e.rcd e.dc (s.recordPc (k / 8) e) := by
  have huid : Loads k s (s.numbered e) := .setUid s _
  have hset : Loads k (s.numbered e) ((s.numbered e).setCtx k ((s.numbered e).loadedCtx (k / 8) e (s.loadUid e))) := .setCtx _ _
  obtain ⟨hl, hv⟩ := State.takeKept_spec ((s.numbered e).setCtx k ((s.numbered e).loadedCtx (k / 8) e (s.loadUid e))) k e.rcd
  rw [State.ctx_setCtx_same] at hv
  have hrec := State.loadedCtx_fromRecord (s.numbered e) (k / 8) e (s.loadUid e)
  rw [huid.readVa, huid.recTrans] at hrec
  exact ⟨(huid.trans hset).trans hl, Ctx.fromRecord_rebound hv hrec⟩

theorem State.load_eq (s : State) (k : Nat) (e : QEnt) : s.load k e = ((s.loadBegun k e).acquire (k / 8) 3).loadRest k e ((s.loadBegun k e).recCkid (k / 8) e) := by
  delta State.load State.loadRest State.loadBegun State.numbered State.loadUid
  rfl

theorem State.loadRest_fresh (s : State) (k : Nat) (e : QEnt) : s.loadRest k e 0 = s ∨ ∃ t, s.loadRest k e 0 = s.setCtx k { s.ctx k with ecc := some t } := by
  unfold State.loadRest
  split
  · exact .inr ⟨_, rfl⟩
  · exact .inl (if_pos rfl)

/-- The load of a record with no checkpoint, into a slot (R12). -/
theorem State.load_fresh (hid : s.recCkid (k / 8) e = 0) :
    ((s.load k e).ctx k).fromRecord e.rcd e.dc (s.recordPc (k / 8) e) ∧ sameContexts s (s.load k e) k ∧ sameMemory s (s.load k e) ∧ ∀ j, ((s.load k e).core j).deque = (s.core j).deque := by
  obtain ⟨hl, hctx⟩ := s.loadBegun_spec k e
  obtain ⟨cs, cl, ha⟩ := (s.loadBegun k e).acquire_beside (k / 8) 3
  have hctxs : ((s.loadBegun k e).acquire (k / 8) 3).ctxs = (s.loadBegun k e).ctxs := by rw [ha]
  have hmem : sameMemory s ((s.loadBegun k e).acquire (k / 8) 3) := hl.sameMemory.trans (State.acquire_sameMemory _ _ _)
  have hdeque : ∀ j, (((s.loadBegun k e).acquire (k / 8) 3).core j).deque = (s.core j).deque := fun j =>
    ((s.loadBegun k e).acquire_deque (core := k / 8) (scope := 3) (by decide) j).1.trans (congrArg Prod.fst (hl.core j))
  have hother : sameContexts s ((s.loadBegun k e).acquire (k / 8) 3) k := fun j hj => (State.ctx_congr hctxs j).trans (hl.ctx j hj)
  rw [State.load_eq, hl.recCkid, hid]
  rcases State.loadRest_fresh ((s.loadBegun k e).acquire (k / 8) 3) k e with h | ⟨t, h⟩
  · rw [h, State.ctx_congr hctxs]
    exact ⟨hctx, hother, hmem, hdeque⟩
  · rw [h, State.ctx_setCtx_same, State.ctx_congr hctxs]
    exact ⟨hctx, fun j hj => (State.ctx_setCtx_other _ hj _).trans (hother j hj), hmem, hdeque⟩

end

/-! PICKUP. -/

theorem pickup_run {s : State} {core slot n : Nat} {l : List QEnt} {e : QEnt} (hr : s.ready = true) (hinc : s.incoming = none) (hcore : core < 1536) (hslot : slot < 8) (hres : s.resident = some n)
    (hocc : (s.ctx (8 * core + slot)).occ = false) (hf : (s.core core).fenced = false) (hab : (s.dctx n).aborting = false) (hd : (s.core core).deque = l ++ [e]) (ht : s.takeable core e = true) :
    exec (.pickup core slot) s = .next ((s.setDeque core l).load (8 * core + slot) e) := by
  have hon : (s.ready && s.incoming.isNone && decide (core < 1536) && decide (slot < 8)) = true := by simp [hr, hinc, hcore, hslot]
  show execPickup core slot s = _
  rw [execPickup, event_on hon (State.moves_of_ready hr)]
  simp only [hres, hocc, hf, hab, Bool.false_eq_true, or_self, if_false, State.nextRecord_newest hd ht]

/-- What a core's deque has to do with the load of its record. -/
theorem State.setDeque_record (s : State) (core : Nat) (l : List QEnt) : (s.setDeque core l).recordPc core = s.recordPc core ∧ (s.setDeque core l).recCkid core = s.recCkid core := by
  have hu : ((s.setDeque core l).core core).utlb = (s.core core).utlb := by rw [State.setDeque, State.core_setCore_same]
  have hrd := State.readVa_congr (s := s) (t := s.setDeque core l) rfl rfl rfl rfl hu rfl
  refine ⟨funext fun e => ?_, funext fun e => ?_⟩
  · unfold State.recordPc
    rw [hrd]
    rfl
  · unfold State.recCkid
    rw [hrd]
    rfl

end Sys2Proof.Machine
end

section
/-! SUPPORT. A leave at a checkpoint (R316, R361), a hard save (R359, R360) and the promotion by age (R335). -/

set_option Elab.async false

namespace Sys2Proof.Machine

open Sys2Proof

/-! Leaving at a checkpoint. -/

theorem Wrote.heal (s : State) (l : List (Place × Nat × Nat)) : Wrote s (s.heal l) := .of_cores ⟨_, _, _, _, _, _, _, rfl⟩ (.of_same rfl)

/-- A save writes memory and nothing of the contexts (R316, R361). -/
theorem Wrote.saveContext {s u : State} {k id : Nat} (h : s.saveContext k id = .ok u) : Wrote s u := by
  unfold State.saveContext State.saveAll at h
  dsimp only at h
  split at h
  · cases h
  · obtain rfl := Except.ok.inj h
    exact (Wrote.foldl (fun u e => (Wrote.storeHome u _ _ _ _).trans (Wrote.afterStore _ _ _ _ _ _)) _ (Wrote.refl s)).trans (Wrote.heal _ _)

section
variable {s : State} {k : Nat}

theorem State.vacate_ctxs : (s.vacate k).ctxs = tset s.ctxs k {} := State.freeCtx_ctxs _ _

theorem State.freeCtx_frame {α : Type} {f : State → α} (hx : ∀ (t : State) j c, f (t.setCtx j c) = f t) (hr : ∀ (t : State) j r, f (t.setRow j r) = f t) : f (s.freeCtx k) = f s := by
  unfold State.freeCtx State.idleRow
  dsimp only
  split
  · exact hx _ _ _
  · exact (hr _ _ _).trans (hx _ _ _)

theorem Core.releaseCtx_deque (c : Core) (slot : Nat) : (c.releaseCtx slot).deque = c.deque := by
  rw [Core.releaseCtx_eq, Core.retake_keeps (put := Core.setAccOwn) (g := Core.deque) (hg := fun _ _ _ => rfl)]
  exact Core.retake_keeps (g := Core.deque) (hg := fun _ _ _ => rfl) ..

theorem State.vacate_deque (j : Nat) : ((s.vacate k).core j).deque = (s.core j).deque := by
  unfold State.vacate
  rw [State.freeCtx_core, State.core_setCore]
  split
  · subst_vars
    exact Core.releaseCtx_deque _ _
  · rfl

theorem State.vacate_cluster (j : Nat) : (s.vacate k).cluster j = s.cluster j :=
  State.freeCtx_frame (f := fun t => t.cluster j) (fun _ _ _ => rfl) (fun _ _ _ => rfl)

end

section
variable {s u : State} {core slot : Nat} {id : Nat}

/-- The state once a context has left, its record placed (R231, R316). -/
def State.departed (u : State) (core k : Nat) (pinned : Bool) : State :=
  if pinned then (u.vacate k).pushDeque core (u.leaveEntry k pinned) else (u.vacate k).enqueue (core / 32) (u.leaveEntry k pinned).prio (u.leaveEntry k pinned)

theorem leaveAtCheckpoint_run (hs : s.still = false) (hslot : slot < 8) (hm : s.mayLeave (8 * core + slot) = true)
    (hc : s.checkpoint core (s.ctx (8 * core + slot)) (s.ctx (8 * core + slot)).pc = some id)
    (hl : s.leaveReady (8 * core + slot) (s.entryWords core (s.ctx (8 * core + slot)) id) = true) (hu : s.saveContext (8 * core + slot) id = .ok u) :
    exec (.leaveAtCheckpoint core slot) s = .next (u.departed core (8 * core + slot) (s.ctx (8 * core + slot)).pinned) := by
  show execLeaveAtCheckpoint core slot s = _
  rw [execLeaveAtCheckpoint, event_on (decide_eq_true hslot) hs]
  simp only [hm, hc, hl, hu, Bool.true_eq_false, if_false]
  rfl

/-- What a context that leaves has left behind (R231, R316). -/
theorem State.departed_spec {k : Nat} (hw : Wrote s u) (hk : k / 8 = core) :
    ((u.departed core k (s.ctx k).pinned).ctx k).occ = false ∧ sameContexts s (u.departed core k (s.ctx k).pinned) k
      ∧ ∃ e : QEnt, e.rcd = (s.ctx k).rcd ∧ e.dc = (s.ctx k).dc ∧ e.uid = (s.ctx k).uid
        ∧ ((s.ctx k).pinned = false → vget ((u.departed core k (s.ctx k).pinned).cluster (core / 32)).queues (s.ctx k).prio.toNat [] = vget (s.cluster (core / 32)).queues (s.ctx k).prio.toNat [] ++ [e])
        ∧ ((s.ctx k).pinned = true → (s.core core).deque.length < 256 → e.pin = some core ∧ ((u.departed core k (s.ctx k).pinned).core core).deque = (s.core core).deque ++ [e]) := by
  have hctx : u.ctx k = s.ctx k := State.ctx_congr hw.ctxs k
  have hprio := (s.ctx k).prio.isLt
  have hctxs : (u.departed core k (s.ctx k).pinned).ctxs = tset s.ctxs k {} := by
    rw [← hw.ctxs, ← State.vacate_ctxs (s := u)]
    unfold State.departed
    split
    · exact State.pushDeque_frame (f := State.ctxs) (fun _ _ _ _ _ _ _ => rfl) (fun _ _ _ => rfl) (fun _ _ _ => rfl)
    · exact State.enqueue_frame (f := State.ctxs) (fun _ _ _ _ _ _ _ => rfl) (fun _ _ _ => rfl)
  refine ⟨?_, sameContexts.of_ctxs hctxs, { u.leaveEntry k (s.ctx k).pinned with tick := (u.vacate k).tick }, ?_, ?_, ?_, fun hp => ?_, fun hp hd => ?_⟩
  · rw [State.ctx, hctxs, tget_tset_same]
  · exact congrArg Ctx.rcd hctx
  · exact congrArg Ctx.dc hctx
  · exact congrArg Ctx.uid hctx
  · have hlvl : (u.leaveEntry k false).prio = (s.ctx k).prio.toNat := congrArg (fun c : Ctx => c.prio.toNat) hctx
    have hq : (u.vacate k).cluster (core / 32) = u.cluster (core / 32) := State.vacate_cluster _
    rw [hp, State.departed, if_neg (by decide), hlvl, State.enqueue_level _ hprio, hq, hw.queues]
  · have hdeque : ((u.vacate k).core core).deque = (s.core core).deque := (State.vacate_deque core).trans (hw.deque core)
    refine ⟨?_, ?_⟩
    · rw [hp, ← hk]
      rfl
    · rw [hp, State.departed, if_pos rfl, State.pushDeque_deque, hdeque, if_pos ⟨rfl, hd⟩]

end

/-! A hard save. -/

/-- A write of one byte leaves the others, whatever the memory's form. -/
theorem mget_mset_other {m : Mem} {a c : Nat} (h : c ≠ a) (b : Byte) : mget (mset m a b) c = mget m c := by
  induction m with
  | nil =>
    rw [mset]
    split
    · rfl
    · exact if_neg (Ne.symm h)
  | cons e r ih =>
    obtain ⟨j, x⟩ := e
    rw [mset]
    split
    · split
      · rfl
      · rw [mget, if_neg (Ne.symm h)]
    · split
      · subst_vars
        split
        · rw [mget, if_neg (Ne.symm h)]
        · rw [mget, mget, if_neg (Ne.symm h), if_neg (Ne.symm h)]
      · rw [mget, mget, ih]

theorem mget_mwrite_apart {m : Mem} {a n c v : Nat} (h : c < a ∨ a + n ≤ c) : mget (mwrite m a n v) c = mget m c := by
  induction n generalizing m a v with
  | zero => rfl
  | succ n ih => rw [mwrite, ih (by omega), mget_mset_other (by omega)]

/-- Lines written to memory leave every byte outside them. -/
theorem State.putLines_spec (s : State) (pa n : Nat) (line : Nat → Nat) : Wrote s (s.putLines pa n line) ∧ ∀ a, a < pa ∨ pa + 64 * n ≤ a → mget (s.putLines pa n line).mem a = mget s.mem a := by
  have hsteps : ∀ l : List Nat, (∀ i ∈ l, i < n) → ∀ t : State, Wrote s t ∧ (∀ a, a < pa ∨ pa + 64 * n ≤ a → mget t.mem a = mget s.mem a) →
      Wrote s (l.foldl (fun s i => if placeOf (pa + 64 * i) = .here then s.pierWrite (pa + 64 * i) 64 (line i) else s) t)
        ∧ ∀ a, a < pa ∨ pa + 64 * n ≤ a → mget (l.foldl (fun s i => if placeOf (pa + 64 * i) = .here then s.pierWrite (pa + 64 * i) 64 (line i) else s) t).mem a = mget s.mem a := fun l => by
    induction l with
    | nil => exact fun _ _ ht => ht
    | cons i l ih =>
      intro hl t ht
      have hi := hl i List.mem_cons_self
      refine ih (fun j hj => hl j (List.mem_cons_of_mem _ hj)) _ ?_
      dsimp only
      split
      · refine ⟨ht.1.trans (Wrote.pierWrite _ _ _ _), fun a ha => ?_⟩
        rw [State.pierWrite_mem, mget_mwrite_apart (by omega), ht.2 a ha]
      · exact ht
  exact hsteps (List.range n) (fun i hi => List.mem_range.1 hi) s ⟨.refl s, fun _ _ => rfl⟩

theorem State.putSaved_spec (s : State) (k : Nat) : Wrote s (s.putSaved k) ∧ ∀ a, a < s.savedAt k ∨ s.savedAt k + 0x4000 ≤ a → mget (s.putSaved k).mem a = mget s.mem a :=
  s.putLines_spec _ 256 _

/-- A context as a hard save keeps it (R360). -/
def Ctx.parkedWhole (c : Ctx) : Ctx := { c with preempt := false, sw := false, yld := none, pinned := false }

/-- What a switch keeps of a device context, with one context of it saved whole. -/
def State.savedIn (s : State) (k : Nat) : Saved := { (s.dctx (s.ctx k).dc).saved.getD {} with ctxs := tset ((s.dctx (s.ctx k).dc).saved.getD {}).ctxs k (s.ctx k).parkedWhole }

/-- The state once a context has been saved whole (R360). -/
def State.savedWhole (s : State) (core slot k : Nat) : State :=
  ((s.setDctx (s.ctx k).dc { s.dctx (s.ctx k).dc with saved := some (s.savedIn k) }).setCore core ((s.core core).entitle slot (s.ctx k).parkedWhole.uid)).freeCtx k

theorem hardSave_eq (core slot : Nat) (s : State) : execHardSave core slot s = event (decide (slot < 8)) (fun s =>
    if s.saveDue (8 * core + slot) = false then s
    else if (s.endWait (8 * core + slot)).saveReady (8 * core + slot) = false then s.endWait (8 * core + slot)
    else ((s.endWait (8 * core + slot)).putSaved (8 * core + slot)).savedWhole core slot (8 * core + slot)) s := by
  rfl

section
variable {s : State} {core slot n a : Nat}

theorem hardSave_run (hs : s.still = false) (hslot : slot < 8) (hinc : s.incoming ≠ none) (hres : s.resident = some n) (hat : (s.core core).preemptAt = some a)
    (hdue : a + fld (s.dctx n).dlctl.toNat 0 32 ≤ s.tick) (hocc : (s.ctx (8 * core + slot)).occ = true) (htrap : (s.ctx (8 * core + slot)).trap = none) (hab : (s.dctx n).aborting = false)
    (hd : ((s.endWait (8 * core + slot)).ctx (8 * core + slot)).drained = true) (hw : ((s.endWait (8 * core + slot)).ctx (8 * core + slot)).wait = .none)
    (hr : (s.endWait (8 * core + slot)).releaseReady core slot = true) :
    exec (.hardSave core slot) s = .next (((s.endWait (8 * core + slot)).putSaved (8 * core + slot)).savedWhole core slot (8 * core + slot)) := by
  have hk : (8 * core + slot) / 8 = core := by omega
  have hkm : (8 * core + slot) % 8 = slot := by omega
  have hsaveDue : s.saveDue (8 * core + slot) = true := by
    unfold State.saveDue
    simp only [hk, hres, hat, hocc, htrap, hab, decide_eq_true hdue, Option.isSome_iff_ne_none.2 hinc]
    rfl
  have hready : (s.endWait (8 * core + slot)).saveReady (8 * core + slot) = true := by
    unfold State.saveReady
    rw [hk, hkm, hd, hw, hr]
    rfl
  show execHardSave core slot s = _
  rw [hardSave_eq, event_on (decide_eq_true hslot) hs]
  simp only [hsaveDue, hready, Bool.true_eq_false, if_false]

/-- What a hard save leaves (R359, R360). -/
theorem State.savedWhole_spec (u : State) (core slot k : Nat) : ((u.savedWhole core slot k).ctx k).occ = false ∧ sameContexts u (u.savedWhole core slot k) k
    ∧ ((u.savedWhole core slot k).dctx (u.ctx k).dc).saved = some (u.savedIn k) ∧ (u.savedWhole core slot k).mem = u.mem := by
  refine ⟨State.freeCtx_occ _ _, sameContexts.of_ctxs (State.freeCtx_ctxs _ _), ?_, (State.freeCtx_sameMemory _ _).1⟩
  have hd := State.freeCtx_frame (k := k) (f := fun t : State => t.dctx (u.ctx k).dc) (s := (u.setDctx (u.ctx k).dc { u.dctx (u.ctx k).dc with saved := some (u.savedIn k) }).setCore core
      ((u.core core).entitle slot (u.ctx k).parkedWhole.uid)) (fun _ _ _ => rfl) (fun _ _ _ => rfl)
  exact congrArg DevCtx.saved (hd.trans (State.dctx_setDctx_same _ _ _))

theorem State.savedIn_ctx (u : State) (k : Nat) : tget (u.savedIn k).ctxs k {} = (u.ctx k).parkedWhole := tget_tset_same _ _ _ _

end

/-! Promotion by age. -/

theorem queueAgingPromotion_run {s : State} {cluster level dc : Nat} {e : QEnt} {r : List QEnt} (hr : s.ready = true) (hc : cluster < 48) (hl : level < 3) (hres : s.resident = some dc)
    (hq : vget (s.cluster cluster).queues level [] = e :: r) (hage : ageOf (s.dctx dc).template level ≠ 0) (hdue : ageOf (s.dctx dc).template level ≤ s.tick - e.tick) :
    exec (.queueAgingPromotion cluster level 0) s = .next ((s.setCluster cluster { s.cluster cluster with queues := (s.cluster cluster).queues.setIfInBounds level r }).enqueue cluster (level + 1) e) := by
  have hon : (s.ready && decide (cluster < 48) && decide (level < 3)) = true := by simp [hr, hc, hl]
  have hover : s.overdue cluster level = true := by
    unfold State.overdue
    rw [hq, hres]
    simp [hage, hdue]
  show execQueueAgingPromotion cluster level 0 s = _
  rw [execQueueAgingPromotion, event_on hon (State.moves_of_ready hr)]
  simp only [hq, hover, ne_eq, not_true_eq_false, Bool.true_eq_false, or_self, if_false]

theorem queueAgingPromotion_spec {s : State} {cluster level : Nat} {e : QEnt} {r : List QEnt} (hl : level < 3) :
    let t := (s.setCluster cluster { s.cluster cluster with queues := (s.cluster cluster).queues.setIfInBounds level r }).enqueue cluster (level + 1) e
    vget (t.cluster cluster).queues level [] = r ∧ vget (t.cluster cluster).queues (level + 1) [] = vget (s.cluster cluster).queues (level + 1) [] ++ [{ e with tick := s.tick }] ∧ t.ctxs = s.ctxs := by
  intro t
  have hcl : ((s.setCluster cluster { s.cluster cluster with queues := (s.cluster cluster).queues.setIfInBounds level r }).cluster cluster).queues = (s.cluster cluster).queues.setIfInBounds level r := by
    rw [State.cluster_setCluster, if_pos rfl]
  refine ⟨?_, ?_, State.enqueue_frame (f := State.ctxs) (fun _ _ _ _ _ _ _ => rfl) (fun _ _ _ => rfl)⟩
  · rw [State.enqueue_queues, if_pos rfl, vget_set_other _ (by omega), hcl, vget_set_same _ (by omega)]
  · rw [State.enqueue_level _ (by omega), hcl, vget_set_other _ (by omega)]
    rfl

end Sys2Proof.Machine
end

section
/-! SUPPORT. A switch of the device context (R357, R362) and an abort (R398). -/

set_option Elab.async false

namespace Sys2Proof.Machine

open Sys2Proof

/-! What neither a save nor a load writes: the device contexts, which of them is resident and which is coming, and the requests to Cethen. -/

/-- The device contexts, the resident and the incoming one, and the requests to Cethen. -/
def State.agenda (s : State) : Tbl DevCtx × Option Nat × Option Nat × List FwReq := (s.devctxs, s.resident, s.incoming, s.fwq)

/-- What of the agenda a switch goes by. -/
def State.switchState (s : State) : Option Nat × Option Nat × (Nat → Word) := (s.resident, s.incoming, fun m => (s.dctx m).switches)

section
variable {s t : State}

theorem State.dctx_of_agenda (h : t.agenda = s.agenda) (n : Nat) : t.dctx n = s.dctx n := State.dctx_congr (congrArg Prod.fst h) n
theorem State.fwq_of_agenda (h : t.agenda = s.agenda) : t.fwq = s.fwq := congrArg (fun x => x.2.2.2) h

theorem State.switchState_of_agenda (h : t.agenda = s.agenda) : t.switchState = s.switchState := by
  have hd : (fun m => (t.dctx m).switches) = fun m => (s.dctx m).switches := funext fun m => congrArg DevCtx.switches (State.dctx_of_agenda h m)
  have hr : t.resident = s.resident := congrArg (fun x => x.2.1) h
  have hi : t.incoming = s.incoming := congrArg (fun x => x.2.2.1) h
  rw [State.switchState, State.switchState, hd, hr, hi]

theorem State.resident_of_switchState (h : t.switchState = s.switchState) : t.resident = s.resident := congrArg Prod.fst h
theorem State.incoming_of_switchState (h : t.switchState = s.switchState) : t.incoming = s.incoming := congrArg (fun x => x.2.1) h
theorem State.switches_of_switchState (h : t.switchState = s.switchState) (m : Nat) : (t.dctx m).switches = (s.dctx m).switches := congrArg (fun x => x.2.2 m) h

theorem State.switchState_setDctx {n : Nat} {d : DevCtx} (h : d.switches = (s.dctx n).switches) : (s.setDctx n d).switchState = s.switchState := by
  have hd : (fun m => ((s.setDctx n d).dctx m).switches) = fun m => (s.dctx m).switches := funext fun m => by
    by_cases hm : m = n
    · rw [hm, State.dctx_setDctx_same, h]
    · rw [State.dctx_setDctx_other _ hm]
  exact congrArg (fun x => (s.resident, s.incoming, x)) hd

end

section
variable (s : State)

theorem Wrote.agenda {s t : State} (h : Wrote s t) : t.agenda = s.agenda := h.keeps State.agenda fun _ _ _ _ _ _ _ _ => rfl
theorem Calms.agenda {s t : State} (h : Calms s t) : t.agenda = s.agenda := h.keeps State.agenda fun _ _ => rfl

theorem State.enqueue_agenda (cl lvl : Nat) (e : QEnt) : (s.enqueue cl lvl e).agenda = s.agenda :=
  State.enqueue_frame (f := State.agenda) (fun _ _ _ _ _ _ _ => rfl) (fun _ _ _ => rfl)

theorem Wrote.freeSlot (a : Nat) : Wrote s (s.freeSlot a) := by
  unfold State.freeSlot
  dsimp only
  split
  · exact .refl s
  · exact ((Wrote.pierWrite _ _ _ _).trans (Wrote.pierWrite _ _ _ _)).trans (Wrote.pierWrite _ _ _ _)

theorem Wrote.writeChain (l : List Nat) (head off : Nat) : Wrote s (s.writeChain head off l) := by
  induction l generalizing s head with
  | nil => exact Wrote.pierWrite _ _ _ _
  | cons a r ih => exact (Wrote.pierWrite _ _ _ _).trans (ih _ _)

theorem Wrote.wcntDown (e : Nat) : Wrote s (s.wcntDown e) := by
  unfold State.wcntDown
  split
  · exact .refl s
  · exact Wrote.pierWrite _ _ _ _

theorem State.parked_agenda (l : List Parked) : ({ s with parked := l } : State).agenda = s.agenda := rfl

theorem State.setWaitBit_agenda (pa : Nat) (b : Bool) : (s.setWaitBit pa b).agenda = s.agenda := rfl

theorem State.unparkAll_agenda (n : Nat) : (s.unparkAll n).agenda = s.agenda := by
  unfold State.unparkAll
  refine (foldl_keeps (P := fun u : State => u.agenda = s.agenda) (fun u p hu => Eq.trans ?_ hu) _ rfl :)
  refine (Wrote.freeSlot _ _).agenda.trans ((State.parked_agenda _ _).trans ?_)
  dsimp only
  split
  · rfl
  · split
    · split
      · exact ((Wrote.writeChain _ _ _ _).trans (Wrote.wcntDown _ _)).agenda
      · rw [State.setWaitBit_agenda]
        exact ((Wrote.writeChain _ _ _ _).trans (Wrote.wcntDown _ _)).agenda
    · split
      · exact ((Wrote.writeChain _ _ _ _).trans (Wrote.pierWrite _ _ _ _)).agenda
      · rfl

theorem State.removeRecords_agenda (n : Nat) : (s.removeRecords n).agenda = s.agenda :=
  State.unparkAll_agenda _ n

theorem State.latchAll_agenda : s.latchAll.agenda = s.agenda := by
  obtain ⟨l, hl⟩ := State.latchAll_eq s
  rw [hl]
  rfl

theorem State.moveWakes_agenda (n : Nat) : (s.moveWakes n).agenda = s.agenda := by
  unfold State.moveWakes
  dsimp only
  refine foldl_keeps (P := fun u : State => u.agenda = s.agenda) (fun u a hu => ?_) _ ?_
  · split
    · exact hu
    · exact (State.enqueue_agenda _ _ _ _).trans ((Wrote.freeSlot _ _).agenda.trans hu)
  · split
    · rfl
    · exact ((Wrote.pierWrite _ _ _ _).trans (Wrote.pierWrite _ _ _ _)).agenda

theorem State.latchOf_agenda (core g : Nat) : (s.latchOf core g).agenda = s.agenda := by
  unfold State.latchOf State.latch
  split
  · rfl
  · rfl

/-! An abort that begins. -/

/-- An abort that begins ends every wait, and of the agenda writes only that its launch is aborted. -/
theorem State.beginAbort_agenda {n : Nat} (h : (s.dctx n).launch ≠ none) : (s.beginAbort n).agenda = (s.setDctx n { s.dctx n with aborting := true }).agenda := by
  unfold State.beginAbort
  rw [if_neg (by simpa using h)]
  refine foldl_keeps (P := fun u : State => u.agenda = (s.setDctx n { s.dctx n with aborting := true }).agenda) (fun u e hu => Eq.trans ?_ hu) _ (State.removeRecords_agenda _ n)
  split
  · exact (Calms.endWait u e.1).agenda
  · rfl

theorem State.beginAbort_switchState (n : Nat) : (s.beginAbort n).switchState = s.switchState := by
  by_cases h : (s.dctx n).launch = none
  · rw [State.beginAbort, if_pos (by rw [h]; rfl)]
  · exact (State.switchState_of_agenda (s.beginAbort_agenda h)).trans (State.switchState_setDctx rfl)

theorem State.abortLaunch_switchState (n : Nat) : (s.abortLaunch n).switchState = s.switchState := by
  unfold State.abortLaunch
  split
  · exact s.beginAbort_switchState n
  · split
    · exact State.switchState_setDctx rfl
    · rfl

theorem State.fence_switchState (core : Nat) : (s.fence core).switchState = s.switchState := by
  unfold State.fence
  split
  · rfl
  · refine foldl_keeps (P := fun u : State => u.switchState = s.switchState) (fun u n hu => ?_) _ ?_
    · split
      · exact (u.abortLaunch_switchState n).trans hu
      · exact hu
    · exact foldl_keeps (P := fun u : State => u.switchState = s.switchState) (fun u g hu => (State.switchState_of_agenda (u.latchOf_agenda core g)).trans hu) _ rfl

theorem State.fenceBad_switchState (sv : Nat) : (s.fenceBad sv).switchState = s.switchState := by
  unfold State.fenceBad
  split
  · rfl
  · refine foldl_keeps (P := fun u : State => u.switchState = s.switchState) (fun u k hu => ?_) _ rfl
    split
    · exact (u.fence_switchState k).trans hu
    · exact hu

/-! A switch. -/

theorem Wrote.putImage (sv : Nat) (saved : Nat → Bool) (k : Nat) : Wrote s (s.putImage sv saved k) := by
  unfold State.putImage
  refine Wrote.foldl (fun u j => ?_) _ ?_
  · split
    · exact .refl u
    · exact (u.putLines_spec _ _ _).1
  · exact ((((((State.putLines_spec _ _ _ _).1.trans (State.putLines_spec _ _ _ _).1).trans (State.putLines_spec _ _ _ _).1).trans (State.putLines_spec _ _ _ _).1).trans
      (State.putLines_spec _ _ _ _).1).trans (State.putLines_spec _ _ _ _).1).trans (State.putLines_spec _ _ _ _).1

theorem State.putOpen_agenda (pa n : Nat) : (s.putOpen pa n).agenda = s.agenda :=
  (s.putLines_spec pa n _).1.agenda

theorem State.freeCtx_agenda (k : Nat) : (s.freeCtx k).agenda = s.agenda := State.freeCtx_frame (f := State.agenda) (fun _ _ _ => rfl) (fun _ _ _ => rfl)

theorem State.saved_switchState (n : Nat) (v : Option Saved) : (s.setDctx n { s.dctx n with saved := v }).switchState = s.switchState := State.switchState_setDctx rfl
theorem State.abortTaken_switchState (n : Nat) : (s.setDctx n { s.dctx n with abortDue := false }).switchState = s.switchState := State.switchState_setDctx rfl

theorem State.wakesMoved_agenda : (s.wakes.foldl (fun (s : State) p => s.enqueue p.cluster p.ent.prio p.ent) { s with wakes := [] }).agenda = s.agenda :=
  foldl_keeps (P := fun u : State => u.agenda = s.agenda) (fun u _ hu => (u.enqueue_agenda _ _ _).trans hu) s.wakes (b := { s with wakes := [] }) rfl

theorem State.switchOut_switchState (n : Nat) : (s.switchOut n).switchState = s.switchState := by
  unfold State.switchOut
  dsimp only
  refine foldl_keeps (P := fun u : State => u.switchState = s.switchState) (fun u e hu => (State.switchState_of_agenda (u.freeCtx_agenda e.1)).trans hu) _ ((State.saved_switchState _ _ _).trans ?_)
  refine State.switchState_of_agenda ((State.putOpen_agenda _ _ _).trans (Eq.trans ?_ s.wakesMoved_agenda))
  exact (Wrote.foldl (fun u k => Wrote.putImage u _ _ k) _ (.refl _)).agenda

theorem State.charged_switchState (n : Nat) : (s.charged n).switchState = s.switchState :=
  State.switchState_setDctx (s := s) (n := n) (d := { s.dctx n with energy := (s.dctx n).energy + (s.energyTotal - s.energySum), res := (s.dctx n).res + w64 (s.tick - s.residentSince) }) rfl

theorem State.switchIn_switches (n : Nat) : ((s.switchIn n).dctx n).switches = (s.dctx n).switches + 1 := by
  unfold State.switchIn
  dsimp only
  rw [State.dctx_setDctx_same]

/-- The state once the incoming device context has been loaded and made resident (R362 step 5). -/
def State.switched (s : State) (o n : Nat) : State := { ((s.switchOut o).charged o).switchIn n with resident := some n, incoming := none }

theorem State.madeResident_dctx (r i : Option Nat) (n : Nat) : ({ s with resident := r, incoming := i } : State).dctx n = s.dctx n := rfl

theorem State.switched_spec (o n : Nat) : (s.switched o n).resident = some n ∧ (s.switched o n).incoming = none ∧ ((s.switched o n).dctx n).switches = (s.dctx n).switches + 1 := by
  refine ⟨rfl, rfl, ?_⟩
  have hs : ((s.switchOut o).charged o).switchState = s.switchState := ((s.switchOut o).charged_switchState o).trans (s.switchOut_switchState o)
  rw [State.switched, State.madeResident_dctx, State.switchIn_switches, State.switches_of_switchState hs]

theorem State.templateRead_switchState (n : Nat) : ((s.readTemplate n).getD (s.setDctx n ((s.dctx n).setStat 4 4 3))).switchState = s.switchState := by
  cases h : s.readTemplate n with
  | none => exact State.switchState_setDctx rfl
  | some u =>
    obtain ⟨v, rfl⟩ := State.readTemplate_some h
    exact State.switchState_setDctx rfl

/-- What a switch still does once the incoming device context is resident (R362 step 6); `d` is that context as it was before. -/
def State.resumed (s : State) (d : DevCtx) (n : Nat) : State :=
  let s := (s.readTemplate n).getD (s.setDctx n ((s.dctx n).setStat 4 4 3))
  let s := s.moveWakes n
  let s := (if d.saved.isSome then s.fenceBad d.area else s).latchAll
  if (s.dctx n).abortDue || (d.saved.isSome && s.badBlock d.area) then (s.setDctx n { s.dctx n with abortDue := false }).beginAbort n else s

theorem State.resumed_switchState (d : DevCtx) (n : Nat) : (s.resumed d n).switchState = s.switchState := by
  have hloaded := (State.switchState_of_agenda (State.moveWakes_agenda _ n)).trans (s.templateRead_switchState n)
  have hfenced {u : State} (hu : u.switchState = s.switchState) : (if d.saved.isSome then u.fenceBad d.area else u).latchAll.switchState = s.switchState := by
    refine (State.switchState_of_agenda (State.latchAll_agenda _)).trans ?_
    split
    · exact (u.fenceBad_switchState _).trans hu
    · exact hu
  unfold State.resumed
  dsimp only
  generalize hu : (if d.saved.isSome then _ else _ : State).latchAll = u
  have hlast : u.switchState = s.switchState := hu ▸ hfenced hloaded
  split
  · exact (State.beginAbort_switchState _ _).trans ((State.abortTaken_switchState _ _).trans hlast)
  · exact hlast

end

section
variable {s : State} {n m : Nat}

theorem switchSaveAndLoad_run (hr : s.ready = true) (hres : s.resident = some n) (hinc : s.incoming = some m) (hsw : s.switchable n = true) :
    exec .switchSaveAndLoad s = .next ((s.switched n m).resumed (s.dctx m) m) := by
  have hturn : execSwitchSaveAndLoad s = event s.ready (fun s => match s.resident, s.incoming with
    | some o, some n => if s.switchable o = false then s else (s.switched o n).resumed (s.dctx n) n
    | _, _ => s) s := rfl
  refine (hturn.trans (event_on hr (State.moves_of_ready hr)) : exec .switchSaveAndLoad s = _).trans ?_
  simp only [hres, hinc, hsw, Bool.true_eq_false, if_false]

theorem State.switchedOver_spec (s : State) (n m : Nat) : ((s.switched n m).resumed (s.dctx m) m).resident = some m ∧ ((s.switched n m).resumed (s.dctx m) m).incoming = none
    ∧ (((s.switched n m).resumed (s.dctx m) m).dctx m).switches = (s.dctx m).switches + 1 := by
  have h := (s.switched n m).resumed_switchState (s.dctx m) m
  obtain ⟨hr, hi, hs⟩ := s.switched_spec n m
  exact ⟨(State.resident_of_switchState h).trans hr, (State.incoming_of_switchState h).trans hi, (State.switches_of_switchState h m).trans hs⟩

end

end Sys2Proof.Machine
end

section
/-! SUPPORT. The abort of a launch (R398): its begin and its end. -/

set_option Elab.async false

namespace Sys2Proof.Machine

open Sys2Proof

section
variable {s : State} {n : Nat} {q : FwReq} {r : List FwReq}

/-- A request begins the abort, or makes it due. -/
theorem abort_begins (hr : s.ready = true) (hres : s.resident = some n) (hab : (s.dctx n).aborting = false) (hq : s.fwq = q :: r) (hsvc : q.svc = 512) (hp : s.posted = none) :
    exec .abort s = .next (({ s with fwq := r } : State).abortLaunch q.dc) := by
  show execAbort s = _
  rw [execAbort, event_on hr (State.moves_of_ready hr)]
  simp only [hres, hab, hq, hsvc, hp, Bool.false_eq_true, if_false, Option.isNone_none, true_and, if_true]

theorem State.abortLaunch_resident (h : s.resident = some n) (hl : (s.dctx n).launch ≠ none) : ((s.abortLaunch n).dctx n).aborting = true ∧ (s.abortLaunch n).fwq = s.fwq := by
  have ha : (s.abortLaunch n).agenda = (s.setDctx n { s.dctx n with aborting := true }).agenda := by
    rw [State.abortLaunch, if_pos h]
    exact s.beginAbort_agenda hl
  rw [State.dctx_of_agenda ha, State.dctx_setDctx_same, State.fwq_of_agenda ha]
  exact ⟨rfl, rfl⟩

theorem State.abortLaunch_away (h : s.resident ≠ some n) (hl : (s.dctx n).launch ≠ none) : s.abortLaunch n = s.setDctx n { s.dctx n with abortDue := true } := by
  rw [State.abortLaunch, if_neg h, if_pos (Option.isSome_iff_ne_none.2 hl)]

/-- An abort under way ends once everything that it waits for has come. -/
theorem abort_ends {l : Launch} (hr : s.ready = true) (hres : s.resident = some n) (hab : (s.dctx n).aborting = true) (hl : (s.dctx n).launch = some l) (hready : s.abortReady = true)
    (hheld : s.completionHeld l.completion = false) : exec .abort s = .next (s.endAbort n) := by
  show execAbort s = _
  rw [execAbort, event_on hr (State.moves_of_ready hr)]
  simp only [hres, hab, hl, hready, Option.bind_some, hheld, Bool.not_false, Bool.and_self, if_true]

end

/-! The contexts that an abort discards. -/

/-- A context that occupies its slot returns what it holds, and the slot is free. -/
def State.discardCtx (s : State) (k : Nat) : State :=
  if (s.ctx k).occ then (s.setCore (k / 8) ((s.core (k / 8)).releaseCtx (k % 8))).freeCtx k else s

theorem State.discardCtx_occ (s : State) (k j : Nat) : ((s.discardCtx k).ctx j).occ = (decide (j ≠ k) && (s.ctx j).occ) := by
  by_cases hj : j = k
  · subst hj
    unfold State.discardCtx
    split
    · simp [State.freeCtx_occ]
    · simpa using ‹¬(s.ctx j).occ = true›
  · unfold State.discardCtx
    split
    · have hctx := State.freeCtx_ctxs (s.setCore (k / 8) ((s.core (k / 8)).releaseCtx (k % 8))) k
      rw [State.ctx, hctx, tget_tset_other _ hj, decide_eq_true hj]
      rfl
    · simp [hj]

/-- The contexts discarded are free afterwards, and no other is taken. -/
theorem State.discardAll_occ (l : Tbl Ctx) (s : State) (k : Nat) (h : (s.ctx k).occ = true → ∃ e ∈ l, e.1 = k) : ((l.foldl (fun s e => s.discardCtx e.1) s).ctx k).occ = false := by
  induction l generalizing s with
  | nil => simpa using h
  | cons e l ih =>
    refine ih _ fun hocc => ?_
    rw [State.discardCtx_occ, Bool.and_eq_true, decide_eq_true_iff] at hocc
    obtain ⟨hne, hocc⟩ := hocc
    obtain ⟨x, hx, rfl⟩ := h hocc
    rcases List.mem_cons.1 hx with rfl | hx
    · exact absurd rfl hne
    · exact ⟨x, hx, rfl⟩

theorem State.listed_of_occ {s : State} {k : Nat} (h : (s.ctx k).occ = true) : ∃ e ∈ s.ctxs, e.1 = k := by
  have hne : tget s.ctxs k {} ≠ ({} : Ctx) := fun h0 => by
    rw [State.ctx, h0] at h
    cases h
  exact ⟨_, mem_of_thas (thas_of_tget hne) {}, rfl⟩

/-- The state that an abort ends in before its launch completes: records, contexts and what was bound for either are gone. -/
def State.cleared (s : State) (n : Nat) : State :=
  let s := s.removeRecords n
  let s : State := s.ctxs.foldl (fun s e => s.discardCtx e.1) s
  let saved : Tbl Ctx := ((s.dctx n).saved.getD {}).ctxs
  let s := saved.foldl (fun s e => s.setCore (e.1 / 8) ((s.core (e.1 / 8)).releaseCtx (e.1 % 8))) s
  let co (c : Core) : Core :=
    { ((c.kept.foldl (fun (c : Core) x => c.releaseKept x.rcd) c).clearFault false).clearFault true with exch := [], ss := [], rights := [], scores := [], flight := [], bars := c.bars.map Bar.forgo }
  let s : State := { s with cores := s.cores.map (fun (e : Nat × Core) => (e.1, co e.2)) }
  { s.setDctx n { s.dctx n with saved := none } with fwq := s.fwq.filter (fun q => q.svc != 512 || q.dc != n) }

theorem State.endAbort_eq {s : State} {n : Nat} {l : Launch} (h : (s.dctx n).launch = some l) : s.endAbort n = (s.cleared n).complete n l 3 ((s.cleared n).tick - l.firstTick) := by
  unfold State.endAbort
  rw [h]
  rfl

theorem State.released_ctxs (l : Tbl Ctx) (u : State) : (l.foldl (fun (s : State) e => s.setCore (e.1 / 8) ((s.core (e.1 / 8)).releaseCtx (e.1 % 8))) u).ctxs = u.ctxs := by
  refine foldl_keeps (P := fun v : State => v.ctxs = u.ctxs) (fun v e hv => ?_) l rfl
  exact hv

theorem State.cleared_ctxs (s : State) (n : Nat) : (s.cleared n).ctxs = ((s.removeRecords n).ctxs.foldl (fun (t : State) e => t.discardCtx e.1) (s.removeRecords n)).ctxs := by
  unfold State.cleared
  exact State.released_ctxs _ _

theorem State.cleared_fwq {s : State} {n : Nat} {q : FwReq} (h : q ∈ (s.cleared n).fwq) (hsvc : q.svc = 512) : q.dc ≠ n := by
  have hq := (List.mem_filter.1 h).2
  simpa [hsvc] using hq

theorem State.cleared_occ (s : State) (n k : Nat) : ((s.cleared n).ctx k).occ = false := by
  rw [State.ctx_congr (s.cleared_ctxs n)]
  exact State.discardAll_occ _ _ k State.listed_of_occ

theorem State.endAbort_spec {s : State} {n : Nat} (h : (s.dctx n).launch ≠ none) : ((s.endAbort n).dctx n).launch = none ∧ ((s.endAbort n).dctx n).aborting = false
    ∧ fld ((s.endAbort n).dctx n).qstat.toNat 12 4 = 3 ∧ (∀ q ∈ (s.endAbort n).fwq, q.svc = 512 → q.dc ≠ n) ∧ ∀ k, ((s.endAbort n).ctx k).occ = false := by
  obtain ⟨l, hl⟩ := Option.ne_none_iff_exists'.1 h
  rw [State.endAbort_eq hl]
  obtain ⟨hd, hctxs, hfwq, -, -⟩ := (s.cleared n).complete_spec n l 3 ((s.cleared n).tick - l.firstTick)
  obtain ⟨hlaunch, hab, -, -, -⟩ := (s.cleared n).completedCtx_rest n l 3
  rw [hd, hfwq]
  refine ⟨hlaunch, hab, (s.cleared n).completedCtx_status n l 3, fun q hq => State.cleared_fwq hq, fun k => ?_⟩
  rw [State.ctx_congr hctxs]
  exact s.cleared_occ n k

end Sys2Proof.Machine
end

section
/-! SUPPORT. The clauses of the queues, of launches and of scheduling, one lemma each. -/

set_option Elab.async false

namespace Sys2Proof.Machine

open Sys2Proof

/-! Queue registers (R327). -/

section
variable {s : State} {n : Nat} (v : Word) (hs : s.still = false) (hn : n < 64)
include hs hn

theorem qsizeWrite_spec (hl : (s.dctx n).launch = none) : ∃ t, exec (.qsizeWrite n v) s = .next t ∧ (t.dctx n).qsize = BitVec.ofNat 64 (v.toNat % 2 ^ 16) ∧ (t.dctx n).qstat = 0 := by
  refine ⟨_, qsizeWrite_run v hs hn, ?_⟩
  rw [hl, if_neg (by decide), State.dctx_setDctx_same]
  exact ⟨keep_low v 15, rfl⟩

theorem qsizeWrite_ignored (hl : (s.dctx n).launch ≠ none) : exec (.qsizeWrite n v) s = .next s := by
  rw [qsizeWrite_run v hs hn, if_pos (Option.isSome_iff_ne_none.2 hl)]

theorem qbasepWrite_spec (hl : (s.dctx n).launch = none) : ∃ t, exec (.registerWrite (0x10000 + 64 * n) v) s = .next t ∧ (t.dctx n).qbasep = BitVec.ofNat 64 (v.toNat % 2 ^ 56) := by
  refine ⟨_, qbasepWrite_run v hs hn hl, ?_⟩
  rw [State.dctx_setDctx_same]
  exact keep_low v 55

theorem ptrootWrite_spec (hr : s.resident ≠ some n) :
    ∃ t, exec (.registerWrite (0x20000 + 64 * n) v) s = .next t ∧ (t.dctx n).ptroot = BitVec.ofNat 64 (v.toNat / 2 ^ 12 % 2 ^ 44 * 2 ^ 12) := by
  refine ⟨_, ptrootWrite_run v hs hn, ?_⟩
  rw [if_neg hr, State.dctx_setDctx_same]
  rfl

theorem ptrootWrite_ignored (hr : s.resident = some n) : exec (.registerWrite (0x20000 + 64 * n) v) s = .next s := by
  rw [ptrootWrite_run v hs hn, if_pos hr]

end

/-! Queue entries (R328 to R332). -/

section
variable {s : State} {n : Nat} (h : s.takes n = true) (hp : s.physOk (s.dctx n).entryAt 256 = true) (hb : s.placeHeld (placeOf (s.dctx n).entryAt) (s.dctx n).entryAt 256 = false)

theorem State.advance_qhead (s : State) (n : Nat) : ((s.advance n).dctx n).qhead = BitVec.ofNat 64 (((s.dctx n).qhead.toNat + 1) % (s.dctx n).qsize.toNat) := by rw [State.advance_dctx]

/-- An entry of a kind above 3 leaves its mark in `qstat`, and the queue goes on. -/
theorem State.refuse_spec (s : State) (n : Nat) : ((s.refuse n).dctx n).qhead = BitVec.ofNat 64 (((s.dctx n).qhead.toNat + 1) % (s.dctx n).qsize.toNat)
    ∧ ((s.refuse n).dctx n).qstat.getLsbD 11 = true ∧ fld ((s.refuse n).dctx n).qstat.toNat 16 16 = (s.dctx n).qhead.toNat % 2 ^ 16 := by
  unfold State.refuse
  rw [State.advance_dctx, State.dctx_setDctx_same]
  simp only [DevCtx.setStat_rest, DevCtx.setStat_ref, DevCtx.setStat_ridx, and_self]

include h hp hb

theorem rules_spec (hk : s.entryWord n 31 = 2) (hz : ∀ i, 1 ≤ i → i < 31 → s.entryWord n i = 0) (ha : s.entryWord n 0 % 128 = 0) (hl : s.entryWord n 0 + 2048 ≤ 0x8000000000)
    (hbad : s.badLine [] (s.entryWord n 0) 2048 = none) (hj : s.jobs = []) (hwf : s.memWf = true) :
    ∃ t, exec (.rules n) s = .next t ∧ (t.dctx n).qhead = BitVec.ofNat 64 (((s.dctx n).qhead.toNat + 1) % (s.dctx n).qsize.toNat)
      ∧ (∀ i, i < 2048 → mget (t.dctx n).rules i = mget s.mem (s.entryWord n 0 + i)) ∧ sameMemory s t := by
  obtain ⟨hmem, -, -⟩ := State.memWf_iff.1 hwf
  refine ⟨_, rules_loaded h hp hb hk hz ha hl hbad hj, ?_, fun i hi => ?_, .refl s⟩
  · rw [State.advance_qhead, State.dctx_setDctx_same]
  · rw [State.advance_dctx, State.dctx_setDctx_same]
    simp only [mget_mcopy_nil hmem hi]

theorem signal_spec (hk : s.entryWord n 31 = 3) (hz : ∀ i, 2 ≤ i → i < 31 → s.entryWord n i = 0) (ha : s.entryWord n 0 % 8 = 0) (hl : s.entryWord n 0 < 0x8000000000)
    (hbad : s.badLine [] (s.entryWord n 0) 8 = none) (hplain : s.plain (s.entryWord n 0) 8) (hwf : s.memWf = true) (hbusy : s.blockBusy (s.entryWord n 0) 8 = false) :
    ∃ t, exec (.signal n) s = .next t ∧ (t.dctx n).qhead = BitVec.ofNat 64 (((s.dctx n).qhead.toNat + 1) % (s.dctx n).qsize.toNat) ∧ mread t.mem (s.entryWord n 0) 8 = s.entryWord n 1
      ∧ ∀ x, x < s.entryWord n 0 ∨ s.entryWord n 0 + 8 ≤ x → mget t.mem x = mget s.mem x := by
  obtain ⟨hmem, -, -⟩ := State.memWf_iff.1 hwf
  refine ⟨_, signal_sent h hp hb hk hz ha hl hbusy hbad hplain, ?_, ?_, fun x hx => ?_⟩
  · rw [State.dctx_congr (Wrote.pierWrite _ _ _ _).devctxs, State.advance_qhead]
  · rw [State.pierWrite_mem]
    exact (mread_mwrite hmem _ 8 _).trans (Nat.mod_eq_of_lt (s.entryWord_lt n 1))
  · rw [State.pierWrite_mem]
    exact mget_mwrite_outside hmem _ hx

variable (hk : s.entryWord n 31 % 256 = 1) (hh : s.launchHeld n (s.entryWord n) = false)
include hk hh

theorem launch_faulted (ht : s.readTemplate n = none) : ∃ t, exec (.launch n) s = .next t ∧ fld (t.dctx n).qstat.toNat 4 4 = 3 ∧ (t.dctx n).qhead = (s.dctx n).qhead := by
  refine ⟨_, launch_noTemplate h hp hb hk hh ht, ?_⟩
  rw [State.dctx_setDctx_same]
  exact ⟨DevCtx.setStat_err _ 3, rfl⟩

variable {u : State} (ht : s.readTemplate n = some u)
include ht

omit h hp hb hk hh in
/-- A launch that does not pass its checks completes at once with its status. -/
theorem launch_stopped {v : State} {status : Nat} (hst : status < 16) {completion : Option (List Nat)} (hv : ∃ r, v = { u with regs := r }) (hrun : exec (.launch n) s = .next (v.stopLaunch n status completion)) :
    ∃ t, exec (.launch n) s = .next t ∧ (t.dctx n).launch = none ∧ (t.dctx n).qhead = BitVec.ofNat 64 (((s.dctx n).qhead.toNat + 1) % (s.dctx n).qsize.toNat)
      ∧ fld (t.dctx n).qstat.toNat 12 4 = status ∧ t.ctxs = s.ctxs := by
  obtain ⟨x, rfl⟩ := State.readTemplate_some ht
  obtain ⟨r, rfl⟩ := hv
  exact ⟨_, hrun, State.stopLaunch_spec ⟨x, r, rfl⟩ hst completion⟩

variable (hl : launchOk (s.entryWord n) = true) (hf : u.spreadFenced (s.entryWord n) = false) (h19 : u.storable n (s.entryWord n 19) 32 = true)
  (h7 : u.storable n (s.entryWord n 7) (64 * fld (s.entryWord n 5) 0 21) = true) (h8 : u.storable n (s.entryWord n 8) (fld (s.entryWord n 5) 0 21 * s.entryWord n 6) = true)
  (ho : u.digestOverlaps n (s.entryWord n 17) (s.entryWord n 18) = false)
include hl hf h19 h7 h8 ho

/-- A launch that passes its checks runs, its records live. -/
theorem launch_started : ∃ t l, exec (.launch n) s = .next t ∧ (t.dctx n).launch = some l ∧ l.created = fld (s.entryWord n 5) 0 21 ∧ (t.dctx n).live = fld (s.entryWord n 5) 0 21
      ∧ (t.dctx n).qhead = BitVec.ofNat 64 (((s.dctx n).qhead.toNat + 1) % (s.dctx n).qsize.toNat) ∧ t.truss = launchTruss (s.entryWord n) ∧ t.ctxs = s.ctxs
      ∧ ∀ i, i < fld (s.entryWord n 5) 0 21 →
        (fld (s.entryWord n 5) 22 2 = 0 → ∃ e ∈ vget (t.cluster (i % 48)).queues (fld (s.entryWord n 4) 0 2) [], e.rcd = BitVec.ofNat 64 (s.entryWord n 7 + 64 * i) ∧ e.dc = n ∧ e.pin = none)
        ∧ (fld (s.entryWord n 5) 22 2 ≠ 0 → (s.core i).deque.length < 256 → ∃ e ∈ (t.core i).deque, e.rcd = BitVec.ofNat 64 (s.entryWord n 7 + 64 * i) ∧ e.dc = n ∧ e.pin = some i) := by
  obtain ⟨x, rfl⟩ := State.readTemplate_some ht
  obtain ⟨hd, htruss, hctxs, hplaced⟩ := State.startLaunch_spec (s.setDctx n { s.dctx n with template := x }) n (s.entryWord n) ((s.setDctx n { s.dctx n with template := x }).placesOf n (s.entryWord n 19) 32)
  refine ⟨_, _, (launch_checked h hp hb hk hh ht hl hf h19 h7 h8).trans (by rw [ho, if_neg (by decide)]), congrArg DevCtx.launch hd, ?_, ?_, ?_, htruss, hctxs, hplaced⟩
  · exact Nat.zero_add _
  · exact (congrArg DevCtx.live hd).trans (Nat.zero_add _)
  · rw [hd, State.dctx_setDctx_same]

end

/-! The end of a launch (R333). -/

theorem State.digestSum_lt (s : State) (n : Nat) : s.digestSum n < 2 ^ 64 := by
  unfold State.digestSum
  split
  · decide
  · exact BitVec.isLt _

theorem launchCompletion_spec {s : State} {n : Nat} {l : Launch} (hr : s.ready = true) (hn : s.resident = some n) (hl : (s.dctx n).launch = some l) (hlive : (s.dctx n).live = 0) (hab : (s.dctx n).aborting = false)
    (hq : ∀ e ∈ s.cores, e.2.copy.quiet = true ∧ e.2.index.quiet = true ∧ e.2.flight = []) (hheld : s.completionHeld l.completion = false) :
    ∃ t, exec (.launchCompletion n) s = .next t ∧ (t.dctx n).launch = none ∧ fld (t.dctx n).qstat.toNat 12 4 = 0 ∧ (t.dctx n).lnch = (s.dctx n).lnch + 1 ∧ t.msix.length = s.msix.length + 1
      ∧ ∀ pa, l.completion = some ((List.range 32).map (pa + ·)) → pa + 32 ≤ 0x8000000000 → s.plainFor pa 32 → s.memWf = true →
        mread t.mem pa 8 = 0 ∧ mread t.mem (pa + 8) 8 = s.digestSum n ∧ mread t.mem (pa + 16) 8 = s.tick - l.firstTick ∧ mread t.mem (pa + 24) 8 = l.created % 2 ^ 64 := by
  obtain ⟨hd, -, -, hmsix, hmem⟩ := s.complete_spec n l 0 (s.tick - l.firstTick)
  obtain ⟨hlaunch, -, -, hlnch, -⟩ := s.completedCtx_rest n l 0
  refine ⟨s.complete n l 0 (s.tick - l.firstTick), ?_, ?_, ?_, ?_, hmsix, fun pa hplaces hpa hplain hwf => ?_⟩
  · rw [launchCompletion_run hr hn hl hlive hab hq, hheld, if_neg (by decide)]
  · rw [hd, hlaunch]
  · rw [hd, State.completedCtx_status]
  · rw [hd, hlnch]
  · obtain ⟨hm, -, -⟩ := State.memWf_iff.1 hwf
    obtain ⟨h0, h1, h2, h3⟩ := State.writeBytes_completion (State.plainFor_launchEnded hl hplain) (u := s.launchEnded n l 0) hm hpa 0 (s.digestSum n) (s.tick - l.firstTick) l.created
    have htick : s.tick - l.firstTick < 2 ^ 64 := Nat.lt_of_le_of_lt (Nat.sub_le _ _) s.now.isLt
    rw [hmem, hplaces]
    exact ⟨h0, h1.trans (Nat.mod_eq_of_lt (s.digestSum_lt n)), h2.trans (Nat.mod_eq_of_lt htick), h3⟩

end Sys2Proof.Machine
end

section
/-! SUPPORT. The clauses of pickups, pre-emption, saves, switches and aborts, one lemma each. -/

set_option Elab.async false

namespace Sys2Proof.Machine

open Sys2Proof

section
variable {s : State} {core slot : Nat} (hslot : slot < 8)
include hslot

theorem pickup_spec {n : Nat} {e : QEnt} {l : List QEnt} (hr : s.ready = true) (hinc : s.incoming = none) (hcore : core < 1536) (hres : s.resident = some n) (hocc : (s.ctx (8 * core + slot)).occ = false)
    (hf : (s.core core).fenced = false) (hab : (s.dctx n).aborting = false) (hd : (s.core core).deque = l ++ [e]) (ht : s.takeable core e = true) (hid : s.recCkid core e = 0) :
    ∃ t, exec (.pickup core slot) s = .next t ∧ (t.core core).deque = l ∧ (t.ctx (8 * core + slot)).occ = true ∧ (t.ctx (8 * core + slot)).rcd = e.rcd ∧ (t.ctx (8 * core + slot)).dc = e.dc
      ∧ (t.ctx (8 * core + slot)).wait = .none
      ∧ (∀ w, s.readVa core (s.recTrans e.dc) (fld e.rcd.toNat 0 56) 8 = some w → (t.ctx (8 * core + slot)).pc = BitVec.ofNat 64 (w % 2 ^ 56)) ∧ sameContexts s t (8 * core + slot) ∧ sameMemory s t := by
  have hk : (8 * core + slot) / 8 = core := by omega
  obtain ⟨hpc, hck⟩ := s.setDeque_record core l
  have hid' : (s.setDeque core l).recCkid ((8 * core + slot) / 8) e = 0 := by rw [hk, hck, hid]
  obtain ⟨⟨hocc', hrcd, hdc, hwait, hpc'⟩, hctxs, hmem, hdeque⟩ := State.load_fresh hid'
  refine ⟨_, pickup_run hr hinc hcore hslot hres hocc hf hab hd ht, ?_, hocc', hrcd, hdc, hwait, fun w hw => ?_, hctxs, hmem⟩
  · rw [hdeque, State.setDeque, State.core_setCore_same]
  · have hlt : w % 2 ^ 64 % 2 ^ 56 = w % 2 ^ 56 := by omega
    rw [hpc', hk, hpc, State.recordPc, hw, Option.getD_some, keep_low, w64, BitVec.toNat_ofNat, hlt]

theorem preemptRequest_spec (hr : s.ready = true) (hres : s.resident ≠ none) (hcore : core < 1536) (hocc : (s.ctx (8 * core + slot)).occ = true) (hst : (s.ctx (8 * core + slot)).stopped = false) :
    ∃ t, exec (.preemptRequest core) s = .next t ∧ (t.ctx (8 * core + slot)).preempt = true
      ∧ ((s.ctx (8 * core + slot)).wait = .none → (t.ctx (8 * core + slot)).pmTrap = ((s.dctx (s.resident.getD 0)).dlctl.getLsbD 32 && !(s.ctx (8 * core + slot)).super))
      ∧ (t.ctx (8 * core + slot)).pc = (s.ctx (8 * core + slot)).pc ∧ sameRegisters (s.ctx (8 * core + slot)) (t.ctx (8 * core + slot)) [] ∧ sameMemory s t
      ∧ (∀ n, (s.ctx (8 * core + slot)).wait = .idle n → (t.ctx (8 * core + slot)).wait = .none
        ∧ (((s.endWait (8 * core + slot)).checkpoint core ((s.endWait (8 * core + slot)).ctx (8 * core + slot)) (s.ctx (8 * core + slot)).pc).isSome = true → (t.ctx (8 * core + slot)).pmTrap = false)) := by
  have hcalm := Calms.preemptCore s core
  obtain ⟨hfile, hpc, -⟩ := Ctx.steady_iff.1 (hcalm.ctx (8 * core + slot))
  obtain ⟨hpre, hnone, hidle⟩ := s.preemptCore_spec core (k := 8 * core + slot) (by omega) hocc hst
  exact ⟨_, preemptRequest_run s core hr hres hcore, hpre, hnone, hpc, (sameRegisters_of_file hfile).1, hcalm.sameMemory, hidle⟩

theorem leaveAtCheckpoint_spec {id : Nat} {u : State} (hs : s.still = false) (hm : s.mayLeave (8 * core + slot) = true)
    (hc : s.checkpoint core (s.ctx (8 * core + slot)) (s.ctx (8 * core + slot)).pc = some id)
    (hl : s.leaveReady (8 * core + slot) (s.entryWords core (s.ctx (8 * core + slot)) id) = true) (hu : s.saveContext (8 * core + slot) id = .ok u) :
    ∃ t e, exec (.leaveAtCheckpoint core slot) s = .next t ∧ (t.ctx (8 * core + slot)).occ = false ∧ e.rcd = (s.ctx (8 * core + slot)).rcd ∧ e.dc = (s.ctx (8 * core + slot)).dc
      ∧ e.uid = (s.ctx (8 * core + slot)).uid ∧ sameContexts s t (8 * core + slot)
      ∧ ((s.ctx (8 * core + slot)).pinned = false →
        vget (t.cluster (core / 32)).queues (s.ctx (8 * core + slot)).prio.toNat [] = vget (s.cluster (core / 32)).queues (s.ctx (8 * core + slot)).prio.toNat [] ++ [e])
      ∧ ((s.ctx (8 * core + slot)).pinned = true → (s.core core).deque.length < 256 → e.pin = some core ∧ (t.core core).deque = (s.core core).deque ++ [e]) := by
  obtain ⟨hocc, hctxs, e, hrcd, hdc, huid, hqueue, hdeque⟩ := State.departed_spec (core := core) (k := 8 * core + slot) (Wrote.saveContext hu) (by omega)
  exact ⟨_, e, leaveAtCheckpoint_run hs hslot hm hc hl hu, hocc, hrcd, hdc, huid, hctxs, hqueue, hdeque⟩

theorem hardSave_spec {n a : Nat} (hs : s.still = false) (hinc : s.incoming ≠ none) (hres : s.resident = some n) (hat : (s.core core).preemptAt = some a)
    (hdue : a + fld (s.dctx n).dlctl.toNat 0 32 ≤ s.tick) (hocc : (s.ctx (8 * core + slot)).occ = true) (hdc : (s.ctx (8 * core + slot)).dc = n) (htrap : (s.ctx (8 * core + slot)).trap = none)
    (hab : (s.dctx n).aborting = false) (hd : ((s.endWait (8 * core + slot)).ctx (8 * core + slot)).drained = true) (hw : ((s.endWait (8 * core + slot)).ctx (8 * core + slot)).wait = .none)
    (hr : (s.endWait (8 * core + slot)).releaseReady core slot = true) :
    ∃ t sv, exec (.hardSave core slot) s = .next t ∧ (t.ctx (8 * core + slot)).occ = false ∧ (t.dctx n).saved = some sv ∧ (tget sv.ctxs (8 * core + slot) {}).pc = (s.ctx (8 * core + slot)).pc
      ∧ sameRegisters (s.ctx (8 * core + slot)) (tget sv.ctxs (8 * core + slot) {}) [] ∧ (tget sv.ctxs (8 * core + slot) {}).sr = (s.ctx (8 * core + slot)).sr
      ∧ sameContexts (s.endWait (8 * core + slot)) t (8 * core + slot)
      ∧ (∀ x, x < s.savedAt (8 * core + slot) ∨ s.savedAt (8 * core + slot) + 0x4000 ≤ x → mget t.mem x = mget s.mem x) := by
  have hcalm := Calms.endWait s (8 * core + slot)
  have hrun := hardSave_run hs hslot hinc hres hat hdue hocc htrap hab hd hw hr
  generalize 8 * core + slot = k at *
  obtain ⟨hfile, hpc, -, -, hdc', -⟩ := Ctx.steady_iff.1 (hcalm.ctx k)
  obtain ⟨hput, hmem⟩ := (s.endWait k).putSaved_spec k
  have hctx : ((s.endWait k).putSaved k).ctx k = (s.endWait k).ctx k := State.ctx_congr hput.ctxs k
  obtain ⟨hocc', hctxs, hsaved, hmem'⟩ := ((s.endWait k).putSaved k).savedWhole_spec core slot k
  have harea : (s.endWait k).savedAt k = s.savedAt k := by rw [State.savedAt, State.savedAt, hdc', hcalm.dctx]
  have hn : (((s.endWait k).putSaved k).ctx k).dc = n := by rw [hctx, hdc', hdc]
  have hparked : tget (((s.endWait k).putSaved k).savedIn k).ctxs k {} = ((s.endWait k).ctx k).parkedWhole := by rw [State.savedIn_ctx, hctx]
  obtain ⟨hregs, hsr⟩ := sameRegisters_of_file (c := s.ctx k) (d := ((s.endWait k).ctx k).parkedWhole) hfile
  rw [hn] at hsaved
  refine ⟨_, _, hrun, hocc', hsaved, ?_, ?_, ?_, fun j hj => ?_, fun x hx => ?_⟩
  · rw [hparked]
    exact hpc
  · rw [hparked]
    exact hregs
  · rw [hparked]
    exact hsr
  · rw [hctxs j hj, State.ctx_congr hput.ctxs]
  · rw [hmem', hmem x (by rwa [harea])]
    exact congrArg (mget · x) hcalm.sameMemory.1

end

section
variable {s : State} {n m : Nat} (hr : s.ready = true) (hres : s.resident = some n)
include hr hres

theorem contextSwitch_spec (hm : m < 64) (hne : m ≠ n) (hinc : s.incoming = none) :
    ∃ t, exec (.contextSwitch m) s = .next t ∧ t.incoming = some m ∧ t.resident = some n ∧ sameMemory s t
      ∧ ∀ core slot, core < 1536 → slot < 8 → (s.ctx (8 * core + slot)).occ = true → (s.ctx (8 * core + slot)).stopped = false → (t.ctx (8 * core + slot)).preempt = true := by
  have hcalm := Calms.preemptedTo ({ s with incoming := some m } : State) 1536
  refine ⟨_, contextSwitch_run s hr hres hm hne hinc, hcalm.keeps State.incoming fun _ _ => rfl, (hcalm.keeps State.resident fun _ _ => rfl).trans hres, hcalm.sameMemory, fun core slot hcore hslot hocc hst => ?_⟩
  exact ({ s with incoming := some m } : State).preemptedTo_preempt (by omega) hocc hst

theorem abort_begun {q : FwReq} {r : List FwReq} (hq : s.fwq = q :: r) (hsvc : q.svc = 512) (hp : s.posted = none) (hab : (s.dctx n).aborting = false) (hl : (s.dctx q.dc).launch ≠ none) :
    ∃ t, exec .abort s = .next t ∧ (q.dc = n → (t.dctx n).aborting = true) ∧ (q.dc ≠ n → (t.dctx q.dc).abortDue = true ∧ (t.dctx n).aborting = false ∧ t.ctxs = s.ctxs ∧ t.cores = s.cores) ∧ t.fwq = r := by
  refine ⟨_, abort_begins hr hres hab hq hsvc hp, ?_⟩
  by_cases hn : q.dc = n
  · subst hn
    obtain ⟨ha, hf⟩ := State.abortLaunch_resident (s := { s with fwq := r }) hres hl
    exact ⟨fun _ => ha, fun h => absurd rfl h, hf⟩
  · have haway := State.abortLaunch_away (s := { s with fwq := r }) (n := q.dc) (fun h => hn (Option.some.inj (h.symm.trans hres))) hl
    rw [haway]
    refine ⟨fun h => absurd h hn, fun _ => ⟨?_, ?_, rfl, rfl⟩, rfl⟩
    · rw [State.dctx_setDctx_same]
    · rw [State.dctx_setDctx_other _ (Ne.symm hn)]
      exact hab

end

end Sys2Proof.Machine
end

section
open Sys2Proof Sys2Proof.Machine

/-- Settles O59: each event by what its state lemma says of it. A launch that fails a check stops with that check's status; a switch and an abort are followed through
what they leave of the device contexts and of the requests to Cethen. -/
theorem queuesLaunchesAndScheduling : Obligations.QueuesLaunchesAndScheduling := by
  unfold Obligations.QueuesLaunchesAndScheduling
  refine ⟨fun n v s hs hn => ?_, ?_, fun n l s hr hn hl hlive hab hq => ?_, ?_, fun cluster level dc e r s hr hc hlvl hres hq hage hdue => ?_,
    fun n m s hr hres => ?_⟩
  · exact ⟨qtailDoorbell_spec v hs hn, qsizeWrite_spec v hs hn, qsizeWrite_ignored v hs hn, qbasepWrite_spec v hs hn, ptrootWrite_spec v hs hn, ptrootWrite_ignored v hs hn, pwcapWrite_run v hs⟩
  · intro n s h d a w next hp
    refine ⟨entries_held h hp, fun hb => ⟨fun hk hz => ?_, fun hk => ?_, fun hk hz ha hl hbad hj hwf => rules_spec h hp hb hk hz ha hl hbad hj hwf, fun hk hz ha hl hbad hplain hwf => ?_,
      fun hk hh => launch_held h hp hb hk hh, fun hk hh ht => launch_faulted h hp hb hk hh ht, ?_⟩⟩
    · exact ⟨_, queueNop_nothing h hp hb hk hz, State.advance_dctx s n, .refl s, rfl⟩
    · exact ⟨_, queueNop_unknown h hp hb hk, s.refuse_spec n⟩
    · exact ⟨fun hbusy => signal_held h hp hb hk hz ha hl hbusy, fun hbusy => signal_spec h hp hb hk hz ha hl hbad hplain hwf hbusy⟩
    · intro hk hh u ht count fails
      have hcount : fld (s.entryWord n 5) 0 21 = count := fld_low _ _
      refine ⟨fun hl => launch_stopped ht (by decide) ⟨_, rfl⟩ (launch_bad h hp hb hk hh ht hl), fun hl hf => launch_stopped ht (by decide) ⟨_, rfl⟩ (launch_fenced h hp hb hk hh ht hl hf),
        fun hl hf hst => launch_stopped ht (by decide) ⟨_, rfl⟩ (launch_unstorable h hp hb hk hh ht hl hf (hcount ▸ hst)), fun hl hf h19 h7 h8 => ⟨fun ho => ?_, fun ho => ?_⟩⟩
      · have hrun := launch_checked h hp hb hk hh ht hl hf h19 (hcount ▸ h7) (hcount ▸ h8)
        exact launch_stopped ht (by decide) ⟨_, rfl⟩ (hrun.trans (congrArg Host.Outcome.next (if_pos ho)))
      · have hstart := launch_started h hp hb hk hh ht hl hf h19 (hcount ▸ h7) (hcount ▸ h8) ho
        rw [hcount, fld_low] at hstart
        exact hstart
  · refine ⟨fun hheld => ?_, launchCompletion_spec hr hn hl hlive hab hq⟩
    rw [launchCompletion_run hr hn hl hlive hab hq, if_pos hheld]
  · intro core slot s hslot k c
    exact ⟨fun n e l hr hinc hcore hres hocc hf hab hd ht hid => pickup_spec hslot hr hinc hcore hres hocc hf hab hd ht hid, preemptRequest_spec hslot,
      fun id u hs hm hc hl hu => leaveAtCheckpoint_spec hslot hs hm hc hl hu, fun n a hs hinc hres hat hdue hocc hdc htrap hab hd hw hr => hardSave_spec hslot hs hinc hres hat hdue hocc hdc htrap hab hd hw hr⟩
  · exact ⟨_, queueAgingPromotion_run hr hc hlvl hres hq hage hdue, queueAgingPromotion_spec hlvl⟩
  · refine ⟨contextSwitch_spec hr hres, fun hinc hsw => ⟨_, switchSaveAndLoad_run hr hres hinc hsw, s.switchedOver_spec n m⟩, fun q r => abort_begun hr hres, fun hab hl hready hheld => ?_⟩
    obtain ⟨l, hlaunch⟩ := Option.ne_none_iff_exists'.1 hl
    exact ⟨_, abort_ends hr hres hab hlaunch hready (hheld l hlaunch), State.endAbort_spec hl⟩

end

section
/-! SUPPORT. Rounding (R35, R36): where an exact magnitude stands between two steps of a grid, and which of the two a rounding takes. -/

set_option Elab.async false

namespace Sys2Proof.Machine

open Sys2Proof

/-- A magnitude that stands on m·2^e, or above it by less than one unit of m when `sticky`. -/
def Stands (m : Nat) (e : Int) (sticky : Bool) (v : ℝ) : Prop :=
  (m : ℝ) * 2 ^ e ≤ v ∧ v < (m + 1) * 2 ^ e ∧ (sticky = false ↔ v = m * 2 ^ e)

/-- Does a magnitude that lies the part t of a step above the step q round up (R35)? Modes `.rne`, `.rz`, `.rdn` and `.rup`. -/
def RoundsUp (mode : Nat) (neg : Bool) (q : Nat) (t : ℝ) : Prop :=
  match mode with
  | 0 => 1 / 2 < t ∨ (t = 1 / 2 ∧ q % 2 = 1)
  | 1 => False
  | 2 => t ≠ 0 ∧ neg = true
  | _ => t ≠ 0 ∧ neg = false

theorem roundsUp_zero (mode : Nat) (neg : Bool) (q : Nat) : ¬ RoundsUp mode neg q 0 := by
  unfold RoundsUp
  split <;> norm_num

theorem two_zpow_pos (k : Int) : (0 : ℝ) < 2 ^ k := zpow_pos two_pos k

theorem two_zpow_ne (k : Int) : (2 : ℝ) ^ k ≠ 0 := (two_zpow_pos k).ne'

theorem two_zpow_add (j k : Int) : (2 : ℝ) ^ (j + k) = 2 ^ j * 2 ^ k := zpow_add₀ two_ne_zero j k

theorem two_zpow_le {j k : Int} (h : j ≤ k) : (2 : ℝ) ^ j ≤ 2 ^ k := zpow_le_zpow_right₀ one_le_two h

/-- A larger power of two is a multiple of a smaller one. -/
theorem two_zpow_split {j k : Int} (h : j ≤ k) : (2 : ℝ) ^ k = ((2 ^ (k - j).toNat : Nat) : ℝ) * 2 ^ j := by
  have hk : k = ((k - j).toNat : Int) + j := by omega
  calc (2 : ℝ) ^ k = 2 ^ (((k - j).toNat : Int) + j) := by rw [← hk]
    _ = _ := by rw [two_zpow_add, zpow_natCast, Nat.cast_pow, Nat.cast_ofNat]

theorem Stands.exact (m : Nat) (e : Int) : Stands m e false (m * 2 ^ e) :=
  ⟨le_rfl, by have := two_zpow_pos e; nlinarith, by simp⟩

namespace Stands

variable {m : Nat} {e : Int} {sticky : Bool} {v : ℝ}

/-- The place of a magnitude within a unit of m. -/
theorem offset (h : Stands m e sticky v) : ∃ d : ℝ, v = (m + d) * 2 ^ e ∧ 0 ≤ d ∧ d < 1 ∧ (sticky = false ↔ d = 0) := by
  obtain ⟨hl, hu, hs⟩ := h
  have hp := two_zpow_pos e
  have hv : v = (m + (v / 2 ^ e - m)) * 2 ^ e := by field_simp; ring
  refine ⟨v / 2 ^ e - m, hv, ?_, ?_, hs.trans ?_⟩
  · rw [sub_nonneg, le_div_iff₀ hp]
    exact hl
  · rw [sub_lt_iff_lt_add', div_lt_iff₀ hp]
    exact hu
  · rw [sub_eq_zero, div_eq_iff hp.ne']

theorem lower (h : Stands m e sticky v) (hm : m ≠ 0) : (2 : ℝ) ^ (e + (Nat.log2 m : Nat)) ≤ v := by
  refine le_trans ?_ h.1
  rw [add_comm, two_zpow_add, zpow_natCast]
  exact mul_le_mul_of_nonneg_right (by exact_mod_cast Nat.log2_self_le hm) (two_zpow_pos e).le

theorem upper (h : Stands m e sticky v) : v < (2 : ℝ) ^ (e + (Nat.log2 m : Nat) + 1) := by
  refine h.2.1.trans_le ?_
  rw [show e + (Nat.log2 m : Nat) + 1 = ((Nat.log2 m + 1 : Nat) : Int) + e by push_cast; ring, two_zpow_add, zpow_natCast]
  have hm : (m : ℝ) + 1 ≤ 2 ^ (Nat.log2 m + 1) := by exact_mod_cast Nat.succ_le_of_lt (Nat.lt_log2_self (n := m))
  exact mul_le_mul_of_nonneg_right hm (two_zpow_pos e).le

theorem pos (h : Stands m e sticky v) (hm : m ≠ 0) : 0 < v := (two_zpow_pos _).trans_le (h.lower hm)

end Stands

/-- The part of a step of 2^s that a remainder r with a rest d makes up, against one half. -/
theorem half_step {s r : Nat} {d : ℝ} (hs : 0 < s) (hd : 0 ≤ d) (hd1 : d < 1) :
    (1 / 2 < (r + d) / 2 ^ s ↔ 2 ^ (s - 1) < r ∨ (r = 2 ^ (s - 1) ∧ d ≠ 0)) ∧ ((r + d) / 2 ^ s = 1 / 2 ↔ r = 2 ^ (s - 1) ∧ d = 0) := by
  obtain ⟨s, rfl⟩ : ∃ k, s = k + 1 := ⟨s - 1, by omega⟩
  have hp : (0 : ℝ) < 2 ^ (s + 1) := by positivity
  have hcast : ((2 ^ s : Nat) : ℝ) = 2 ^ s := by push_cast; rfl
  have h2 : (1 / 2 : ℝ) * 2 ^ (s + 1) = ((2 ^ s : Nat) : ℝ) := by rw [hcast, pow_succ]; ring
  rw [lt_div_iff₀ hp, div_eq_iff hp.ne', h2, Nat.add_sub_cancel]
  generalize 2 ^ s = half
  rcases lt_trichotomy half r with hlt | rfl | hlt
  · have : (half : ℝ) + 1 ≤ r := by exact_mod_cast hlt
    exact ⟨iff_of_true (by linarith) (.inl hlt), iff_of_false (by intro h; linarith) (by omega)⟩
  · refine ⟨⟨fun h => .inr ⟨rfl, by intro h0; linarith⟩, fun h => ?_⟩, ⟨fun h => ⟨rfl, by linarith⟩, fun h => by linarith [h.2]⟩⟩
    have : 0 < d := lt_of_le_of_ne hd (Ne.symm (h.resolve_left (lt_irrefl _)).2)
    linarith
  · have : (r : ℝ) + 1 ≤ half := by exact_mod_cast hlt
    exact ⟨iff_of_false (by intro h; linarith) (by omega), iff_of_false (by intro h; linarith) (by omega)⟩

/-- What `gridRound` gives: the magnitude stands the part t of a step above the step q, and the result is q or the step above it (R35). -/
theorem gridRound_spec {mode : Nat} (hmode : mode ≤ 3) (h : Nat) (neg : Bool) {m : Nat} {e : Int} {sticky : Bool} {v : ℝ} (hv : Stands m e sticky v) {u : Int}
    (hu : sticky = true → e < u) : ∃ (q : Nat) (t : ℝ) (inexact up : Bool), gridRound mode h neg m e sticky u = (q + b2n up, inexact, up) ∧ v = (q + t) * 2 ^ u
      ∧ 0 ≤ t ∧ t < 1 ∧ (inexact = true ↔ t ≠ 0) ∧ (up = true ↔ RoundsUp mode neg q t) := by
  by_cases hle : u ≤ e
  · have hs : sticky = false := Bool.eq_false_iff.2 fun hs => absurd (hu hs) (by omega)
    have hx := hv.2.2.1 hs
    refine ⟨m * 2 ^ (e - u).toNat, 0, sticky, false, ?_, ?_, le_rfl, one_pos, by simp [hs], iff_of_false (by simp) (roundsUp_zero _ _ _)⟩
    · simp [gridRound, hle, b2n]
    · rw [hx, two_zpow_split hle]
      push_cast
      ring
  · obtain ⟨d, hd, hd0, hd1, hds⟩ := hv.offset
    have hlt : e < u := not_le.1 hle
    obtain ⟨s, hs⟩ : ∃ s, s = (u - e).toNat := ⟨_, rfl⟩
    have hs0 : 0 < s := by omega
    have hsplit : (2 : ℝ) ^ u = 2 ^ s * 2 ^ e := by rw [two_zpow_split hlt.le, ← hs]; push_cast; rfl
    have hp : (0 : ℝ) < 2 ^ s := by positivity
    have hm : (m : ℝ) = 2 ^ s * (m / 2 ^ s : Nat) + (m % 2 ^ s : Nat) := by exact_mod_cast (Nat.div_add_mod m (2 ^ s)).symm
    have hr : ((m % 2 ^ s : Nat) : ℝ) + 1 ≤ 2 ^ s := by exact_mod_cast Nat.mod_lt m (Nat.two_pow_pos s)
    obtain ⟨hgt, heq⟩ := half_step (r := m % 2 ^ s) hs0 hd0 hd1
    have hst : sticky = true ↔ d ≠ 0 := by rw [Ne, ← hds]; simp
    have hzero : ((m % 2 ^ s : Nat) + d) / 2 ^ s ≠ 0 ↔ (m % 2 ^ s ≠ 0 ∨ d ≠ 0) := by
      have hr0 : (0 : ℝ) ≤ (m % 2 ^ s : Nat) := Nat.cast_nonneg _
      rw [div_ne_zero_iff, and_iff_left hp.ne', ← not_and_or, Ne, not_iff_not, add_eq_zero_iff_of_nonneg hr0 hd0, Nat.cast_eq_zero]
    have hround : gridRound mode h neg m e sticky u = (m / 2 ^ s + b2n (gridRound mode h neg m e sticky u).2.2, decide (m % 2 ^ s ≠ 0) || sticky, (gridRound mode h neg m e sticky u).2.2) := by
      rw [gridRound, if_neg hle, ← hs]
    refine ⟨m / 2 ^ s, ((m % 2 ^ s : Nat) + d) / 2 ^ s, _, _, hround, ?_, div_nonneg (by positivity) hp.le, ?_, ?_, ?_⟩
    · rw [hd, hsplit, hm]
      field_simp
      ring
    · rw [div_lt_one hp]
      linarith
    · rw [hzero, ← hst]
      simp
    · rw [gridRound, if_neg hle, ← hs]
      interval_cases mode
      · simp only [RoundsUp, hgt, heq, Bool.or_eq_true, Bool.and_eq_true, decide_eq_true_eq, beq_iff_eq, hst]
        by_cases hz : d = 0
        · simp [hz]
        · simp [hz]
      · simp [RoundsUp]
      · simp only [RoundsUp, hzero, ← hst]
        simp
      · simp only [RoundsUp, hzero, ← hst]
        simp

end Sys2Proof.Machine
end

section
/-! SUPPORT. The finite values of a format (R24 to R26): how they lie on grids of powers of two, and which pattern stands for a count of steps. -/

set_option Elab.async false

namespace Sys2Proof.Machine

open Sys2Proof

/-- A magnitude with its sign. -/
def signed (neg : Bool) (v : ℝ) : ℝ := if neg then -v else v

@[simp] theorem signed_true (v : ℝ) : signed true v = -v := rfl
@[simp] theorem signed_false (v : ℝ) : signed false v = v := rfl

theorem abs_signed (neg : Bool) (v : ℝ) : |signed neg v| = |v| := by
  cases neg
  · rfl
  · exact abs_neg v

theorem signed_inj {neg : Bool} {v w : ℝ} : signed neg v = signed neg w ↔ v = w := by
  cases neg
  · rfl
  · exact neg_inj

theorem cast_numValue_fin (neg : Bool) (m : Nat) (e : Int) : ((numValue (.fin neg m e) : ℚ) : ℝ) = signed neg (m * 2 ^ e) := by
  cases neg <;> simp [numValue]

/-- The greatest finite value of a format is Q steps of the K-th exponent above the least (R24, R26). -/
structure TopAt (f : Fmt) (K Q : Nat) : Prop where
  frac : 1 ≤ f.fb
  top : f.maxPat = K * 2 ^ f.fb + Q
  low : 2 ^ f.fb < Q
  high : Q < 2 ^ (f.fb + 1)
  fits : f.maxPat < 2 ^ (f.eb + f.fb)
  exps : K ≤ 2 ^ (f.eb + 1)

theorem topAt_of_mem {f : Fmt} (hf : f ∈ formats) : TopAt f (f.maxPat / 2 ^ f.fb - 1) (f.maxPat % 2 ^ f.fb + 2 ^ f.fb) := by
  simp only [formats, List.mem_cons, List.not_mem_nil, or_false] at hf
  rcases hf with rfl | rfl | rfl | rfl | rfl | rfl
  all_goals exact ⟨by decide, by decide, by decide, by decide, by decide, by decide⟩

namespace TopAt

variable {f : Fmt} {K Q : Nat}

/-- In a format with infinities that one follows the greatest finite value; in another the NaN does. -/
theorem next (h : TopAt f K Q) : if f.hasInf then f.infPat = f.maxPat + 1 else 2 ^ (f.eb + f.fb) = f.maxPat + 2 := by
  have hpos : 0 < f.maxPat := (Nat.zero_lt_of_lt h.low).trans_le (by rw [h.top]; exact Nat.le_add_left _ _)
  cases hi : f.hasInf
  · simp only [Fmt.maxPat, hi, Bool.false_eq_true, if_false] at hpos ⊢
    omega
  · simp only [Fmt.maxPat, Fmt.infPat, hi, if_true] at hpos ⊢
    omega

end TopAt

/-- A number of eb + fb bits is a count of exponents and a significand. -/
theorem pattern_split (f : Fmt) (p : Nat) : ∃ k q, p = k * 2 ^ f.fb + q ∧ q < 2 ^ (f.fb + 1) ∧ (k = 0 ∨ 2 ^ f.fb ≤ q)
    ∧ q = p % 2 ^ f.fb + (if p / 2 ^ f.fb = 0 then 0 else 2 ^ f.fb) ∧ k = p / 2 ^ f.fb - 1 := by
  have hm := Nat.mod_lt p (Nat.two_pow_pos f.fb)
  have hd := Nat.div_add_mod p (2 ^ f.fb)
  refine ⟨_, _, ?_, ?_, ?_, rfl, rfl⟩
  · rw [Nat.mul_comm]
    generalize p / 2 ^ f.fb = e at hd ⊢
    cases e with
    | zero => simpa using hd.symm
    | succ j =>
      rw [Nat.mul_succ] at hd
      rw [if_neg (Nat.succ_ne_zero j), Nat.add_sub_cancel]
      omega
  · rw [Nat.pow_succ]
    split <;> omega
  · by_cases h0 : p / 2 ^ f.fb = 0
    · left
      rw [h0]
    · right
      rw [if_neg h0]
      exact Nat.le_add_left _ _

theorem fld_field (f : Fmt) (z : Nat) : fld z f.fb f.eb = z % 2 ^ (f.eb + f.fb) / 2 ^ f.fb := by
  rw [fld, Nat.add_comm, Nat.pow_add, Nat.mod_mul_right_div_self]

theorem fld_frac (f : Fmt) (z : Nat) : fld z 0 f.fb = z % 2 ^ (f.eb + f.fb) % 2 ^ f.fb := by
  rw [fld, Nat.pow_zero, Nat.div_one, Nat.mod_mod_of_dvd _ (pow_dvd_pow 2 (Nat.le_add_left _ _))]

/-- A pattern up to that of the greatest finite value stands for its steps of its exponent. -/
theorem decode_of_le {f : Fmt} {K Q : Nat} (h : TopAt f K Q) {z : Nat} (hz : z % 2 ^ (f.eb + f.fb) ≤ f.maxPat) : ∃ k q, z % 2 ^ (f.eb + f.fb) = k * 2 ^ f.fb + q
    ∧ q < 2 ^ (f.fb + 1) ∧ (k = 0 ∨ 2 ^ f.fb ≤ q) ∧ f.decode z = .fin (bitOf z (f.eb + f.fb)) q (k + f.emin - f.fb) := by
  obtain ⟨k, q, hp, hq, hk, hqe, hke⟩ := pattern_split f (z % 2 ^ (f.eb + f.fb))
  refine ⟨k, q, hp, hq, hk, ?_⟩
  have hnext := h.next
  have hdm := Nat.div_add_mod (z % 2 ^ (f.eb + f.fb)) (2 ^ f.fb)
  have hinf : ¬ (f.hasInf = true ∧ z % 2 ^ (f.eb + f.fb) / 2 ^ f.fb = 2 ^ f.eb - 1) := by
    rintro ⟨hi, he⟩
    rw [hi, if_pos rfl, Fmt.infPat, ← he, Nat.mul_comm] at hnext
    omega
  have hnan : ¬ (f.hasInf = false ∧ z % 2 ^ (f.eb + f.fb) / 2 ^ f.fb = 2 ^ f.eb - 1 ∧ z % 2 ^ (f.eb + f.fb) % 2 ^ f.fb = 2 ^ f.fb - 1) := by
    rintro ⟨hi, he, hm⟩
    rw [hi, if_neg (by simp)] at hnext
    have h1 := Nat.two_pow_pos f.fb
    have h2 := Nat.two_pow_pos f.eb
    rw [he, hm, Nat.mul_sub, Nat.mul_one, Nat.mul_comm, ← Nat.pow_add] at hdm
    have h3 : 2 ^ f.fb ≤ 2 ^ (f.eb + f.fb) := Nat.pow_le_pow_right two_pos (Nat.le_add_left _ _)
    omega
  unfold Fmt.decode
  simp only [fld_field, fld_frac]
  rw [if_neg hinf, if_neg hnan]
  split
  · rename_i h0
    rw [hqe, hke, if_pos h0, h0]
    simp
  · rename_i h0
    have hk1 : ((z % 2 ^ (f.eb + f.fb) / 2 ^ f.fb - 1 : Nat) : Int) = (z % 2 ^ (f.eb + f.fb) / 2 ^ f.fb : Nat) - 1 := by
      have := Nat.pos_of_ne_zero h0
      push_cast [Nat.cast_sub this]
      rfl
    rw [hqe, hke, if_neg h0, hk1, Fmt.emin]
    congr 1
    ring

/-- A finite value has a pattern up to that of the greatest. -/
theorem le_of_isFin {f : Fmt} {K Q : Nat} (h : TopAt f K Q) {z : Nat} (hz : isFin (f.decode z) = true) : z % 2 ^ (f.eb + f.fb) ≤ f.maxPat := by
  have hnext := h.next
  have hlt := Nat.mod_lt z (Nat.two_pow_pos (f.eb + f.fb))
  have hdm := Nat.div_add_mod (z % 2 ^ (f.eb + f.fb)) (2 ^ f.fb)
  by_contra hgt
  unfold Fmt.decode at hz
  simp only [fld_field, fld_frac] at hz
  cases hi : f.hasInf
  · rw [hi, if_neg (by simp)] at hnext
    have hz1 : z % 2 ^ (f.eb + f.fb) = (2 ^ f.eb - 1) * 2 ^ f.fb + (2 ^ f.fb - 1) := by
      have h1 := Nat.two_pow_pos f.fb
      have h3 : 2 ^ f.fb ≤ 2 ^ (f.eb + f.fb) := Nat.pow_le_pow_right two_pos (Nat.le_add_left _ _)
      rw [Nat.sub_mul, ← Nat.pow_add, Nat.one_mul]
      omega
    have he : z % 2 ^ (f.eb + f.fb) / 2 ^ f.fb = 2 ^ f.eb - 1 := by
      rw [hz1, Nat.mul_comm, Nat.mul_add_div (Nat.two_pow_pos _), Nat.div_eq_of_lt (Nat.sub_lt (Nat.two_pow_pos _) one_pos), Nat.add_zero]
    have hm : z % 2 ^ (f.eb + f.fb) % 2 ^ f.fb = 2 ^ f.fb - 1 := by
      rw [hz1, Nat.mul_comm, Nat.mul_add_mod, Nat.mod_eq_of_lt (Nat.sub_lt (Nat.two_pow_pos _) one_pos)]
    simp [hi, he, hm, isFin] at hz
  · rw [hi, if_pos rfl, Fmt.infPat] at hnext
    have hge : (2 ^ f.eb - 1) * 2 ^ f.fb ≤ z % 2 ^ (f.eb + f.fb) := by omega
    have he : z % 2 ^ (f.eb + f.fb) / 2 ^ f.fb = 2 ^ f.eb - 1 := by
      have h1 := (Nat.le_div_iff_mul_le (Nat.two_pow_pos f.fb)).2 hge
      have h2 : z % 2 ^ (f.eb + f.fb) / 2 ^ f.fb < 2 ^ f.eb := Nat.div_lt_of_lt_mul (by rw [← Nat.pow_add, Nat.add_comm f.fb]; exact hlt)
      omega
    simp only [hi, he, and_self, if_true] at hz
    split at hz <;> simp [isFin] at hz

/-- The sign bit over a magnitude pattern. -/
theorem signBit_add (f : Fmt) (neg : Bool) {p : Nat} (hp : p < 2 ^ (f.eb + f.fb)) :
    f.signBit neg + p < 2 ^ f.bits ∧ bitOf (f.signBit neg + p) (f.eb + f.fb) = neg ∧ (f.signBit neg + p) % 2 ^ (f.eb + f.fb) = p := by
  have hb : 2 ^ f.bits = 2 * 2 ^ (f.eb + f.fb) := by rw [Fmt.bits, Nat.add_assoc, Nat.pow_add]
  rw [hb, bitOf]
  cases neg
  · simp only [Fmt.signBit, Bool.false_eq_true, if_false, Nat.zero_add]
    exact ⟨by omega, Nat.testBit_lt_two_pow hp, Nat.mod_eq_of_lt hp⟩
  · simp only [Fmt.signBit, if_true]
    refine ⟨by omega, ?_, by rw [Nat.add_mod_left, Nat.mod_eq_of_lt hp]⟩
    rw [Nat.testBit_two_pow_add_eq, Nat.testBit_lt_two_pow hp]
    rfl

/-- The exponent of one step of the k-th exponent. -/
theorem exp_shift {f : Fmt} {a b q : Nat} (k : Nat) (h : a * 2 ^ f.fb + q = b * 2 ^ f.fb + k) (hq : (a = 0 ∨ 2 ^ f.fb ≤ q)) (hq1 : q < 2 ^ (f.fb + 1)) (hk : b = 0 ∨ 2 ^ f.fb ≤ k)
    (hk1 : k ≤ 2 ^ (f.fb + 1)) : (q : ℝ) * 2 ^ ((a : Int) + f.emin - f.fb) = k * 2 ^ ((b : Int) + f.emin - f.fb) := by
  have hpow : 2 ^ (f.fb + 1) = 2 * 2 ^ f.fb := Nat.pow_succ'
  have hpos := Nat.two_pow_pos f.fb
  rcases lt_trichotomy a b with hab | rfl | hab
  · obtain ⟨d, rfl⟩ : ∃ d, b = a + 1 + d := ⟨b - a - 1, by omega⟩
    have : (a + 1 + d) * 2 ^ f.fb = a * 2 ^ f.fb + 2 ^ f.fb + d * 2 ^ f.fb := by ring
    have hkb := hk.resolve_left (by omega)
    have := Nat.zero_le (d * 2 ^ f.fb)
    omega
  · have : q = k := by omega
    rw [this]
  · obtain ⟨d, rfl⟩ : ∃ d, a = b + 1 + d := ⟨a - b - 1, by omega⟩
    have he : (b + 1 + d) * 2 ^ f.fb = b * 2 ^ f.fb + 2 ^ f.fb + d * 2 ^ f.fb := by ring
    have hqa := hq.resolve_left (by omega)
    have hd : d = 0 := by
      by_contra hd
      have : 2 ^ f.fb ≤ d * 2 ^ f.fb := Nat.le_mul_of_pos_left _ (Nat.pos_of_ne_zero hd)
      omega
    subst hd
    have hk2 : k = 2 * q := by omega
    have hexp : ((b + 1 + 0 : Nat) : Int) + f.emin - f.fb = 1 + ((b : Int) + f.emin - f.fb) := by push_cast; ring
    rw [hk2, hexp, two_zpow_add]
    push_cast
    ring

/-- The pattern of q steps of the k-th exponent, carried into the next exponent when q is 2^(fb+1), stands for their value. -/
theorem decode_steps {f : Fmt} {K Q : Nat} (h : TopAt f K Q) (neg : Bool) {k q : Nat} (hk : k = 0 ∨ 2 ^ f.fb ≤ q) (hq : q ≤ 2 ^ (f.fb + 1)) (hle : k * 2 ^ f.fb + q ≤ f.maxPat) :
    let p := f.signBit neg + (k * 2 ^ f.fb + q)
    p < 2 ^ f.bits ∧ bitOf p (f.eb + f.fb) = neg ∧ p % 2 = q % 2 ∧ isFin (f.decode p) = true
      ∧ ((numValue (f.decode p) : ℚ) : ℝ) = signed neg (q * 2 ^ ((k : Int) + f.emin - f.fb)) := by
  intro p
  obtain ⟨hlt, hbit, hmod⟩ := signBit_add f neg (hle.trans_lt h.fits)
  obtain ⟨a, b, hab, hb, ha, hd⟩ := decode_of_le h (z := p) (by rw [hmod]; exact hle)
  rw [hmod] at hab
  have h2 : ∀ n m, 1 ≤ n → (2 ^ n * m) % 2 = 0 := fun n m hn => by
    obtain ⟨j, rfl⟩ := Nat.exists_eq_add_of_le hn
    rw [Nat.pow_add, Nat.pow_one, Nat.mul_assoc, Nat.mul_mod_right]
  refine ⟨hlt, hbit, ?_, ?_, ?_⟩
  · have h1 := h2 f.fb k h.frac
    have h3 : f.signBit neg % 2 = 0 := by
      cases neg
      · rfl
      · have := h2 (f.eb + f.fb) 1 (h.frac.trans (Nat.le_add_left _ _))
        rwa [Nat.mul_one] at this
    show (f.signBit neg + (k * 2 ^ f.fb + q)) % 2 = q % 2
    rw [Nat.mul_comm] 
    omega
  · rw [hd]
    rfl
  · rw [hd, cast_numValue_fin, hbit, exp_shift q hab.symm ha hb hk hq]

/-- A finite value is a whole number of steps of a grid, or smaller than 2^fb of them. -/
theorem finite_on_grid {f : Fmt} {K Q : Nat} (h : TopAt f K Q) {z : Nat} (hz : isFin (f.decode z) = true) {u : Int} (hu : f.emin - f.fb ≤ u) :
    (∃ n : Int, ((numValue (f.decode z) : ℚ) : ℝ) = n * 2 ^ u) ∨ (f.emin - f.fb < u ∧ |((numValue (f.decode z) : ℚ) : ℝ)| < 2 ^ f.fb * 2 ^ u) := by
  obtain ⟨k, q, -, hq, -, hd⟩ := decode_of_le h (le_of_isFin h hz)
  rw [hd, cast_numValue_fin]
  by_cases hle : u ≤ k + f.emin - f.fb
  · left
    rw [two_zpow_split hle]
    generalize ((k : Int) + f.emin - f.fb - u).toNat = j
    cases bitOf z (f.eb + f.fb)
    · exact ⟨(q * 2 ^ j : Nat), by push_cast; rw [signed_false]; ring⟩
    · exact ⟨-(q * 2 ^ j : Nat), by push_cast; rw [signed_true]; ring⟩
  · right
    refine ⟨by omega, ?_⟩
    have hq1 : (q : ℝ) < 2 ^ (f.fb + 1) := by exact_mod_cast hq
    have hp := two_zpow_pos ((k : Int) + f.emin - f.fb)
    rw [abs_signed, abs_of_nonneg (by positivity)]
    calc (q : ℝ) * 2 ^ ((k : Int) + f.emin - f.fb) < 2 ^ (f.fb + 1) * 2 ^ ((k : Int) + f.emin - f.fb) := mul_lt_mul_of_pos_right hq1 hp
      _ = 2 ^ f.fb * 2 ^ (1 + ((k : Int) + f.emin - f.fb)) := by rw [two_zpow_add]; ring
      _ ≤ 2 ^ f.fb * 2 ^ u := mul_le_mul_of_nonneg_left (two_zpow_le (by omega)) (by positivity)

/-- The value of the greatest finite pattern, and of the one below it. -/
theorem TopAt.value {f : Fmt} {K Q : Nat} (h : TopAt f K Q) : ((numValue (f.decode f.maxPat) : ℚ) : ℝ) = Q * 2 ^ ((K : Int) + f.emin - f.fb)
    ∧ ((numValue (f.decode (f.maxPat - 1)) : ℚ) : ℝ) = (Q - 1) * 2 ^ ((K : Int) + f.emin - f.fb) := by
  have hlow := h.low
  have htop := h.top
  have hpos := Nat.two_pow_pos f.fb
  have h1 := decode_steps h false (k := K) (q := Q) (.inr hlow.le) h.high.le h.top.ge
  have h2 := decode_steps h false (k := K) (q := Q - 1) (.inr (by omega)) (by have := h.high; omega) (by omega)
  have hs : ∀ p, f.signBit false + p = p := Nat.zero_add
  rw [hs] at h1 h2
  rw [show f.maxPat - 1 = K * 2 ^ f.fb + (Q - 1) by omega, htop]
  refine ⟨h1.2.2.2.2, h2.2.2.2.2.trans ?_⟩
  rw [signed_false, Nat.cast_sub (by omega), Nat.cast_one]

/-- No finite value is greater than that of `maxPat`. -/
theorem TopAt.abs_le {f : Fmt} {K Q : Nat} (h : TopAt f K Q) {z : Nat} (hz : isFin (f.decode z) = true) :
    |((numValue (f.decode z) : ℚ) : ℝ)| ≤ Q * 2 ^ ((K : Int) + f.emin - f.fb) := by
  obtain ⟨k, q, hp, hq, hk, hd⟩ := decode_of_le h (le_of_isFin h hz)
  have hle := le_of_isFin h hz
  have hlow := h.low
  have hhigh := h.high
  have hpow : 2 ^ (f.fb + 1) = 2 * 2 ^ f.fb := Nat.pow_succ'
  rw [hp, h.top] at hle
  rw [hd, cast_numValue_fin, abs_signed, abs_of_nonneg (by have := two_zpow_pos ((k : Int) + f.emin - f.fb); positivity)]
  rcases lt_trichotomy k K with hlt | rfl | hlt
  · have hq2 : (q : ℝ) ≤ 2 * Q := by exact_mod_cast (show q ≤ 2 * Q by omega)
    calc (q : ℝ) * 2 ^ ((k : Int) + f.emin - f.fb) ≤ 2 * Q * 2 ^ ((k : Int) + f.emin - f.fb) := mul_le_mul_of_nonneg_right hq2 (two_zpow_pos _).le
      _ = Q * 2 ^ (1 + ((k : Int) + f.emin - f.fb)) := by rw [two_zpow_add]; ring
      _ ≤ _ := mul_le_mul_of_nonneg_left (two_zpow_le (by omega)) (Nat.cast_nonneg _)
  · exact mul_le_mul_of_nonneg_right (by exact_mod_cast (show q ≤ Q by omega)) (two_zpow_pos _).le
  · exfalso
    have : (K + 1) * 2 ^ f.fb ≤ k * 2 ^ f.fb := Nat.mul_le_mul_right _ hlt
    have hkq := hk.resolve_left (by omega)
    rw [Nat.add_mul, Nat.one_mul] at this
    omega

end Sys2Proof.Machine
end

section
/-! SUPPORT. One rounding to a format (R35, R36): the step on which a magnitude stands, the pattern and the flags of `roundFin`. -/

set_option Elab.async false

namespace Sys2Proof.Machine

open Sys2Proof

/-- The exponent of the grid on which a value of the format lies that is as large as m·2^e. -/
def unitExp (f : Fmt) (m : Nat) (e : Int) : Int := max (e + (Nat.log2 m : Nat) - f.fb) (f.emin - f.fb)

/-- A magnitude stands the part t of a step above q steps of the k-th exponent. -/
structure Placed (f : Fmt) (v : ℝ) (k q : Nat) (t : ℝ) : Prop where
  value : v = (q + t) * 2 ^ ((k : Int) + f.emin - f.fb)
  nonneg : 0 ≤ t
  lt_one : t < 1
  high : q < 2 ^ (f.fb + 1)
  low : k = 0 ∨ 2 ^ f.fb ≤ q

/-- Rounded with an unbounded exponent, the value stays below the least normal one (R36). -/
def tinyRound (f : Fmt) (mode h : Nat) (neg : Bool) (m : Nat) (e : Int) (sticky : Bool) : Bool :=
  let u := e + (Nat.log2 m : Nat) - f.fb
  decide (u < f.emin - f.fb) && !((gridRound mode h neg m e sticky u).1 == 2 ^ (f.fb + 1) && u + 1 == f.emin - f.fb)

section

variable {f : Fmt} {K Q : Nat} {mode h : Nat} {neg : Bool} {m : Nat} {e : Int} {sticky : Bool} {q : Nat} {inexact up : Bool}

/-- The result of a rounding that stays within the finite values. -/
theorem roundFin_fits (hf : TopAt f K Q) (hm : m ≠ 0) (hg : gridRound mode h neg m e sticky (unitExp f m e) = (q, inexact, up))
    (hle : (unitExp f m e - (f.emin - f.fb)).toNat * 2 ^ f.fb + q ≤ f.maxPat) :
    roundFin f mode h false neg m e sticky = (f.signBit neg + ((unitExp f m e - (f.emin - f.fb)).toNat * 2 ^ f.fb + q),
      if inexact then NX + (if tinyRound f mode h neg m e sticky then UF else 0) else 0) := by
  have hsteps : ¬ ((2 ^ (f.eb + 1) : Nat) : Int) < unitExp f m e - (f.emin - f.fb) := by
    intro hgt
    have h1 : 2 ^ f.eb * 2 ^ f.fb ≤ (unitExp f m e - (f.emin - f.fb)).toNat * 2 ^ f.fb := Nat.mul_le_mul_right _ (by
      have : 2 ^ (f.eb + 1) = 2 * 2 ^ f.eb := Nat.pow_succ'
      omega)
    rw [← Nat.pow_add] at h1
    have := hf.fits
    omega
  unfold roundFin
  rw [if_neg hm]
  have hu : max (e + (Nat.log2 m : Nat) - f.fb) (f.emin - f.fb) = unitExp f m e := rfl
  simp only [hu, hg]
  rw [if_neg (by simp only [Bool.or_eq_true, decide_eq_true_eq]; omega)]
  refine Prod.ext rfl ?_
  show _ = _
  have ht : (decide (e + (Nat.log2 m : Nat) - f.fb < f.emin - f.fb) && !((gridRound mode h neg m e sticky (e + (Nat.log2 m : Nat) - f.fb)).1 == 2 ^ (f.fb + 1) &&
      e + (Nat.log2 m : Nat) - f.fb + 1 == f.emin - f.fb)) = tinyRound f mode h neg m e sticky := rfl
  simp only [ht]
  cases inexact <;> cases tinyRound f mode h neg m e sticky <;> rfl

/-- The result of an overflow in `.rne`. -/
theorem roundFin_overflow (hm : m ≠ 0) (hg : gridRound RNE h neg m e sticky (unitExp f m e) = (q, inexact, up))
    (hgt : f.maxPat < (unitExp f m e - (f.emin - f.fb)).toNat * 2 ^ f.fb + q) :
    roundFin f RNE h false neg m e sticky = (f.signBit neg + (if f.hasInf then f.infPat else f.canon), OF + NX) := by
  unfold roundFin
  rw [if_neg hm]
  have hu : max (e + (Nat.log2 m : Nat) - f.fb) (f.emin - f.fb) = unitExp f m e := rfl
  simp only [hu, hg]
  rw [if_pos (by simp [hgt])]
  cases f.hasInf <;> rfl

end

section

variable {f : Fmt} {m : Nat} {e : Int} {sticky : Bool} {v : ℝ}

/-- A magnitude lies below 2^(fb+1) steps of its grid and, but on the least grid, not below 2^fb. -/
theorem Stands.on_unit (hst : Stands m e sticky v) (hm : m ≠ 0) :
    v < 2 ^ (f.fb + 1) * 2 ^ unitExp f m e ∧ (unitExp f m e = f.emin - f.fb ∨ 2 ^ f.fb * 2 ^ unitExp f m e ≤ v) := by
  have hcast : ∀ n : Nat, (2 : ℝ) ^ n = 2 ^ (n : Int) := fun n => (zpow_natCast 2 n).symm
  constructor
  · refine hst.upper.trans_le ?_
    rw [hcast, ← two_zpow_add]
    exact two_zpow_le (by unfold unitExp; push_cast; omega)
  · by_cases h : e + (Nat.log2 m : Nat) - f.fb ≤ f.emin - f.fb
    · left
      exact max_eq_right h
    · right
      refine le_trans ?_ (hst.lower hm)
      rw [hcast, ← two_zpow_add]
      exact two_zpow_le (by unfold unitExp; omega)

/-- The place of a magnitude on the grid of its format, and the pattern and the flags of its rounding. -/
theorem roundFin_spec {K Q : Nat} (hf : TopAt f K Q) {mode : Nat} (hmode : mode ≤ 3) (h : Nat) (neg : Bool) (hst : Stands m e sticky v) (hm : m ≠ 0)
    (hs : sticky = true → f.fb < Nat.log2 m) : ∃ (k q : Nat) (t : ℝ) (up : Bool), Placed f v k q t ∧ (up = true ↔ RoundsUp mode neg q t)
      ∧ (k * 2 ^ f.fb + (q + b2n up) ≤ f.maxPat → (roundFin f mode h false neg m e sticky).1 = f.signBit neg + (k * 2 ^ f.fb + (q + b2n up))
        ∧ (t = 0 → (roundFin f mode h false neg m e sticky).2 = 0)
        ∧ (t ≠ 0 → (roundFin f mode h false neg m e sticky).2 = NX + if tinyRound f mode h neg m e sticky then UF else 0))
      ∧ (f.maxPat < k * 2 ^ f.fb + (q + b2n up) → mode = RNE → roundFin f mode h false neg m e sticky = (f.signBit neg + (if f.hasInf then f.infPat else f.canon), OF + NX)) := by
  obtain ⟨hhi, hlo⟩ := hst.on_unit (f := f) hm
  obtain ⟨q, t, inexact, up, hg, hv, h0, h1, hi, hup⟩ := gridRound_spec hmode h neg hst (u := unitExp f m e) (fun hs' => by have := hs hs'; unfold unitExp; omega)
  have hp := two_zpow_pos (unitExp f m e)
  have hexp : (((unitExp f m e - (f.emin - f.fb)).toNat : Nat) : Int) + f.emin - f.fb = unitExp f m e := by unfold unitExp; omega
  rw [hv] at hhi hlo
  have hq : (q : ℝ) < 2 ^ (f.fb + 1) := lt_of_le_of_lt (le_add_of_nonneg_right h0) (lt_of_mul_lt_mul_right hhi hp.le)
  refine ⟨(unitExp f m e - (f.emin - f.fb)).toNat, q, t, up, ⟨by rw [hexp]; exact hv, h0, h1, by exact_mod_cast hq, ?_⟩, hup, fun hle => ?_, fun hgt hr => ?_⟩
  · refine hlo.imp (fun he => by rw [he]; simp) fun hl => ?_
    have h2 : ((2 ^ f.fb : Nat) : ℝ) < (q + 1 : Nat) := by
      have := le_of_mul_le_mul_right hl hp
      push_cast
      linarith
    exact Nat.lt_succ_iff.1 (by exact_mod_cast h2)
  · rw [roundFin_fits hf hm hg hle]
    exact ⟨rfl, fun h => if_neg fun hx => hi.1 hx h, fun h => if_pos (hi.2 h)⟩
  · subst hr
    exact roundFin_overflow hm hg hgt

end

/-! `.rne`. -/

/-- A magnitude in steps, rounded to the nearest step, against another point of the grid or one below 2^fb steps. -/
theorem nearest_step {neg : Bool} {q : Nat} {t : ℝ} {up : Bool} (h0 : 0 ≤ t) (h1 : t < 1) (hup : up = true ↔ RoundsUp 0 neg q t) {y : ℝ} (hy : (∃ n : Int, y = n) ∨ y < q) :
    let x : ℝ := (q + b2n up : Nat)
    (x < y → q + t ≤ (x + y) / 2 ∧ (q + t = (x + y) / 2 → (q + b2n up) % 2 = 0)) ∧ (y < x → (x + y) / 2 ≤ q + t ∧ (q + t = (x + y) / 2 → (q + b2n up) % 2 = 0)) := by
  intro x
  have above : ∀ {n : Int} {j : Nat}, ((q + j : Nat) : ℝ) < (n : Int) → ((q + j + 1 : Nat) : ℝ) ≤ n := fun {n j} h => by
    have : ((q + j : Nat) : Int) < n := by exact_mod_cast h
    exact_mod_cast Int.add_one_le_of_lt this
  have below : ∀ {n : Int} {j : Nat}, (n : ℝ) < (q + j : Nat) → (n : ℝ) ≤ (q + j : Nat) - 1 := fun {n j} h => by
    have h2 : n < ((q + j : Nat) : Int) := by exact_mod_cast h
    have : n ≤ ((q + j : Nat) : Int) - 1 := by omega
    exact_mod_cast this
  cases up
  · have hr : ¬ RoundsUp 0 neg q t := fun h => by simpa using hup.2 h
    simp only [RoundsUp, not_or, not_and, not_lt] at hr
    have hx : x = q := by simp [x, b2n]
    refine ⟨fun hlt => ?_, fun hlt => ?_⟩
    · obtain ⟨n, rfl⟩ := hy.resolve_right (by rw [← hx]; exact hlt.not_gt)
      have := above (j := 0) (n := n) (by simpa [hx] using hlt)
      push_cast at this
      refine ⟨by rw [hx]; linarith [hr.1], fun heq => ?_⟩
      have := hr.2 (by rw [hx] at heq; linarith [hr.1])
      simp only [b2n, Bool.false_eq_true, if_false]
      omega
    · rw [hx] at hlt ⊢
      exact ⟨by linarith, fun heq => by linarith⟩
  · have hr : RoundsUp 0 neg q t := hup.1 rfl
    simp only [RoundsUp] at hr
    have hx : x = q + 1 := by simp [x, b2n]
    have ht : 1 / 2 ≤ t := hr.elim le_of_lt fun h => h.1.ge
    refine ⟨fun hlt => ?_, fun hlt => ?_⟩
    · obtain ⟨n, rfl⟩ := hy.resolve_right (by rw [hx] at hlt; intro h; linarith)
      have := above (j := 1) (n := n) (by simpa [hx] using hlt)
      push_cast at this
      rw [hx]
      exact ⟨by linarith, fun heq => by linarith⟩
    · have hyq : y ≤ q := by
        rcases hy with ⟨n, rfl⟩ | hy
        · have := below (j := 1) (n := n) (by simpa [hx] using hlt)
          push_cast at this
          linarith
        · exact hy.le
      refine ⟨by rw [hx]; linarith, fun heq => ?_⟩
      have hodd := (hr.resolve_left (by rw [hx] at heq; linarith)).2
      simp only [b2n, if_true]
      omega

section

variable {f : Fmt} {K Q : Nat} {v : ℝ} {k q : Nat} {t : ℝ}

/-- A finite value in steps of the grid on which a magnitude stands. -/
theorem Placed.others (hp : Placed f v k q t) (hf : TopAt f K Q) (neg : Bool) {z : Nat} (hz : isFin (f.decode z) = true) :
    ∃ y : ℝ, ((numValue (f.decode z) : ℚ) : ℝ) = signed neg (y * 2 ^ ((k : Int) + f.emin - f.fb)) ∧ ((∃ n : Int, y = n) ∨ y < q ∧ -y < q) := by
  have hpos := two_zpow_pos ((k : Int) + f.emin - f.fb)
  rcases finite_on_grid hf hz (u := k + f.emin - f.fb) (by omega) with ⟨n, hn⟩ | ⟨hlt, hn⟩
  · cases neg
    · exact ⟨n, hn, .inl ⟨n, rfl⟩⟩
    · exact ⟨-n, by rw [hn, signed_true]; ring, .inl ⟨-n, by push_cast; rfl⟩⟩
  · have hq : ((2 ^ f.fb : Nat) : ℝ) ≤ q := by exact_mod_cast hp.low.resolve_left (by omega)
    push_cast at hq
    set x := ((numValue (f.decode z) : ℚ) : ℝ)
    have hx : x = x / 2 ^ ((k : Int) + f.emin - f.fb) * 2 ^ ((k : Int) + f.emin - f.fb) := (div_mul_cancel₀ _ hpos.ne').symm
    rw [hx, abs_mul, abs_of_pos hpos] at hn
    have hlt := abs_lt.1 ((lt_of_mul_lt_mul_right hn hpos.le).trans_le hq)
    cases neg
    · exact ⟨_, hx, .inr ⟨hlt.2, by linarith [hlt.1]⟩⟩
    · exact ⟨-(x / 2 ^ ((k : Int) + f.emin - f.fb)), by rw [signed_true]; linarith [hx], .inr ⟨by linarith [hlt.1], by linarith [hlt.2]⟩⟩

/-- A rounding to the nearest step gives the nearest finite value (R35). -/
theorem Placed.nearest (hp : Placed f v k q t) (hf : TopAt f K Q) {neg up : Bool} (hup : up = true ↔ RoundsUp 0 neg q t) {p : Nat} (hfin : isFin (f.decode p) = true)
    (hpar : p % 2 = (q + b2n up) % 2)
    (hval : ((numValue (f.decode p) : ℚ) : ℝ) = signed neg ((q + b2n up : Nat) * 2 ^ ((k : Int) + f.emin - f.fb))) :
    nearest f (fun x => (x : ℝ) < signed neg v) (fun x => signed neg v < (x : ℝ)) p := by
  refine ⟨hfin, fun z _ hz => ?_⟩
  have hpos := two_zpow_pos ((k : Int) + f.emin - f.fb)
  obtain ⟨y, hy, hgrid⟩ := hp.others hf neg hz
  obtain ⟨hab, hbe⟩ := nearest_step hp.nonneg hp.lt_one hup (y := y) (hgrid.imp_right And.left)
  set x : ℝ := ((q + b2n up : Nat) : ℝ)
  have hv := hp.value
  set g : ℝ := 2 ^ ((k : Int) + f.emin - f.fb)
  have hmid : ∀ a b : ℝ, (a * g + b * g) / 2 = (a + b) / 2 * g := fun a b => by ring
  dsimp only
  push_cast
  rw [hpar, ← Rat.cast_lt (K := ℝ), ← Rat.cast_lt (K := ℝ), hy, hval, hv]
  cases neg
  · simp only [signed_false, hmid, not_lt, mul_lt_mul_iff_left₀ hpos]
    exact ⟨fun h => ⟨(hab h).1, fun h2 => (hab h).2 (le_antisymm (hab h).1 h2)⟩, fun h => ⟨(hbe h).1, fun h2 => (hbe h).2 (le_antisymm h2 (hbe h).1)⟩⟩
  · have hneg : ∀ a b : ℝ, (-(a * g) + -(b * g)) / 2 = -((a + b) / 2 * g) := fun a b => by ring
    simp only [signed_true, hneg, not_lt, neg_lt_neg_iff, mul_lt_mul_iff_left₀ hpos]
    exact ⟨fun h => ⟨(hbe h).1, fun h2 => (hbe h).2 (le_antisymm h2 (hbe h).1)⟩, fun h => ⟨(hab h).1, fun h2 => (hab h).2 (le_antisymm (hab h).1 h2)⟩⟩

end

end Sys2Proof.Machine
end

section
/-! SUPPORT. Rounding to nearest (R35, R36): when it overflows and when it is tiny, and that `convert` gives the nearest value with its flags. -/

set_option Elab.async false

namespace Sys2Proof.Machine

open Sys2Proof

section

variable {f : Fmt} {K Q : Nat} {v : ℝ} {k q : Nat} {t : ℝ} {neg up : Bool}

theorem b2n_le (b : Bool) : b2n b ≤ 1 := by cases b <;> decide

/-- A rounding is exact when the magnitude stands on a step. -/
theorem Placed.exact_iff (hp : Placed f v k q t) {mode : Nat} (hup : up = true ↔ RoundsUp mode neg q t) :
    signed neg ((q + b2n up : Nat) * 2 ^ ((k : Int) + f.emin - f.fb)) = signed neg v ↔ t = 0 := by
  have h0 := hp.nonneg
  have h1 := hp.lt_one
  rw [signed_inj, hp.value, mul_left_inj' (two_zpow_ne _)]
  cases up
  · simp [b2n]
  · have ht : t ≠ 0 := fun h => roundsUp_zero mode neg q (h ▸ hup.1 rfl)
    refine iff_of_false (fun h => ?_) ht
    simp only [b2n, if_true] at h
    push_cast at h
    linarith

/-- Past half a step above the greatest finite value, in steps of its exponent. -/
theorem past_top_iff {q Q : Nat} (h0 : 0 ≤ t) (h1 : t < 1) (hup : up = true ↔ RoundsUp 0 neg q t) :
    Q < q + b2n up ↔ (Q : ℝ) + 1 / 2 < q + t ∨ ((Q : ℝ) + 1 / 2 = q + t ∧ Q % 2 = 1) := by
  have hb := b2n_le up
  rcases lt_trichotomy q Q with hlt | rfl | hlt
  · have : (q : ℝ) + 1 ≤ Q := by exact_mod_cast hlt
    exact iff_of_false (by omega) (by rintro (h | ⟨h, -⟩) <;> linarith)
  · have hu : q < q + b2n up ↔ up = true := by cases up <;> simp [b2n]
    rw [hu, hup, RoundsUp, add_lt_add_iff_left, add_right_inj, eq_comm (a := t)]
  · have : (Q : ℝ) + 1 ≤ q := by exact_mod_cast hlt
    exact iff_of_true (by omega) (.inl (by linarith))

/-- When a rounding to nearest leaves the finite values (R36). -/
theorem Placed.overflow_iff (hp : Placed f v k q t) (hf : TopAt f K Q) (hup : up = true ↔ RoundsUp 0 neg q t) :
    let limit : ℝ := (Q + 1 / 2) * 2 ^ ((K : Int) + f.emin - f.fb)
    f.maxPat < k * 2 ^ f.fb + (q + b2n up) ↔ limit < v ∨ (limit = v ∧ Q % 2 = 1) := by
  intro limit
  have hlow := hf.low
  have hhigh := hf.high
  have hq := hp.high
  have hb := b2n_le up
  have hpow : 2 ^ (f.fb + 1) = 2 * 2 ^ f.fb := Nat.pow_succ'
  have hpos := two_zpow_pos ((K : Int) + f.emin - f.fb)
  have h0 := hp.nonneg
  have h1 := hp.lt_one
  rw [hf.top]
  rcases lt_trichotomy k K with hlt | rfl | hlt
  · have hk : (k + 1) * 2 ^ f.fb ≤ K * 2 ^ f.fb := Nat.mul_le_mul_right _ hlt
    rw [Nat.add_mul, Nat.one_mul] at hk
    have hv : v < limit := by
      have hq1 : (q : ℝ) + 1 ≤ 2 * Q := by exact_mod_cast (show q + 1 ≤ 2 * Q by omega)
      calc v = (q + t) * 2 ^ ((k : Int) + f.emin - f.fb) := hp.value
        _ ≤ 2 * Q * 2 ^ ((k : Int) + f.emin - f.fb) := mul_le_mul_of_nonneg_right (by linarith) (two_zpow_pos _).le
        _ = Q * 2 ^ (1 + ((k : Int) + f.emin - f.fb)) := by rw [two_zpow_add]; ring
        _ ≤ Q * 2 ^ ((K : Int) + f.emin - f.fb) := mul_le_mul_of_nonneg_left (two_zpow_le (by omega)) (Nat.cast_nonneg _)
        _ < limit := mul_lt_mul_of_pos_right (by linarith) hpos
    exact iff_of_false (by omega) (by rintro (h | ⟨h, -⟩) <;> linarith)
  · rw [hp.value, mul_lt_mul_iff_left₀ hpos, mul_left_inj' hpos.ne', ← past_top_iff h0 h1 hup]
    omega
  · have hk : (K + 1) * 2 ^ f.fb ≤ k * 2 ^ f.fb := Nat.mul_le_mul_right _ hlt
    rw [Nat.add_mul, Nat.one_mul] at hk
    have hkq := hp.low.resolve_left (by omega)
    refine iff_of_true (by omega) (.inl ?_)
    have hq1 : (Q : ℝ) + 1 ≤ 2 * q := by exact_mod_cast (show Q + 1 ≤ 2 * q by omega)
    calc limit < 2 * q * 2 ^ ((K : Int) + f.emin - f.fb) := mul_lt_mul_of_pos_right (by linarith) hpos
      _ = q * 2 ^ (1 + ((K : Int) + f.emin - f.fb)) := by rw [two_zpow_add]; ring
      _ ≤ q * 2 ^ ((k : Int) + f.emin - f.fb) := mul_le_mul_of_nonneg_left (two_zpow_le (by omega)) (Nat.cast_nonneg _)
      _ ≤ v := by rw [hp.value]; exact mul_le_mul_of_nonneg_right (by linarith) (two_zpow_pos _).le

end

section

variable {f : Fmt} {K Q : Nat} {m : Nat} {e : Int} {sticky : Bool} {v : ℝ}

/-- A value is tiny when it stays below the least normal value after a rounding to fb + 1 bits (R36). -/
theorem tinyRound_iff (h : Nat) (neg : Bool) (hst : Stands m e sticky v) (hm : m ≠ 0) (hs : sticky = true → f.fb < Nat.log2 m) :
    tinyRound f RNE h neg m e sticky = true ↔ v < 2 ^ f.emin - 2 ^ (f.emin - f.fb - 2) := by
  obtain ⟨u, hu⟩ : ∃ u, u = e + (Nat.log2 m : Nat) - f.fb := ⟨_, rfl⟩
  obtain ⟨q, t, inexact, up, hg, hv, h0, h1, -, hup⟩ := gridRound_spec (mode := RNE) (by decide) h neg hst (u := u) (fun hs' => by have := hs hs'; omega)
  have hp := two_zpow_pos u
  have hcast : ∀ n : Nat, (2 : ℝ) ^ n = 2 ^ (n : Int) := fun n => (zpow_natCast 2 n).symm
  have hlo := hst.lower hm
  have hhi := hst.upper
  have hsmall := two_zpow_pos (f.emin - f.fb - 2)
  unfold tinyRound
  simp only [← hu, hg, Bool.and_eq_true, decide_eq_true_eq, Bool.not_eq_true', Bool.and_eq_false_iff, beq_eq_false_iff_ne, ne_eq]
  rcases lt_trichotomy (u + 1) (f.emin - f.fb) with hlt | heq | hgt
  · refine iff_of_true ⟨by omega, .inr (by omega)⟩ ?_
    have h2 : (2 : ℝ) ^ (f.emin - f.fb - 2) ≤ 2 ^ (f.emin - 1) := two_zpow_le (by omega)
    have h3 : (2 : ℝ) ^ (e + (Nat.log2 m : Nat) + 1) ≤ 2 ^ (f.emin - 1) := two_zpow_le (by omega)
    have h4 : (2 : ℝ) ^ f.emin = 2 * 2 ^ (f.emin - 1) := by
      rw [← zpow_one_add₀ two_ne_zero]
      congr 1
      ring
    linarith
  · have h2 : (2 : ℝ) ^ f.emin = (2 ^ (f.fb + 1) : Nat) * 2 ^ u := by
      push_cast
      rw [hcast, ← two_zpow_add]
      congr 1
      push_cast
      omega
    have h3 : (2 : ℝ) ^ (f.emin - f.fb - 2) = 1 / 2 * 2 ^ u := by
      rw [show f.emin - f.fb - 2 = -1 + u by omega, two_zpow_add]
      norm_num
    have hq : q < 2 ^ (f.fb + 1) := by
      rw [show e + (Nat.log2 m : Nat) + 1 = f.emin by omega, h2, hv, mul_lt_mul_iff_left₀ hp] at hhi
      exact_mod_cast (le_add_of_nonneg_right h0).trans_lt hhi
    have heven : 2 ^ (f.fb + 1) % 2 = 0 := by rw [Nat.pow_succ, Nat.mul_mod_left]
    rw [h2, h3, hv, ← sub_mul, mul_lt_mul_iff_left₀ hp]
    generalize 2 ^ (f.fb + 1) = B at hq heven ⊢
    have hb := b2n_le up
    by_cases hqB : q + 1 = B
    · have hu1 : q + b2n up = B ↔ up = true := by
        subst hqB
        cases up <;> simp [b2n]
      have hodd : q % 2 = 1 := by omega
      have hcB : (q : ℝ) + 1 = B := by exact_mod_cast hqB
      rw [hu1, hup]
      simp only [RoundsUp, RNE, hodd, and_true]
      constructor
      · rintro ⟨-, h | h⟩
        · push Not at h
          have := lt_of_le_of_ne h.1 h.2
          linarith
        · exact absurd heq h
      · intro h
        refine ⟨by omega, .inl ?_⟩
        rintro (h' | h') <;> linarith
    · have hq1 : (q : ℝ) + 1 + 1 ≤ B := by exact_mod_cast (show q + 1 + 1 ≤ B by omega)
      exact iff_of_true ⟨by omega, .inl (by omega)⟩ (by linarith)
  · refine iff_of_false (fun h => by omega) (not_lt.2 ?_)
    have h3 : (2 : ℝ) ^ f.emin ≤ 2 ^ (e + (Nat.log2 m : Nat)) := two_zpow_le (by omega)
    linarith

/-- The rounding of a value to nearest, ties to even (R35, R36). -/
theorem roundFin_roundsTo (hf : TopAt f K Q) (h : Nat) {neg : Bool} (hst : Stands m e sticky v) (hm : m ≠ 0) (hs : sticky = true → f.fb < Nat.log2 m) {w : ℚ}
    (hw : (w : ℝ) = signed neg v) : roundsTo f neg w (roundFin f RNE h false neg m e sticky) := by
  obtain ⟨k, q, t, up, hp, hup, hfit, hover⟩ := roundFin_spec hf (mode := RNE) (by decide) h neg hst hm hs
  obtain ⟨htop, hpred⟩ := hf.value
  have habs : ((|w| : ℚ) : ℝ) = v := by rw [Rat.cast_abs, hw, abs_signed, abs_of_pos (hst.pos hm)]
  have hpar : f.maxPat % 2 = Q % 2 := by
    have := (decode_steps hf false (k := K) (q := Q) (.inr hf.low.le) hf.high.le hf.top.ge).2.2.1
    rwa [show f.signBit false = 0 from rfl, Nat.zero_add, ← hf.top] at this
  have hlimit : ((numValue (f.decode f.maxPat) + (numValue (f.decode f.maxPat) - numValue (f.decode (f.maxPat - 1))) / 2 : ℚ) : ℝ)
      = (Q + 1 / 2) * 2 ^ ((K : Int) + f.emin - f.fb) := by
    push_cast
    rw [htop, hpred]
    ring
  have hbig := hp.overflow_iff hf hup
  dsimp only at hbig
  unfold roundsTo
  intro top limit tooBig
  have htoo : tooBig ↔ f.maxPat < k * 2 ^ f.fb + (q + b2n up) := by
    rw [hbig, ← hlimit, ← habs, Rat.cast_lt, Rat.cast_inj, ← hpar]
  rw [htoo]
  refine ⟨fun hb => hover hb rfl, fun hb => ?_⟩
  obtain ⟨hr, hexact, hinexact⟩ := hfit (not_lt.1 hb)
  obtain ⟨hlt, hbit, hpar', hfin, hval⟩ := decode_steps hf neg (k := k) (q := q + b2n up) (hp.low.imp_right fun h => h.trans (Nat.le_add_right _ _))
    (by have := hp.high; have := b2n_le up; omega) (not_lt.1 hb)
  have heq : numValue (f.decode (f.signBit neg + (k * 2 ^ f.fb + (q + b2n up)))) = w ↔ t = 0 := by
    rw [← Rat.cast_inj (α := ℝ), hval, hw, hp.exact_iff hup]
  have htiny : tinyRound f RNE h neg m e sticky = true ↔ |w| < (2 : ℚ) ^ f.emin - (2 : ℚ) ^ (f.emin - f.fb - 2) := by
    rw [tinyRound_iff h neg hst hm hs, ← habs, ← Rat.cast_lt (K := ℝ)]
    push_cast
    rfl
  have hbelow : (fun x : ℚ => (x : ℝ) < signed neg v) = (· < w) := by
    funext x
    rw [← hw, Rat.cast_lt]
  have habove : (fun x : ℚ => signed neg v < (x : ℝ)) = (w < ·) := by
    funext x
    rw [← hw, Rat.cast_lt]
  rw [hr]
  refine ⟨hlt, hbit, ?_, fun h => hexact (heq.1 h), fun h => ?_⟩
  · have := hp.nearest hf hup hfin hpar' hval
    rwa [hbelow, habove] at this
  · rw [hinexact fun ht => h (heq.2 ht)]
    simp only [htiny]

end

end Sys2Proof.Machine
end

section
/-! SUPPORT. What `convert` gives for a finite value (R35, R36): the nearest value, the neighbours of the directed modes, and the value itself where the
format has it. -/

set_option Elab.async false

namespace Sys2Proof.Machine

open Sys2Proof

section

variable {f : Fmt} {K Q : Nat} {v : ℝ} {k q : Nat} {t : ℝ} {neg up : Bool}

/-- A rounding of a magnitude within the finite values stays within them, but for one that is rounded away from a step. -/
theorem Placed.fits (hp : Placed f v k q t) (hf : TopAt f K Q) (hv : v ≤ Q * 2 ^ ((K : Int) + f.emin - f.fb)) (hup : up = true → t ≠ 0) :
    k * 2 ^ f.fb + (q + b2n up) ≤ f.maxPat := by
  have hlow := hf.low
  have hhigh := hf.high
  have hq := hp.high
  have hb := b2n_le up
  have hpow : 2 ^ (f.fb + 1) = 2 * 2 ^ f.fb := Nat.pow_succ'
  have hpos := two_zpow_pos ((K : Int) + f.emin - f.fb)
  have h0 := hp.nonneg
  rw [hf.top]
  rcases lt_trichotomy k K with hlt | rfl | hlt
  · have hk : (k + 1) * 2 ^ f.fb ≤ K * 2 ^ f.fb := Nat.mul_le_mul_right _ hlt
    rw [Nat.add_mul, Nat.one_mul] at hk
    omega
  · rw [hp.value, mul_le_mul_iff_left₀ hpos] at hv
    have hqQ : q + b2n up ≤ Q := by
      cases up
      · exact_mod_cast (le_add_of_nonneg_right h0).trans hv
      · have ht : 0 < t := lt_of_le_of_ne h0 (Ne.symm (hup rfl))
        exact Nat.succ_le_of_lt (by exact_mod_cast (lt_add_of_pos_right _ ht).trans_le hv)
    omega
  · exfalso
    have hk : (K + 1) * 2 ^ f.fb ≤ k * 2 ^ f.fb := Nat.mul_le_mul_right _ hlt
    rw [Nat.add_mul, Nat.one_mul] at hk
    have hkq := hp.low.resolve_left (by omega)
    have hq1 : (Q : ℝ) + 1 ≤ 2 * q := by exact_mod_cast (show Q + 1 ≤ 2 * q by omega)
    have : (Q : ℝ) * 2 ^ ((K : Int) + f.emin - f.fb) < v := calc
      (Q : ℝ) * 2 ^ ((K : Int) + f.emin - f.fb) < 2 * q * 2 ^ ((K : Int) + f.emin - f.fb) := mul_lt_mul_of_pos_right (by linarith) hpos
      _ = q * 2 ^ (1 + ((K : Int) + f.emin - f.fb)) := by rw [two_zpow_add]; ring
      _ ≤ q * 2 ^ ((k : Int) + f.emin - f.fb) := mul_le_mul_of_nonneg_left (two_zpow_le (by omega)) (Nat.cast_nonneg _)
      _ ≤ v := by rw [hp.value]; exact mul_le_mul_of_nonneg_right (by linarith) (two_zpow_pos _).le
    linarith

/-- A value of at most fb + 1 bits that no value of the format is finer than stands on a step. -/
theorem Placed.on_step {m : Nat} {e : Int} (hp : Placed f (m * 2 ^ e) k q t) (hm : m < 2 ^ (f.fb + 1)) (he : f.emin - f.fb ≤ e) : t = 0 := by
  have h0 := hp.nonneg
  have hv := hp.value
  by_cases hle : (k : Int) + f.emin - f.fb ≤ e
  · rw [two_zpow_split hle, ← mul_assoc, mul_left_inj' (two_zpow_ne _)] at hv
    have hlo : q ≤ m * 2 ^ (e - (k + f.emin - f.fb)).toNat := by
      have : (q : ℝ) ≤ (m * 2 ^ (e - (k + f.emin - f.fb)).toNat : Nat) := by
        push_cast at hv ⊢
        linarith
      exact_mod_cast this
    have hhi : m * 2 ^ (e - (k + f.emin - f.fb)).toNat < q + 1 := by
      have : ((m * 2 ^ (e - (k + f.emin - f.fb)).toNat : Nat) : ℝ) < (q + 1 : Nat) := by
        have := hp.lt_one
        push_cast at hv ⊢
        linarith
      exact_mod_cast this
    have heq : q = m * 2 ^ (e - (k + f.emin - f.fb)).toNat := by omega
    rw [heq] at hv
    push_cast at hv
    linarith
  · exfalso
    have hq : (2 : ℝ) ^ f.fb ≤ q := by exact_mod_cast hp.low.resolve_left (by omega)
    have hm1 : (m : ℝ) < 2 ^ (f.fb + 1) := by exact_mod_cast hm
    have : (m : ℝ) * 2 ^ e < (q + t) * 2 ^ ((k : Int) + f.emin - f.fb) := calc
      (m : ℝ) * 2 ^ e < 2 ^ (f.fb + 1) * 2 ^ e := mul_lt_mul_of_pos_right hm1 (two_zpow_pos e)
      _ = 2 ^ f.fb * 2 ^ (1 + e) := by rw [two_zpow_add]; ring
      _ ≤ 2 ^ f.fb * 2 ^ ((k : Int) + f.emin - f.fb) := mul_le_mul_of_nonneg_left (two_zpow_le (by omega)) (by positivity)
      _ ≤ _ := mul_le_mul_of_nonneg_right (by linarith) (two_zpow_pos _).le
    linarith

/-- No point of the grid lies between a magnitude and the step below it. -/
theorem le_floor_step (h1 : t < 1) {y : ℝ} (hy : (∃ n : Int, y = n) ∨ y < q) (hle : y ≤ q + t) : y ≤ q := by
  rcases hy with ⟨n, rfl⟩ | hy
  · have : n < (q : Int) + 1 := by exact_mod_cast hle.trans_lt (add_lt_add_right h1 (q : ℝ))
    exact_mod_cast Int.lt_add_one_iff.1 this
  · exact hy.le

/-- Nor between it and the step above it. -/
theorem ceil_step_le (h0 : 0 ≤ t) (hup : up = true ↔ t ≠ 0) {y : ℝ} (hy : (∃ n : Int, y = n) ∨ y < q) (hle : q + t ≤ y) : ((q + b2n up : Nat) : ℝ) ≤ y := by
  obtain ⟨n, rfl⟩ := hy.resolve_right (by intro h; linarith)
  cases up
  · have ht : t = 0 := not_not.1 fun h => Bool.noConfusion (hup.2 h)
    simpa [b2n, ht] using hle
  · have ht : 0 < t := lt_of_le_of_ne h0 (Ne.symm (hup.1 rfl))
    have : (q : Int) < n := by exact_mod_cast (lt_add_of_pos_right _ ht).trans_le hle
    exact_mod_cast Int.add_one_le_of_lt this

/-- The step to which a directed mode rounds a magnitude: the one below it, or for the modes that round its sign away from zero the one above it. -/
theorem directed_step {mode : Nat} (hmode : mode ∈ [RZ, RDN, RUP]) (hup : up = true ↔ RoundsUp mode neg q t) :
    ((mode = RZ ∨ (mode = RDN ∧ neg = false) ∨ (mode = RUP ∧ neg = true)) ∧ up = false) ∨ (((mode = RDN ∧ neg = true) ∨ (mode = RUP ∧ neg = false)) ∧ (up = true ↔ t ≠ 0)) := by
  simp only [List.mem_cons, List.not_mem_nil, or_false] at hmode
  rcases hmode with rfl | rfl | rfl <;> cases neg <;> simp_all [RoundsUp, RZ, RDN, RUP]

/-- A finite value on its side of a directed rounding is no nearer than the result (R35). -/
theorem Placed.directed (hp : Placed f v k q t) (hf : TopAt f K Q) {mode : Nat} (hmode : mode ∈ [RZ, RDN, RUP]) (hup : up = true ↔ RoundsUp mode neg q t) {z : Nat}
    (hz : isFin (f.decode z) = true) :
    let x := signed neg ((q + b2n up : Nat) * 2 ^ ((k : Int) + f.emin - f.fb))
    let w := signed neg v
    let y := ((numValue (f.decode z) : ℚ) : ℝ)
    (mode = RZ → |x| ≤ |w| ∧ (|y| ≤ |w| → |y| ≤ |x|)) ∧ (mode = RDN → x ≤ w ∧ (y ≤ w → y ≤ x)) ∧ (mode = RUP → w ≤ x ∧ (w ≤ y → x ≤ y)) := by
  intro x w y
  obtain ⟨c, hc, hgrid⟩ := hp.others hf neg hz
  have h0 := hp.nonneg
  have h1 := hp.lt_one
  have hpos := two_zpow_pos ((k : Int) + f.emin - f.fb)
  have hy : y = signed neg (c * 2 ^ ((k : Int) + f.emin - f.fb)) := hc
  have hw : w = signed neg ((q + t) * 2 ^ ((k : Int) + f.emin - f.fb)) := congrArg (signed neg) hp.value
  have habs : |signed neg (c * 2 ^ ((k : Int) + f.emin - f.fb))| = |c| * 2 ^ ((k : Int) + f.emin - f.fb) := by rw [abs_signed, abs_mul, abs_of_pos hpos]
  have hgrid' : (∃ n : Int, |c| = n) ∨ |c| < q := hgrid.imp (fun ⟨n, hn⟩ => ⟨|n|, by rw [hn, Int.cast_abs]⟩) fun ⟨ha, hb⟩ => abs_lt.2 ⟨by linarith, ha⟩
  have hfloor := le_floor_step h1 (hgrid.imp_right And.left)
  have hz0 : RZ ≠ RDN ∧ RZ ≠ RUP ∧ RDN ≠ RUP := by decide
  rcases directed_step hmode hup with ⟨hm, rfl⟩ | ⟨hm, hu⟩
  · have hx : x = signed neg (q * 2 ^ ((k : Int) + f.emin - f.fb)) := by simp [x, b2n]
    rcases hm with rfl | ⟨rfl, rfl⟩ | ⟨rfl, rfl⟩
    · refine ⟨fun _ => ?_, fun h => absurd h hz0.1, fun h => absurd h hz0.2.1⟩
      have hq : |signed neg (q * 2 ^ ((k : Int) + f.emin - f.fb))| = q * 2 ^ ((k : Int) + f.emin - f.fb) := by rw [abs_signed, abs_of_nonneg (by positivity)]
      have hv : |signed neg ((q + t) * 2 ^ ((k : Int) + f.emin - f.fb))| = (q + t) * 2 ^ ((k : Int) + f.emin - f.fb) := by rw [abs_signed, abs_of_nonneg (by positivity)]
      rw [hx, hw, hy, hq, hv, habs, mul_le_mul_iff_left₀ hpos, mul_le_mul_iff_left₀ hpos, mul_le_mul_iff_left₀ hpos]
      exact ⟨by linarith, le_floor_step h1 hgrid'⟩
    · refine ⟨fun h => absurd h.symm hz0.1, fun _ => ?_, fun h => absurd h hz0.2.2⟩
      simp only [hx, hw, hy, signed_false, mul_le_mul_iff_left₀ hpos]
      exact ⟨by linarith, hfloor⟩
    · refine ⟨fun h => absurd h.symm hz0.2.1, fun h => absurd h.symm hz0.2.2, fun _ => ?_⟩
      simp only [hx, hw, hy, signed_true, neg_le_neg_iff, mul_le_mul_iff_left₀ hpos]
      exact ⟨by linarith, hfloor⟩
  · have hceil := ceil_step_le h0 hu (hgrid.imp_right And.left)
    have hge : q + t ≤ ((q + b2n up : Nat) : ℝ) := by
      cases up
      · have ht : t = 0 := not_not.1 fun h => Bool.noConfusion (hu.2 h)
        simp [b2n, ht]
      · simp only [b2n, if_true]
        push_cast
        linarith
    rcases hm with ⟨rfl, rfl⟩ | ⟨rfl, rfl⟩
    · refine ⟨fun h => absurd h.symm hz0.1, fun _ => ?_, fun h => absurd h hz0.2.2⟩
      simp only [x, hw, hy, signed_true, neg_le_neg_iff, mul_le_mul_iff_left₀ hpos]
      exact ⟨hge, hceil⟩
    · refine ⟨fun h => absurd h.symm hz0.2.1, fun h => absurd h.symm hz0.2.2, fun _ => ?_⟩
      simp only [x, hw, hy, signed_false, mul_le_mul_iff_left₀ hpos]
      exact ⟨hge, hceil⟩

end

/-! Conversions of finite values. -/

/-- A finite value is the nearest to itself. -/
theorem nearest_self {f : Fmt} {p : Nat} (hp : isFin (f.decode p) = true) : nearest f (· < numValue (f.decode p)) (numValue (f.decode p) < ·) p :=
  ⟨hp, fun _ _ _ => ⟨fun h => ⟨by linarith, fun h2 => absurd (by linarith) h2⟩, fun h => ⟨by linarith, fun h2 => absurd (by linarith) h2⟩⟩⟩

section

variable {f : Fmt} {K Q : Nat}

theorem decode_signBit (hf : TopAt f K Q) (neg : Bool) : f.signBit neg < 2 ^ f.bits ∧ bitOf (f.signBit neg) (f.eb + f.fb) = neg ∧ isFin (f.decode (f.signBit neg)) = true
    ∧ numValue (f.decode (f.signBit neg)) = 0 := by
  obtain ⟨hlt, hbit, -, hfin, hval⟩ := decode_steps hf neg (k := 0) (q := 0) (.inl rfl) (Nat.zero_le _) (by simp)
  rw [show f.signBit neg + (0 * 2 ^ f.fb + 0) = f.signBit neg by simp] at hlt hbit hfin hval
  refine ⟨hlt, hbit, hfin, ?_⟩
  rw [← Rat.cast_inj (α := ℝ)]
  refine Eq.trans hval ?_
  cases neg <;> simp

/-- Zero rounds to the zero of its sign. -/
theorem roundsTo_zero (hf : TopAt f K Q) (neg : Bool) : roundsTo f neg 0 (f.signBit neg, 0) := by
  obtain ⟨hlt, hbit, hfin, hval⟩ := decode_signBit hf neg
  obtain ⟨htop, hpred⟩ := hf.value
  unfold roundsTo
  intro top limit tooBig
  have hlim : 0 < limit := by
    have h : 0 < ((limit : ℚ) : ℝ) := by
      simp only [limit, top]
      push_cast
      rw [htop, hpred]
      have := two_zpow_pos ((K : Int) + f.emin - f.fb)
      have hQ : (1 : ℝ) ≤ Q := by exact_mod_cast (Nat.zero_le _).trans_lt hf.low
      nlinarith
    exact_mod_cast h
  have hno : ¬ tooBig := by
    rw [show tooBig = (limit < |0| ∨ (limit = |0| ∧ f.maxPat % 2 = 1)) from rfl, abs_zero]
    rintro (h | ⟨h, -⟩) <;> linarith
  refine ⟨fun h => absurd h hno, fun _ => ⟨hlt, hbit, ?_, fun _ => rfl, fun h => absurd hval h⟩⟩
  rw [← hval]
  exact nearest_self hfin

/-- What `convert` gives for a finite value in `.rne` (R35, R36). -/
theorem convert_roundsTo (hf : TopAt f K Q) (neg : Bool) (m : Nat) (e : Int) : roundsTo f neg (numValue (.fin neg m e)) (convert f RNE 0 false (.fin neg m e)) := by
  show roundsTo f neg _ (roundFin f RNE 0 false neg m e false)
  by_cases hm : m = 0
  · subst hm
    have h0 : numValue (.fin neg 0 e) = 0 := by simp [numValue]
    rw [h0]
    exact roundsTo_zero hf neg
  · exact roundFin_roundsTo hf 0 (.exact m e) hm (by simp) (cast_numValue_fin neg m e)

/-- What `convert` gives for a finite value in a directed mode, within the finite values of the format (R35, R36). -/
theorem convert_directed (hf : TopAt f K Q) (neg : Bool) (m : Nat) (e : Int) (hle : |numValue (.fin neg m e)| ≤ numValue (f.decode f.maxPat)) {mode : Nat} (hmode : mode ∈ [RZ, RDN, RUP]) :
    let v := numValue (.fin neg m e)
    let r := convert f mode 0 false (.fin neg m e)
    let x := numValue (f.decode r.1)
    isFin (f.decode r.1) = true ∧ bitOf r.1 (f.eb + f.fb) = neg ∧ (r.2 &&& (NX + OF)) = (if x = v then 0 else NX)
      ∧ ∀ z, z < 2 ^ f.bits → isFin (f.decode z) = true →
        let y := numValue (f.decode z)
        (mode = RZ → |x| ≤ |v| ∧ (|y| ≤ |v| → |y| ≤ |x|)) ∧ (mode = RDN → x ≤ v ∧ (y ≤ v → y ≤ x)) ∧ (mode = RUP → v ≤ x ∧ (v ≤ y → x ≤ y)) := by
  intro v r x
  have hr : r = roundFin f mode 0 false neg m e false := rfl
  by_cases hm : m = 0
  · subst hm
    obtain ⟨-, hbit, hfin, hval⟩ := decode_signBit hf neg
    have hr0 : r = (f.signBit neg, 0) := rfl
    have hv0 : v = 0 := by simp [v, numValue]
    have hx0 : x = 0 := by simp only [x, hr0, hval]
    rw [hx0, hv0, hr0]
    exact ⟨hfin, hbit, by simp, fun z _ _ => ⟨fun _ => ⟨le_rfl, id⟩, fun _ => ⟨le_rfl, id⟩, fun _ => ⟨le_rfl, id⟩⟩⟩
  · have hst := Stands.exact m e
    have hv : ((v : ℚ) : ℝ) = signed neg (m * 2 ^ e) := cast_numValue_fin neg m e
    have hmax : (m : ℝ) * 2 ^ e ≤ Q * 2 ^ ((K : Int) + f.emin - f.fb) := by
      have h : ((|v| : ℚ) : ℝ) ≤ ((numValue (f.decode f.maxPat) : ℚ) : ℝ) := Rat.cast_le.2 hle
      rwa [Rat.cast_abs, hv, abs_signed, abs_of_pos (hst.pos hm), hf.value.1] at h
    have h3 : mode ≤ 3 := by
      simp only [List.mem_cons, List.not_mem_nil, or_false] at hmode
      rcases hmode with rfl | rfl | rfl <;> decide
    obtain ⟨k, q, t, up, hp, hup, hfit, -⟩ := roundFin_spec hf h3 0 neg hst hm (by simp)
    have hut : up = true → t ≠ 0 := fun hu h0 => roundsUp_zero mode neg q (h0 ▸ hup.1 hu)
    have hpat := hp.fits hf hmax hut
    obtain ⟨hr1, hexact, hinexact⟩ := hfit hpat
    obtain ⟨-, hbit, -, hfin, hval⟩ := decode_steps hf neg (k := k) (q := q + b2n up) (hp.low.imp_right fun h => h.trans (Nat.le_add_right _ _))
      (by have := hp.high; have := b2n_le up; omega) hpat
    have hx : ((x : ℚ) : ℝ) = signed neg ((q + b2n up : Nat) * 2 ^ ((k : Int) + f.emin - f.fb)) := by
      simp only [x, hr, hr1]
      exact hval
    have heq : x = v ↔ t = 0 := by rw [← Rat.cast_inj (α := ℝ), hx, hv, hp.exact_iff hup]
    rw [hr, hr1]
    refine ⟨hfin, hbit, ?_, fun z _ hz => ?_⟩
    · by_cases ht : t = 0
      · rw [if_pos (heq.2 ht), hexact ht]
        rfl
      · rw [if_neg fun h => ht (heq.1 h), hinexact ht]
        split <;> rfl
    · have := hp.directed hf hmode hup hz
      rw [← hx, ← hv] at this
      dsimp only at this ⊢
      exact_mod_cast this

/-- A value that the format has is its own conversion, without a flag. -/
theorem convert_exact (hf : TopAt f K Q) {neg : Bool} {m : Nat} {e : Int} (hm : m < 2 ^ (f.fb + 1)) (he : f.emin - f.fb ≤ e)
    (hle : |((numValue (.fin neg m e) : ℚ) : ℝ)| ≤ Q * 2 ^ ((K : Int) + f.emin - f.fb)) :
    isFin (f.decode (pat f (.fin neg m e))) = true ∧ numValue (f.decode (pat f (.fin neg m e))) = numValue (.fin neg m e) ∧ (convert f RNE 0 false (.fin neg m e)).2 = 0 := by
  by_cases hm0 : m = 0
  · subst hm0
    obtain ⟨-, -, hfin, hval⟩ := decode_signBit hf neg
    exact ⟨hfin, hval.trans (by simp [numValue]), rfl⟩
  · have hst := Stands.exact m e
    rw [cast_numValue_fin, abs_signed, abs_of_pos (hst.pos hm0)] at hle
    obtain ⟨k, q, t, up, hp, hup, hfit, -⟩ := roundFin_spec hf (mode := RNE) (by decide) 0 neg hst hm0 (by simp)
    have ht := hp.on_step hm he
    have hut : up = true → t ≠ 0 := fun hu h0 => roundsUp_zero RNE neg q (h0 ▸ hup.1 hu)
    have hpat := hp.fits hf hle hut
    obtain ⟨hr, hexact, -⟩ := hfit hpat
    obtain ⟨-, -, -, hfin, hval⟩ := decode_steps hf neg (k := k) (q := q + b2n up) (hp.low.imp_right fun h => h.trans (Nat.le_add_right _ _))
      (by have := hp.high; have := b2n_le up; omega) hpat
    have hpe : pat f (.fin neg m e) = f.signBit neg + (k * 2 ^ f.fb + (q + b2n up)) := hr
    rw [hpe]
    refine ⟨hfin, ?_, hexact ht⟩
    rw [← Rat.cast_inj (α := ℝ), hval, cast_numValue_fin, hp.exact_iff hup]
    exact ht

end

end Sys2Proof.Machine
end

section
/-! SUPPORT. Quotients, roots and reciprocal roots of finite values round to the nearest value (R177, R180). -/

set_option Elab.async false

namespace Sys2Proof.Machine

open Sys2Proof

theorem two_pow_cast (n : Nat) : (2 : ℝ) ^ n = 2 ^ (n : Int) := (zpow_natCast 2 n).symm

/-- The integer quotient of m·2^128 and l stands below the quotient of the values. -/
theorem quot_stands (m : Nat) (e : Int) {l : Nat} (hl : l ≠ 0) (g : Int) :
    Stands (m * 2 ^ 128 / l) (e - g - 128) (decide (m * 2 ^ 128 % l ≠ 0)) (m * 2 ^ e / (l * 2 ^ g)) := by
  have hl0 : (0 : ℝ) < l := by exact_mod_cast Nat.pos_of_ne_zero hl
  have hp := two_zpow_pos (e - g - 128)
  have hdm : (m * 2 ^ 128 : ℝ) = l * (m * 2 ^ 128 / l : Nat) + (m * 2 ^ 128 % l : Nat) := by exact_mod_cast (Nat.div_add_mod (m * 2 ^ 128) l).symm
  have hr : ((m * 2 ^ 128 % l : Nat) : ℝ) < l := by exact_mod_cast Nat.mod_lt _ (Nat.pos_of_ne_zero hl)
  have hv : (m * 2 ^ e / (l * 2 ^ g) : ℝ) = ((m * 2 ^ 128 / l : Nat) + (m * 2 ^ 128 % l : Nat) / l) * 2 ^ (e - g - 128) := by
    have he : (2 : ℝ) ^ e = 2 ^ g * (2 ^ 128 * 2 ^ (e - g - 128)) := by
      rw [two_pow_cast, ← two_zpow_add, ← two_zpow_add]
      congr 1
      push_cast
      ring
    have hq : ((m * 2 ^ 128 / l : Nat) + (m * 2 ^ 128 % l : Nat) / l : ℝ) = m * 2 ^ 128 / l := by
      rw [hdm]
      field_simp
    have := two_zpow_ne g
    rw [hq, he]
    field_simp
  generalize m * 2 ^ 128 / l = q at hv ⊢
  generalize m * 2 ^ 128 % l = r at hr hv ⊢
  have hr0 : (0 : ℝ) ≤ r := Nat.cast_nonneg r
  rw [hv]
  refine ⟨mul_le_mul_of_nonneg_right (le_add_of_nonneg_right (div_nonneg hr0 hl0.le)) hp.le, mul_lt_mul_of_pos_right (add_lt_add_right ((div_lt_one hl0).2 hr) _) hp, ?_⟩
  rw [mul_left_inj' hp.ne', add_eq_left, div_eq_zero_iff, or_iff_left hl0.ne', Nat.cast_eq_zero]
  simp

theorem isqrtAux_spec (x : Nat) : ∀ k r, r * r ≤ x → x < (r + 2 ^ k) * (r + 2 ^ k) → isqrtAux x k r * isqrtAux x k r ≤ x ∧ x < (isqrtAux x k r + 1) * (isqrtAux x k r + 1)
  | 0, _, hl, hu => ⟨hl, hu⟩
  | k + 1, r, hl, hu => by
    simp only [isqrtAux]
    split
    · rename_i h
      refine isqrtAux_spec x k _ h ?_
      rwa [Nat.add_assoc, ← Nat.mul_two, ← Nat.pow_succ]
    · exact isqrtAux_spec x k r hl (by omega)

/-- The bit-by-bit square root is the integer square root. -/
theorem isqrt_eq (x : Nat) : isqrt x = Nat.sqrt x := by
  have hu : x < (0 + 2 ^ (Nat.log2 x / 2 + 1)) * (0 + 2 ^ (Nat.log2 x / 2 + 1)) := by
    rw [Nat.zero_add, ← Nat.pow_add]
    exact Nat.lt_log2_self.trans_le (Nat.pow_le_pow_right two_pos (by omega))
  exact Nat.eq_sqrt.2 (isqrtAux_spec x _ 0 (Nat.zero_le _) hu)

/-- A root between two whole numbers. -/
theorem sqrt_stands {X : ℝ} {r : Nat} (h1 : (r : ℝ) ^ 2 ≤ X) (h2 : X < (r + 1) ^ 2) {sticky : Bool} (hs : sticky = false ↔ X = r ^ 2) (e : Int) :
    Stands r e sticky (√X * 2 ^ e) := by
  have hr : (0 : ℝ) ≤ r := Nat.cast_nonneg r
  have hX : 0 ≤ X := (sq_nonneg _).trans h1
  have hp := two_zpow_pos e
  refine ⟨mul_le_mul_of_nonneg_right (Real.le_sqrt_of_sq_le h1) hp.le, mul_lt_mul_of_pos_right ((Real.sqrt_lt' (by linarith)).2 h2) hp, ?_⟩
  rw [hs, mul_left_inj' hp.ne', Real.sqrt_eq_iff_eq_sq hX hr]

theorem sqrt_two_zpow (X : ℝ) (e : Int) : √(X * 2 ^ (2 * e)) = √X * 2 ^ e := by
  rw [Real.sqrt_mul' _ (two_zpow_pos _).le, show (2 : ℝ) ^ (2 * e) = (2 ^ e) ^ 2 by rw [mul_comm, zpow_mul]; rfl, Real.sqrt_sq (two_zpow_pos e).le]

/-- A value m·2^e with an even exponent. -/
theorem even_exp (m : Nat) (e : Int) : ∃ c : Int, (if e % 2 = 0 then e else e - 1) = 2 * c ∧ ((if e % 2 = 0 then m else 2 * m : Nat) : ℝ) * 2 ^ (2 * c) = m * 2 ^ e := by
  split
  · exact ⟨e / 2, by omega, by rw [show 2 * (e / 2) = e by omega]⟩
  · refine ⟨(e - 1) / 2, by omega, ?_⟩
    rw [show 2 * ((e - 1) / 2) = e - 1 by omega, zpow_sub_one₀ two_ne_zero]
    push_cast
    ring

section

variable {f : Fmt} {K Q : Nat}

/-- A magnitude within the finite values rounds to the nearest of them (R35). -/
theorem roundFin_nearest (hf : TopAt f K Q) {m : Nat} {e : Int} {sticky : Bool} {v : ℝ} (hst : Stands m e sticky v) (hm : m ≠ 0) (hs : sticky = true → f.fb < Nat.log2 m)
    (hle : v ≤ Q * 2 ^ ((K : Int) + f.emin - f.fb)) : nearest f (fun x => (x : ℝ) < v) (fun x => v < (x : ℝ)) (roundFin f RNE 0 false false m e sticky).1 := by
  obtain ⟨k, q, t, up, hp, hup, hfit, -⟩ := roundFin_spec hf (mode := RNE) (by decide) 0 false hst hm hs
  have hpat := hp.fits hf hle fun hu h0 => roundsUp_zero RNE false q (h0 ▸ hup.1 hu)
  obtain ⟨hlt, hbit, hpar, hfin, hval⟩ := decode_steps hf false (k := k) (q := q + b2n up) (hp.low.imp_right fun h => h.trans (Nat.le_add_right _ _))
    (by have := hp.high; have := b2n_le up; omega) hpat
  rw [(hfit hpat).1]
  exact hp.nearest hf hup hfin hpar hval

/-- A finite operand of a format: its significand, its exponent and its value. -/
theorem finite_operand (hf : TopAt f K Q) {x : Nat} (hx : isFin (f.decode x) = true) : ∃ m e, f.decode x = .fin (bitOf x (f.eb + f.fb)) m e ∧ m < 2 ^ (f.fb + 1) ∧ f.emin - f.fb ≤ e := by
  obtain ⟨k, q, -, hq, -, hd⟩ := decode_of_le hf (le_of_isFin hf hx)
  exact ⟨q, _, hd, hq, by omega⟩

theorem numValue_eq_zero {neg : Bool} {m : Nat} {e : Int} : numValue (.fin neg m e) = 0 ↔ m = 0 := by
  have : (2 : ℚ) ^ e ≠ 0 := zpow_ne_zero _ two_ne_zero
  cases neg <;> simp [numValue, this]

theorem signed_div (a b : Bool) (v w : ℝ) : signed a v / signed b w = signed (a != b) (v / w) := by
  cases a <;> cases b <;> simp [signed, neg_div, div_neg]

/-- A quotient of finite values is rounded once (R177). -/
theorem fDiv_roundsTo (hf : TopAt f K Q) (hb : f.fb ≤ 23) {x y : Nat} (hx : isFin (f.decode x) = true) (hy : isFin (f.decode y) = true) (hy0 : numValue (f.decode y) ≠ 0) :
    roundsTo f (bitOf x (f.eb + f.fb) != bitOf y (f.eb + f.fb)) (numValue (f.decode x) / numValue (f.decode y)) (fDiv f RNE (f.decode x) (f.decode y)) := by
  obtain ⟨m, e, hdx, -, -⟩ := finite_operand hf hx
  obtain ⟨l, g, hdy, hl, -⟩ := finite_operand hf hy
  rw [hdy, Ne, numValue_eq_zero] at hy0
  rw [hdx, hdy]
  generalize bitOf x (f.eb + f.fb) = a
  generalize bitOf y (f.eb + f.fb) = b
  have hdiv : fDiv f RNE (.fin a m e) (.fin b l g) = roundFin f RNE 0 false (a != b) (m * 2 ^ 128 / l) (e - g - 128) (decide (m * 2 ^ 128 % l ≠ 0)) := if_neg hy0
  rw [hdiv]
  by_cases hm : m = 0
  · subst hm
    rw [numValue_eq_zero.2 rfl, zero_div, Nat.zero_mul, Nat.zero_div]
    exact roundsTo_zero hf _
  · have hq : 2 ^ 24 ≤ m * 2 ^ 128 / l := by
      have h1 : l ≤ 2 ^ 24 := hl.le.trans (Nat.pow_le_pow_right two_pos (by omega))
      rw [Nat.le_div_iff_mul_le (Nat.pos_of_ne_zero hy0)]
      calc 2 ^ 24 * l ≤ 2 ^ 24 * 2 ^ 24 := Nat.mul_le_mul_left _ h1
        _ ≤ 1 * 2 ^ 128 := by norm_num
        _ ≤ m * 2 ^ 128 := Nat.mul_le_mul_right _ (Nat.pos_of_ne_zero hm)
    have hq0 : m * 2 ^ 128 / l ≠ 0 := by omega
    refine roundFin_roundsTo hf 0 (quot_stands m e hy0 g) hq0 (fun _ => ?_) ?_
    · have := (Nat.le_log2 hq0).2 hq
      omega
    · rw [Rat.cast_div, cast_numValue_fin, cast_numValue_fin, signed_div]

/-- What a root needs of a format: it reaches 1, and the root of its least value has its reciprocal below the greatest value. -/
structure RootRange (f : Fmt) (K : Nat) : Prop where
  one : 0 ≤ (K : Int) + f.emin
  recip : f.fb - f.emin ≤ 2 * ((K : Int) + f.emin)
  frac : f.fb ≤ 23

theorem TopAt.two_pow_le (hf : TopAt f K Q) : (2 : ℝ) ^ ((K : Int) + f.emin) ≤ Q * 2 ^ ((K : Int) + f.emin - f.fb) := by
  have hq : (2 : ℝ) ^ f.fb ≤ Q := by exact_mod_cast hf.low.le
  calc (2 : ℝ) ^ ((K : Int) + f.emin) = 2 ^ f.fb * 2 ^ ((K : Int) + f.emin - f.fb) := by rw [two_pow_cast, ← two_zpow_add]; congr 1; ring
    _ ≤ _ := mul_le_mul_of_nonneg_right hq (two_zpow_pos _).le

/-- A positive finite operand. -/
theorem positive_operand (hf : TopAt f K Q) {x : Nat} (hx : isFin (f.decode x) = true) (hpos : 0 < numValue (f.decode x)) :
    ∃ m e, f.decode x = .fin false m e ∧ m ≠ 0 ∧ m < 2 ^ (f.fb + 1) ∧ f.emin - f.fb ≤ e ∧ ((numValue (f.decode x) : ℚ) : ℝ) = m * 2 ^ e := by
  obtain ⟨m, e, hd, hm, he⟩ := finite_operand hf hx
  have hv : ((numValue (f.decode x) : ℚ) : ℝ) = signed (bitOf x (f.eb + f.fb)) (m * 2 ^ e) := by rw [hd, cast_numValue_fin]
  have h0 : m ≠ 0 := fun h => by rw [hd, h, numValue_eq_zero.2 rfl] at hpos; exact lt_irrefl _ hpos
  have hs : bitOf x (f.eb + f.fb) = false := by
    by_contra hb
    rw [Bool.not_eq_false] at hb
    have h1 : (0 : ℝ) < ((numValue (f.decode x) : ℚ) : ℝ) := by exact_mod_cast hpos
    have h2 : (0 : ℝ) ≤ m * 2 ^ e := mul_nonneg (Nat.cast_nonneg _) (two_zpow_pos e).le
    rw [hv, hb, signed_true] at h1
    linarith
  rw [hs] at hd hv
  exact ⟨m, e, hd, h0, hm, he, hv⟩

/-- A root against a number, in terms of squares. -/
theorem lt_sqrt_iff {u t : ℚ} : (t : ℝ) < √(u : ℝ) ↔ t < 0 ∨ t ^ 2 < u := by
  by_cases ht : t < 0
  · have h : (t : ℝ) < 0 := by exact_mod_cast ht
    exact iff_of_true (h.trans_le (Real.sqrt_nonneg _)) (.inl ht)
  · have h : (0 : ℝ) ≤ t := by exact_mod_cast not_lt.1 ht
    rw [Real.lt_sqrt h, or_iff_right ht]
    exact_mod_cast Iff.rfl

theorem sqrt_lt_iff {u t : ℚ} : √(u : ℝ) < (t : ℝ) ↔ 0 < t ∧ u < t ^ 2 := by
  by_cases ht : 0 < t
  · have h : (0 : ℝ) < t := by exact_mod_cast ht
    rw [Real.sqrt_lt' h, and_iff_right ht]
    exact_mod_cast Iff.rfl
  · have h : (t : ℝ) ≤ 0 := by exact_mod_cast not_lt.1 ht
    exact iff_of_false (not_lt.2 (h.trans (Real.sqrt_nonneg _))) fun h => ht h.1

/-- A square root is the nearest value (R180). -/
theorem fSqrt_nearest (hf : TopAt f K Q) (hr : RootRange f K) {x : Nat} (hx : isFin (f.decode x) = true) (hpos : 0 < numValue (f.decode x)) :
    nearest f (fun t => t < 0 ∨ t ^ 2 < numValue (f.decode x)) (fun t => 0 < t ∧ numValue (f.decode x) < t ^ 2) (fSqrt f RNE (f.decode x)).1 := by
  obtain ⟨m, e, hd, hm, hmlt, -, hv⟩ := positive_operand hf hx hpos
  obtain ⟨c, hc, hce⟩ := even_exp m e
  set M := (if e % 2 = 0 then m else 2 * m) * 2 ^ 128 with hM
  have hm2 : 1 ≤ (if e % 2 = 0 then m else 2 * m) := by split <;> omega
  have hsqrt : fSqrt f RNE (f.decode x) = roundFin f RNE 0 false false (Nat.sqrt M) (c - 64) (decide (Nat.sqrt M * Nat.sqrt M ≠ M)) := by
    rw [hd]
    simp only [fSqrt, hm, if_false, hc, isqrt_eq, Bool.false_eq_true, ← hM]
    congr 1
    omega
  have hval : √((numValue (f.decode x) : ℚ) : ℝ) = √(M : ℝ) * 2 ^ (c - 64) := by
    rw [hv, ← hce, ← sqrt_two_zpow, hM]
    congr 1
    push_cast
    rw [mul_assoc]
    congr 1
    rw [show 2 * c = 128 + 2 * (c - 64) by ring, two_zpow_add]
    norm_num
  have hst : Stands (Nat.sqrt M) (c - 64) (decide (Nat.sqrt M * Nat.sqrt M ≠ M)) (√((numValue (f.decode x) : ℚ) : ℝ)) := by
    rw [hval]
    refine sqrt_stands ?_ ?_ ?_ _
    · exact_mod_cast Nat.sqrt_le' M
    · exact_mod_cast Nat.lt_succ_sqrt' M
    · rw [decide_eq_false_iff_not, not_not, ← pow_two, eq_comm]
      exact_mod_cast Iff.rfl
  have hbig : 2 ^ 64 ≤ Nat.sqrt M := by
    rw [Nat.le_sqrt', hM]
    exact le_trans (by norm_num) (Nat.mul_le_mul_right (2 ^ 128) hm2)
  have hr0 : Nat.sqrt M ≠ 0 := by omega
  have hu0 : (0 : ℝ) < ((numValue (f.decode x) : ℚ) : ℝ) := by exact_mod_cast hpos
  have htop : √((numValue (f.decode x) : ℚ) : ℝ) ≤ Q * 2 ^ ((K : Int) + f.emin - f.fb) := by
    have h1 : (1 : ℝ) ≤ Q * 2 ^ ((K : Int) + f.emin - f.fb) := (one_le_zpow₀ one_le_two hr.one).trans hf.two_pow_le
    have h2 := (le_abs_self _).trans (hf.abs_le hx)
    refine Real.sqrt_le_iff.2 ⟨by linarith, h2.trans ?_⟩
    nlinarith
  have := roundFin_nearest hf hst hr0 (fun _ => by have := (Nat.le_log2 hr0).2 hbig; have := hr.frac; omega) htop
  rw [hsqrt]
  simpa only [lt_sqrt_iff, sqrt_lt_iff] using this

/-- A reciprocal root is the nearest value (R180). -/
theorem fRsqrt_nearest (hf : TopAt f K Q) (hr : RootRange f K) {x : Nat} (hx : isFin (f.decode x) = true) (hpos : 0 < numValue (f.decode x)) :
    nearest f (fun t => t < 0 ∨ t ^ 2 * numValue (f.decode x) < 1) (fun t => 0 < t ∧ 1 < t ^ 2 * numValue (f.decode x)) (fRsqrt f RNE (f.decode x)).1 := by
  obtain ⟨m, e, hd, hm, hmlt, he, hv⟩ := positive_operand hf hx hpos
  obtain ⟨c, hc, hce⟩ := even_exp m e
  set M := (if e % 2 = 0 then m else 2 * m) with hM
  have hM0 : 0 < M := by rw [hM]; split <;> omega
  have hMlt : M ≤ 2 ^ 25 := by
    have h1 : m < 2 ^ 24 := hmlt.trans_le (Nat.pow_le_pow_right two_pos (by have := hr.frac; omega))
    rw [hM]
    split <;> omega
  have hMr : (0 : ℝ) < M := by exact_mod_cast hM0
  obtain ⟨r, hrd⟩ : ∃ r, r = Nat.sqrt (2 ^ 256 / M) := ⟨_, rfl⟩
  have hrsqrt : fRsqrt f RNE (f.decode x) = roundFin f RNE 0 false false r (-128 - c) (decide (r * r * M ≠ 2 ^ 256)) := by
    rw [hd]
    simp only [fRsqrt, hm, if_false, hc, isqrt_eq, Bool.false_eq_true, ← hM, ← hrd]
    congr 1
    omega
  have hval : √(((numValue (f.decode x))⁻¹ : ℚ) : ℝ) = √((2 : ℝ) ^ 256 / M) * 2 ^ (-128 - c) := by
    rw [Rat.cast_inv, hv, ← hce, ← sqrt_two_zpow]
    congr 1
    rw [mul_inv, ← zpow_neg, div_mul_eq_mul_div, two_pow_cast, ← two_zpow_add, inv_mul_eq_div]
    congr 2
    push_cast
    ring
  have hst : Stands r (-128 - c) (decide (r * r * M ≠ 2 ^ 256)) (√(((numValue (f.decode x))⁻¹ : ℚ) : ℝ)) := by
    have h1 : r ^ 2 * M ≤ 2 ^ 256 := (Nat.le_div_iff_mul_le hM0).1 (by rw [hrd]; exact Nat.sqrt_le' _)
    have h2 : 2 ^ 256 < (r + 1) ^ 2 * M := (Nat.div_lt_iff_lt_mul hM0).1 (by rw [hrd]; exact Nat.lt_succ_sqrt' _)
    rw [hval]
    refine sqrt_stands ?_ ?_ ?_ _
    · rw [le_div_iff₀ hMr]
      exact_mod_cast h1
    · rw [div_lt_iff₀ hMr]
      exact_mod_cast h2
    · rw [decide_eq_false_iff_not, not_not, ← pow_two, eq_comm, div_eq_iff hMr.ne']
      exact_mod_cast Iff.rfl
  have hbig : 2 ^ 64 ≤ r := by
    rw [hrd, Nat.le_sqrt', Nat.le_div_iff_mul_le hM0]
    exact le_trans (Nat.mul_le_mul_left _ hMlt) (by norm_num)
  have hr0 : r ≠ 0 := by omega
  have hu0 : (0 : ℝ) < ((numValue (f.decode x) : ℚ) : ℝ) := by exact_mod_cast hpos
  have htop : √(((numValue (f.decode x))⁻¹ : ℚ) : ℝ) ≤ Q * 2 ^ ((K : Int) + f.emin - f.fb) := by
    refine le_trans ?_ hf.two_pow_le
    rw [Real.sqrt_le_left (two_zpow_pos _).le, Rat.cast_inv, hv, show ((2 : ℝ) ^ ((K : Int) + f.emin)) ^ 2 = 2 ^ (2 * ((K : Int) + f.emin)) by rw [mul_comm, zpow_mul]; rfl]
    have h1 : (2 : ℝ) ^ (f.emin - f.fb) ≤ m * 2 ^ e := by
      have : (1 : ℝ) ≤ m := by exact_mod_cast Nat.pos_of_ne_zero hm
      have h2 := two_zpow_le he
      have h3 := two_zpow_pos e
      nlinarith
    calc ((m : ℝ) * 2 ^ e)⁻¹ ≤ (2 ^ (f.emin - f.fb))⁻¹ := inv_anti₀ (two_zpow_pos _) h1
      _ = 2 ^ (f.fb - f.emin) := by rw [← zpow_neg, neg_sub]
      _ ≤ _ := two_zpow_le hr.recip
  have := roundFin_nearest hf hst hr0 (fun _ => by have := (Nat.le_log2 hr0).2 hbig; have := hr.frac; omega) htop
  rw [hrsqrt]
  have hinv : ∀ t : ℚ, (t ^ 2 < (numValue (f.decode x))⁻¹ ↔ t ^ 2 * numValue (f.decode x) < 1) ∧ ((numValue (f.decode x))⁻¹ < t ^ 2 ↔ 1 < t ^ 2 * numValue (f.decode x)) := fun t =>
    ⟨by rw [← one_div, lt_div_iff₀ hpos], by rw [← one_div, div_lt_iff₀ hpos]⟩
  simpa only [lt_sqrt_iff, sqrt_lt_iff, hinv] using this

end

end Sys2Proof.Machine
end

section
/-! SUPPORT. Exact sums and products of finite values, and their order (R35, R177, R179). -/

set_option Elab.async false

namespace Sys2Proof.Machine

open Sys2Proof

theorem exists_fin_of_isFin {x : Sys2Proof.Num} (h : isFin x = true) : ∃ neg m e, x = .fin neg m e := by
  cases x with
  | fin neg m e => exact ⟨neg, m, e, rfl⟩
  | nan => cases h
  | inf => cases h

/-- The steps of 2^lo that a value makes up. -/
theorem scaled_value (neg : Bool) (m : Nat) {e lo : Int} (h : lo ≤ e) : (scaled neg m e lo : ℚ) * 2 ^ lo = numValue (.fin neg m e) := by
  have hs : (2 : ℚ) ^ e = 2 ^ (e - lo).toNat * 2 ^ lo := by
    rw [← zpow_natCast, ← zpow_add₀ two_ne_zero]
    congr 1
    omega
  rw [numValue, hs]
  cases neg <;> simp [scaled, mul_assoc]

/-- A count of steps of 2^lo as a number. -/
theorem numValue_steps (t lo : Int) : numValue (.fin (decide (t < 0)) t.natAbs lo) = t * 2 ^ lo := by
  have h : ((if t < 0 then -1 else 1 : ℚ)) * (t.natAbs : ℚ) = t := by
    split
    · rename_i ht
      rw [Nat.cast_natAbs, abs_of_neg ht]
      push_cast
      ring
    · rename_i ht
      rw [Nat.cast_natAbs, abs_of_nonneg (not_lt.1 ht), one_mul]
  rw [numValue]
  simp only [decide_eq_true_eq]
  rw [h]

/-- The exact sum of two finite values (R35). -/
theorem exactSum_pair (mode : Nat) {a b : Sys2Proof.Num} (ha : isFin a = true) (hb : isFin b = true) :
    isFin (exactSum mode [a, b]).1 = true ∧ numValue (exactSum mode [a, b]).1 = numValue a + numValue b ∧ (exactSum mode [a, b]).2 = 0 := by
  obtain ⟨n, m, e, rfl⟩ := exists_fin_of_isFin ha
  obtain ⟨k, l, g, rfl⟩ := exists_fin_of_isFin hb
  have hz : ∀ {neg e}, numValue (.fin neg 0 e) = 0 := numValue_eq_zero.2 rfl
  have hsum : ∀ {t lo : Int} {v : ℚ}, (t : ℚ) * 2 ^ lo = v → let r : Sys2Proof.Num × Nat := if t = 0 then (.fin (mode == RDN) 0 0, 0) else (.fin (decide (t < 0)) t.natAbs lo, 0)
      isFin r.1 = true ∧ numValue r.1 = v ∧ r.2 = 0 := fun {t lo v} h => by
    intro r
    by_cases ht : t = 0
    · rw [show r = (.fin (mode == RDN) 0 0, 0) from if_pos ht]
      exact ⟨rfl, by rw [hz, ← h, ht]; simp, rfl⟩
    · rw [show r = (.fin (decide (t < 0)) t.natAbs lo, 0) from if_neg ht]
      exact ⟨rfl, (numValue_steps t lo).trans h, rfl⟩
  by_cases hm : m = 0 <;> by_cases hl : l = 0
  · subst hm hl
    rw [hz, hz]
    exact ⟨rfl, hz.trans (add_zero 0).symm, rfl⟩
  · subst hm
    have h : exactSum mode [.fin n 0 e, .fin k l g] = let t := 0 + scaled k l g g
      if t = 0 then (.fin (mode == RDN) 0 0, 0) else (.fin (decide (t < 0)) t.natAbs g, 0) := by simp [exactSum, hl]
    rw [h, hz, zero_add]
    exact hsum (by rw [zero_add]; exact scaled_value k l le_rfl)
  · subst hl
    have h : exactSum mode [.fin n m e, .fin k 0 g] = let t := 0 + scaled n m e e
      if t = 0 then (.fin (mode == RDN) 0 0, 0) else (.fin (decide (t < 0)) t.natAbs e, 0) := by simp [exactSum, hm]
    rw [h, hz, add_zero]
    exact hsum (by rw [zero_add]; exact scaled_value n m le_rfl)
  · have h : exactSum mode [.fin n m e, .fin k l g] = let t := 0 + scaled n m e (min e g) + scaled k l g (min e g)
      if t = 0 then (.fin (mode == RDN) 0 0, 0) else (.fin (decide (t < 0)) t.natAbs (min e g), 0) := by simp [exactSum, hm, hl]
    rw [h]
    exact hsum (by rw [zero_add, Int.cast_add, add_mul, scaled_value n m (min_le_left e g), scaled_value k l (min_le_right e g)])

/-- The exact product of two finite values. -/
theorem exactMul_fin {a b : Sys2Proof.Num} (ha : isFin a = true) (hb : isFin b = true) :
    isFin (exactMul a b).1 = true ∧ numValue (exactMul a b).1 = numValue a * numValue b ∧ (exactMul a b).2 = 0 := by
  obtain ⟨n, m, e, rfl⟩ := exists_fin_of_isFin ha
  obtain ⟨k, l, g, rfl⟩ := exists_fin_of_isFin hb
  refine ⟨rfl, ?_, rfl⟩
  have hs : (2 : ℚ) ^ (e + g) = 2 ^ e * 2 ^ g := zpow_add₀ two_ne_zero e g
  simp only [exactMul, numValue, hs]
  cases n <;> cases k <;> push_cast <;> simp <;> ring

theorem neg_fin {a : Sys2Proof.Num} (ha : isFin a = true) : isFin a.neg = true ∧ numValue a.neg = -numValue a := by
  obtain ⟨n, m, e, rfl⟩ := exists_fin_of_isFin ha
  refine ⟨rfl, ?_⟩
  cases n <;> simp [Num.neg, numValue]

/-- Finite operands have no NaN among them. -/
theorem firstNan_fin {xs : List Sys2Proof.Num} (h : ∀ x ∈ xs, isFin x = true) : firstNan xs = none := by
  have : xs.filter Num.isNan = [] := List.filter_eq_nil_iff.2 fun x hx => by
    obtain ⟨n, m, e, rfl⟩ := exists_fin_of_isFin (h x hx)
    simp [Num.isNan]
  rw [firstNan, this]

theorem deliver_fin (f : Fmt) (mode : Nat) {xs : List Sys2Proof.Num} (h : ∀ x ∈ xs, isFin x = true) {e : Sys2Proof.Num × Nat} (he : e.2 = 0) :
    deliver f mode xs e = convert f mode 0 false e.1 := by
  rw [deliver, firstNan_fin h, he]
  simp

theorem fin_pair {a b : Sys2Proof.Num} (ha : isFin a = true) (hb : isFin b = true) : ∀ x ∈ [a, b], isFin x = true :=
  List.forall_mem_cons.2 ⟨ha, List.forall_mem_cons.2 ⟨hb, List.forall_mem_nil _⟩⟩

theorem fAdd_fin (f : Fmt) (mode : Nat) {a b : Sys2Proof.Num} (ha : isFin a = true) (hb : isFin b = true) :
    ∃ z, isFin z = true ∧ numValue z = numValue a + numValue b ∧ fAdd f mode a b = convert f mode 0 false z := by
  obtain ⟨hz, hv, h0⟩ := exactSum_pair mode ha hb
  exact ⟨_, hz, hv, deliver_fin f mode (fin_pair ha hb) h0⟩

theorem fSub_fin (f : Fmt) (mode : Nat) {a b : Sys2Proof.Num} (ha : isFin a = true) (hb : isFin b = true) :
    ∃ z, isFin z = true ∧ numValue z = numValue a - numValue b ∧ fSub f mode a b = convert f mode 0 false z := by
  obtain ⟨hn, hnv⟩ := neg_fin hb
  obtain ⟨hz, hv, h0⟩ := exactSum_pair mode ha hn
  exact ⟨_, hz, by rw [hv, hnv, sub_eq_add_neg], deliver_fin f mode (fin_pair ha hb) h0⟩

theorem fMul_fin (f : Fmt) (mode : Nat) {a b : Sys2Proof.Num} (ha : isFin a = true) (hb : isFin b = true) :
    ∃ z, isFin z = true ∧ numValue z = numValue a * numValue b ∧ fMul f mode a b = convert f mode 0 false z := by
  obtain ⟨hz, hv, h0⟩ := exactMul_fin ha hb
  exact ⟨_, hz, hv, deliver_fin f mode (fin_pair ha hb) h0⟩

/-- A fused product of finite values is ±(a·b) + c, rounded once (R177). -/
theorem fFma_fin (f : Fmt) (mode : Nat) (negate : Bool) {a b c : Sys2Proof.Num} (ha : isFin a = true) (hb : isFin b = true) (hc : isFin c = true) :
    ∃ z, isFin z = true ∧ numValue z = (if negate then -(numValue a * numValue b) else numValue a * numValue b) + numValue c ∧ fFma f mode negate a b c = convert f mode 0 false z := by
  obtain ⟨hp, hpv, hp0⟩ := exactMul_fin ha hb
  have hq : isFin (if negate then (exactMul a b).1.neg else (exactMul a b).1) = true
      ∧ numValue (if negate then (exactMul a b).1.neg else (exactMul a b).1) = if negate then -(numValue a * numValue b) else numValue a * numValue b := by
    cases negate
    · exact ⟨hp, hpv⟩
    · exact (neg_fin hp).imp_right fun h => h.trans (by rw [hpv]; rfl)
  obtain ⟨hz, hv, h0⟩ := exactSum_pair mode hq.1 hc
  refine ⟨_, hz, by rw [hv, hq.2], ?_⟩
  unfold fFma
  rw [firstNan_fin (List.forall_mem_cons.2 ⟨ha, fin_pair hb hc⟩)]
  simp only [hp0, ne_eq, not_true_eq_false, if_false]
  exact deliver_fin f mode (List.forall_mem_nil _) h0

/-! Order. -/

/-- The order of finite values, zeros of opposite signs aside. -/
theorem lt_fin {a b : Sys2Proof.Num} (ha : isFin a = true) (hb : isFin b = true) : (a.lt b = true → numValue a ≤ numValue b) ∧ (a.lt b = false → numValue b ≤ numValue a) := by
  obtain ⟨n, m, e, rfl⟩ := exists_fin_of_isFin ha
  obtain ⟨k, l, g, rfl⟩ := exists_fin_of_isFin hb
  have hpos : (0 : ℚ) < 2 ^ min e g := zpow_pos two_pos _
  rw [← scaled_value n m (min_le_left e g), ← scaled_value k l (min_le_right e g), mul_le_mul_iff_left₀ hpos, mul_le_mul_iff_left₀ hpos, Int.cast_le, Int.cast_le]
  simp only [Num.lt, Bool.or_eq_true, Bool.or_eq_false_iff, decide_eq_true_eq, decide_eq_false_iff_not, Bool.and_eq_true, beq_iff_eq]
  exact ⟨fun h => h.elim le_of_lt fun h => h.1.1.1.le, fun h => not_lt.1 h.1⟩

/-- A finite value against one of a significand that is not 0 is ordered by value. -/
theorem lt_fin_iff {a : Sys2Proof.Num} (ha : isFin a = true) (h0 : numValue a ≠ 0) {b : Sys2Proof.Num} (hb : isFin b = true) : a.lt b = true ↔ numValue a < numValue b := by
  obtain ⟨n, m, e, rfl⟩ := exists_fin_of_isFin ha
  obtain ⟨k, l, g, rfl⟩ := exists_fin_of_isFin hb
  have hm : m ≠ 0 := fun h => h0 (numValue_eq_zero.2 h)
  have hpos : (0 : ℚ) < 2 ^ min e g := zpow_pos two_pos _
  rw [← scaled_value n m (min_le_left e g), ← scaled_value k l (min_le_right e g), mul_lt_mul_iff_left₀ hpos, Int.cast_lt]
  simp [Num.lt, hm]

section

variable {f : Fmt} {K Q : Nat}

/-- A finite operand is its own conversion to its format. -/
theorem pat_decode (hf : TopAt f K Q) {x : Nat} (hx : isFin (f.decode x) = true) : numValue (f.decode (pat f (f.decode x))) = numValue (f.decode x) := by
  obtain ⟨m, e, hd, hm, he⟩ := finite_operand hf hx
  have hle := hf.abs_le hx
  rw [hd] at hle ⊢
  exact (convert_exact hf hm he hle).2.1

/-- A minimum or maximum of finite operands is that of their values (R179). -/
theorem fMinMax_value (hf : TopAt f K Q) {x y : Nat} (hx : isFin (f.decode x) = true) (hy : isFin (f.decode y) = true) (isMax : Bool) :
    numValue (f.decode (fMinMax f isMax (f.decode x) (f.decode y)).1)
      = if isMax then max (numValue (f.decode x)) (numValue (f.decode y)) else min (numValue (f.decode x)) (numValue (f.decode y)) := by
  have hxy := lt_fin hx hy
  have hyx := lt_fin hy hx
  unfold fMinMax
  rw [firstNan_fin (fin_pair hx hy)]
  cases isMax
  · simp only [Bool.false_eq_true, if_false]
    cases h : (f.decode y).lt (f.decode x)
    · rw [if_neg Bool.false_ne_true, pat_decode hf hx, min_eq_left (hyx.2 h)]
    · rw [if_pos rfl, pat_decode hf hy, min_eq_right (hyx.1 h)]
  · simp only [if_true]
    cases h : (f.decode x).lt (f.decode y)
    · rw [if_neg Bool.false_ne_true, pat_decode hf hx, max_eq_left (hxy.2 h)]
    · rw [if_pos rfl, pat_decode hf hy, max_eq_right (hxy.1 h)]

end

end Sys2Proof.Machine
end

section
/-! SUPPORT. Lanes: numbers put together from lanes, groups of vector registers, and how an instruction of pages 5 to 7 ends that delivers lanes with their flags
(R45, R46, R161, R162, R382). -/

set_option Elab.async false

namespace Sys2Proof.Machine

open Sys2Proof

/-! Numbers in lanes. -/

theorem lane_lt (x w k : Nat) : lane x w k < 2 ^ w := fld_lt _ _ _

theorem lane_zero (x w : Nat) : lane x w 0 = x % 2 ^ w := by rw [lane, fld, Nat.mul_zero, Nat.pow_zero, Nat.div_one]

theorem lane_succ (x w k : Nat) : lane x w (k + 1) = lane (x / 2 ^ w) w k := by
  rw [lane, lane, fld, fld, Nat.div_div_eq_div_mul, ← Nat.pow_add, Nat.mul_succ, Nat.add_comm]

/-- Lane k of a number put together from lanes. -/
theorem lane_pack {w n k : Nat} (hk : k < n) (f : Nat → Nat) : lane (pack w n f) w k = f k % 2 ^ w := by
  induction n generalizing k f with
  | zero => omega
  | succ n ih =>
    rw [pack_succ]
    cases k with
    | zero => rw [lane_zero, Nat.add_mul_mod_self_left, Nat.mod_mod]
    | succ k =>
      rw [lane_succ, Nat.add_mul_div_left _ _ (Nat.two_pow_pos w), Nat.div_eq_of_lt (Nat.mod_lt _ (Nat.two_pow_pos w)), Nat.zero_add]
      exact ih (by omega) _

/-- A lane within the bits that a register keeps. -/
theorem lane_mod {x w k N : Nat} (h : w * (k + 1) ≤ N) : lane (x % 2 ^ N) w k = lane x w k := by
  obtain ⟨j, rfl⟩ := Nat.exists_eq_add_of_le h
  rw [lane, lane, fld, fld, Nat.mul_succ, Nat.add_assoc, Nat.pow_add, Nat.mod_mul_right_div_self, Nat.mod_mod_of_dvd _ (pow_dvd_pow 2 (Nat.le_add_right _ _))]

/-! The flags of the active lanes (R45). -/

theorem laneFlags_succ (c : Ctx) (o : Ops) (n : Nat) (f : Nat → Nat) :
    laneFlags c o (n + 1) f = laneFlags c o n f ||| (if laneOn c o n then f n else 0) := by
  rw [laneFlags, List.range_succ, List.foldl_append]
  simp only [List.foldl_cons, List.foldl_nil]
  split
  · rfl
  · rw [Nat.or_zero]
    rfl

@[simp] theorem laneFlags_zero (c : Ctx) (o : Ops) (n : Nat) : laneFlags c o n (fun _ => 0) = 0 := by
  induction n with
  | zero => rfl
  | succ n ih => rw [laneFlags_succ, ih, ite_self, Nat.or_zero]

/-- `runLanes` as lanes put together and flags ORed. -/
theorem runLanes_eq (c : Ctx) (o : Ops) (w n old : Nat) (f : Nat → Nat × Nat) :
    runLanes c o w n old f = (pack w n (fun k => if laneOn c o k then (f k).1 else lane old w k), laneFlags c o n (fun k => (f k).2)) := by
  have fold : ∀ (l : List Nat) (a : Nat × Nat), l.foldr (fun k a => let r := if laneOn c o k then f k else (lane old w k, 0); (r.1 % 2 ^ w + 2 ^ w * a.1, r.2 ||| a.2)) a
      = (l.foldr (fun k acc => (if laneOn c o k then (f k).1 else lane old w k) % 2 ^ w + 2 ^ w * acc) a.1, l.foldl (fun a k => if laneOn c o k then a ||| (f k).2 else a) 0 ||| a.2) := by
    intro l
    induction l using List.reverseRecOn with
    | nil => exact fun a => by simp
    | append_singleton l k ih =>
      intro a
      simp only [List.foldr_append, List.foldl_append, List.foldr_cons, List.foldr_nil, List.foldl_cons, List.foldl_nil]
      rw [ih]
      by_cases hk : laneOn c o k = true
      · simp only [hk, if_true, Nat.or_assoc]
      · simp only [hk, if_false, Bool.false_eq_true, Nat.zero_or]
  exact (fold _ _).trans (by simp [pack, laneFlags])

/-! Groups of vector registers (R161). -/

namespace Ctx

variable (c : Ctx)

theorem getVs_one (n : Nat) : c.getVs n 1 = (c.getV n).toNat := by rw [getVs, getVs, Nat.mul_zero, Nat.add_zero]

theorem setVs_one (n x : Nat) : c.setVs n 1 x = c.setV n (BitVec.ofNat 1024 x) := rfl

theorem setVs_eq (n w x : Nat) : c.setVs n w x = { c with v := (c.setVs n w x).v } := by
  induction w generalizing c n x with
  | zero => rfl
  | succ w ih => exact ih (c.setV n (BitVec.ofNat 1024 x)) (n + 1) (x / 2 ^ 1024)

theorem getV_setVs_outside {n w m : Nat} (h : m < n ∨ n + w ≤ m) (x : Nat) : (c.setVs n w x).getV m = c.getV m := by
  induction w generalizing c n x with
  | zero => rfl
  | succ w ih =>
    refine (ih (c.setV n (BitVec.ofNat 1024 x)) (by omega) _).trans ?_
    exact c.getV_setV_other (by omega) _

theorem getVs_congr {c d : Ctx} {n w : Nat} (h : ∀ m, n ≤ m → m < n + w → d.getV m = c.getV m) : d.getVs n w = c.getVs n w := by
  induction w generalizing n with
  | zero => rfl
  | succ w ih => rw [getVs, getVs, h n le_rfl (by omega), ih fun m h1 h2 => h m (by omega) (by omega)]

/-- A group of vector registers after a write of it. -/
theorem getVs_setVs {n w : Nat} (h : n + w ≤ 64) (x : Nat) : (c.setVs n w x).getVs n w = x % 2 ^ (1024 * w) := by
  induction w generalizing c n x with
  | zero => rw [Nat.mul_zero, Nat.pow_zero, Nat.mod_one, getVs]
  | succ w ih =>
    have h0 : ((c.setV n (BitVec.ofNat 1024 x)).setVs (n + 1) w (x / 2 ^ 1024)).getV n = BitVec.ofNat 1024 x :=
      (getV_setVs_outside _ (.inl (Nat.lt_succ_self n)) _).trans (c.getV_setV_same (by omega) _)
    rw [setVs, getVs, h0, ih _ (by omega), BitVec.toNat_ofNat, Nat.mul_succ, Nat.add_comm (1024 * w), Nat.pow_add, Nat.mod_mul]

theorem getV_of_v {c d : Ctx} (h : d.v = c.v) (m : Nat) : d.getV m = c.getV m := by rw [getV, getV, h]

theorem getVs_of_v {c d : Ctx} (h : d.v = c.v) (n w : Nat) : d.getVs n w = c.getVs n w := getVs_congr fun m _ _ => getV_of_v h m

end Ctx

/-- Lanes that an instruction delivers to a group of registers, with their flags. -/
theorem lanesWritten_setVs {c : Ctx} {o : Ops} {w b n : Nat} (hd : o.dNum + w ≤ 64) (hb : b * n = 1024 * w) (g : Nat → Nat × Nat) :
    lanesWritten c ((c.setVs o.dNum w (runLanes c o b n (c.getVs o.dNum w) g).1).addFlags (laneFlags c o n fun k => (g k).2)) o w b n (laneFlags c o n fun k => (g k).2) fun k => (g k).1 := by
  refine ⟨fun k hk => ?_, fun m hm => ?_, ?_⟩
  · have hv : (b * (k + 1)) ≤ 1024 * w := hb ▸ Nat.mul_le_mul_left b hk
    rw [Ctx.getVs_of_v (d := Ctx.addFlags _ _) (c := c.setVs _ _ _) rfl, c.getVs_setVs hd, lane_mod hv, runLanes_eq, lane_pack hk]
    split
    · rfl
    · exact Nat.mod_eq_of_lt (lane_lt _ _ _)
  · exact (Ctx.getV_of_v (d := Ctx.addFlags _ _) (c := c.setVs _ _ _) rfl m).trans (c.getV_setVs_outside hm _)
  · rw [c.setVs_eq]
    rfl

/-- The same for one register. -/
theorem lanesWritten_setV {c : Ctx} {o : Ops} {b n : Nat} (hb : b * n = 1024) (g : Nat → Nat × Nat) :
    lanesWritten c ((c.setV o.dNum (BitVec.ofNat 1024 (runLanes c o b n (c.getV o.dNum).toNat g).1)).addFlags (laneFlags c o n fun k => (g k).2)) o 1 b n
      (laneFlags c o n fun k => (g k).2) fun k => (g k).1 := by
  have := lanesWritten_setVs (c := c) (o := o) (w := 1) (Ops.dNum_lt o) hb g
  rwa [c.getVs_one, c.setVs_one] at this

/-! How an instruction ends that raises flags (R46). -/

variable {i : Instr} {o : Ops} {masks : Nat} {touch : List Nat} {s : State}

theorem Ctx.traps_zero (c : Ctx) : c.traps 0 = false := by simp [Ctx.traps]

theorem Ctx.addFlags_zero (c : Ctx) : c.addFlags 0 = c := by simp [Ctx.addFlags]

/-- A register-only instruction under a mask that completes. -/
theorem lanewise_retires (hm : Instr.marker i = o.s) (h : s.canIssueV o masks touch) {f : Ctx → CtxEff} {d : Ctx} (hf : f s.cx = .done d) :
    lanewise i o masks touch f s = retired i (s.setCx d) := by
  rw [lanewise_done h hf, retired, hm, State.cx_setCx]

/-- A register-only instruction under a mask: FPX with nothing written, or the result with its flags. -/
theorem lanewise_flagged (hm : Instr.marker i = o.s) (h : s.canIssueV o masks touch) {f : Ctx → CtxEff} {fl : Nat} {d : Ctx} (hf : f s.cx = flagged s.cx fl d) :
    (s.cx.traps fl = true → lanewise i o masks touch f s = .next (s.raise { cause := 12, xinfo := BitVec.ofNat 64 fl }))
      ∧ (s.cx.traps fl = false → lanewise i o masks touch f s = retired i (s.setCx (d.addFlags fl))) := by
  refine ⟨fun ht => ?_, fun ht => lanewise_retires hm h (hf.trans (by rw [flagged, ht]; rfl))⟩
  rw [lanewise_run h, onCtx, hf, flagged, ht]
  rfl

/-- A row pays a token out of a balance that holds one, and none out of an empty one (R382). -/
theorem State.charge_one (hb : 1 ≤ (s.row (s.coreNo / 8)).balance) : s.charge s.coreNo 1 = some s.paid := by
  have h1 : min 1 (s.row (s.coreNo / 8)).balance = 1 := min_eq_left hb
  unfold State.charge State.paid
  dsimp only
  rw [if_neg (by omega), if_neg one_ne_zero, h1]

theorem State.charge_none (hb : (s.row (s.coreNo / 8)).balance = 0) : s.charge s.coreNo 1 = none := by
  unfold State.charge
  dsimp only
  rw [if_pos (by omega)]

@[simp] theorem State.cx_paid (s : State) : s.paid.cx = s.cx := rfl

theorem tokenwise_stall (h : s.canIssueV o masks touch) (hb : (s.row (s.coreNo / 8)).balance = 0) (body : State → Eff) :
    tokenwise i o masks touch body s = .next { s with stall := true } := by
  rw [tokenwise, issueV_run h, State.charge_none hb]
  rfl

theorem tokenwise_run (h : s.canIssueV o masks touch) (hb : 1 ≤ (s.row (s.coreNo / 8)).balance) (body : State → Eff) :
    tokenwise i o masks touch body s = finishWith i o s (body s.paid) := by
  rw [tokenwise, issueV_run h, State.charge_one hb]

/-- An instruction of page 5 that has its token: FPX with nothing written, the token included, or the result with its flags. -/
theorem floatwise_flagged (hm : Instr.marker i = o.s) (h : s.canIssueV o masks touch) (hb : 1 ≤ (s.row (s.coreNo / 8)).balance) {f : Ctx → CtxEff} {fl : Nat} {d : Ctx}
    (hf : f s.cx = flagged s.cx fl d) :
    (s.cx.traps fl = true → floatwise i o masks touch f s = .next (s.raise { cause := 12, xinfo := BitVec.ofNat 64 fl }))
      ∧ (s.cx.traps fl = false → floatwise i o masks touch f s = retired i (s.paid.setCx (d.addFlags fl))) := by
  rw [floatwise, tokenwise_run h hb, onCtx, s.cx_paid, hf, flagged]
  refine ⟨fun ht => ?_, fun ht => ?_⟩
  · rw [if_pos ht]
    rfl
  · rw [if_neg (by simp [ht]), finishWith_done, retired, hm]

end Sys2Proof.Machine
end

section
/-! SUPPORT. The lanewise integer instructions (R43, R184). -/

set_option Elab.async false

namespace Sys2Proof.Machine

open Sys2Proof

variable {i : Instr} {o : Ops} {masks : Nat} {touch : List Nat} {s : State}

/-- A lanewise instruction that writes a group of registers: FPX with nothing written, or the lanes with their flags. -/
theorem lanewise_group (hm : Instr.marker i = o.s) {f : Ctx → CtxEff} (he : exec i s = lanewise i o masks touch f s) (h : s.canIssueV o masks touch) {w b n : Nat} (hd : o.dNum + w ≤ 64)
    (hb : b * n = 1024 * w) (g : Nat → Nat × Nat)
    (hf : f s.cx = flagged s.cx (runLanes s.cx o b n (s.cx.getVs o.dNum w) g).2 (s.cx.setVs o.dNum w (runLanes s.cx o b n (s.cx.getVs o.dNum w) g).1)) :
    let fl := laneFlags s.cx o n fun k => (g k).2
    trapsOr i s fl (∃ d, exec i s = retired i (s.setCx d) ∧ lanesWritten s.cx d o w b n fl fun k => (g k).1) := by
  intro fl
  have hfl : (runLanes s.cx o b n (s.cx.getVs o.dNum w) g).2 = fl := congrArg Prod.snd (runLanes_eq _ _ _ _ _ _)
  rw [hfl] at hf
  obtain ⟨htrap, hdone⟩ := lanewise_flagged hm h hf
  rw [trapsOr, he]
  exact ⟨htrap, fun ht => ⟨_, hdone ht, lanesWritten_setVs hd hb g⟩⟩

/-- The same for one register. -/
theorem lanewise_single (hm : Instr.marker i = o.s) {f : Ctx → CtxEff} (he : exec i s = lanewise i o masks touch f s) (h : s.canIssueV o masks touch) {b n : Nat} (hb : b * n = 1024)
    (g : Nat → Nat × Nat)
    (hf : f s.cx = flagged s.cx (runLanes s.cx o b n (s.cx.getV o.dNum).toNat g).2 (s.cx.setV o.dNum (BitVec.ofNat 1024 (runLanes s.cx o b n (s.cx.getV o.dNum).toNat g).1))) :
    let fl := laneFlags s.cx o n fun k => (g k).2
    trapsOr i s fl (∃ d, exec i s = retired i (s.setCx d) ∧ lanesWritten s.cx d o 1 b n fl fun k => (g k).1) :=
  lanewise_group hm he h (Ops.dNum_lt o) (hb.trans (Nat.mul_one _).symm) g (by rw [hf, s.cx.getVs_one, s.cx.setVs_one])

/-- The same for one register of an instruction of page 5, which pays its token. -/
theorem floatwise_single (hm : Instr.marker i = o.s) {f : Ctx → CtxEff} (he : exec i s = floatwise i o masks touch f s) (h : s.canIssueV o masks touch)
    (hbal : 1 ≤ (s.row (s.coreNo / 8)).balance) {b n : Nat} (hb : b * n = 1024) (g : Nat → Nat × Nat)
    (hf : f s.cx = flagged s.cx (runLanes s.cx o b n (s.cx.getV o.dNum).toNat g).2 (s.cx.setV o.dNum (BitVec.ofNat 1024 (runLanes s.cx o b n (s.cx.getV o.dNum).toNat g).1))) :
    let fl := laneFlags s.cx o n fun k => (g k).2
    trapsOr i s fl (∃ d, exec i s = retired i (s.paid.setCx d) ∧ lanesWritten s.cx d o 1 b n fl fun k => (g k).1) := by
  intro fl
  have hfl : (runLanes s.cx o b n (s.cx.getV o.dNum).toNat g).2 = fl := congrArg Prod.snd (runLanes_eq _ _ _ _ _ _)
  rw [hfl] at hf
  obtain ⟨htrap, hdone⟩ := floatwise_flagged hm h hbal hf
  rw [trapsOr, he]
  exact ⟨htrap, fun ht => ⟨_, hdone ht, lanesWritten_setV hb g⟩⟩

/-! Integer types (R98). -/

theorem viBits_cases (o : Ops) : viBits o = 8 ∨ viBits o = 16 ∨ viBits o = 32 ∨ viBits o = 64 := by
  unfold viBits intBits
  split <;> simp

theorem viBits_mul_viLanes (o : Ops) : viBits o * viLanes o = 1024 * viRegs o := by
  unfold viLanes viRegs
  rcases viBits_cases o with h | h | h | h <;> rw [h] <;> decide

/-- The wrap or clamp of R43, as `clamped` says it. -/
theorem intResult_eq (sat signed : Bool) (w : Nat) (x : Int) :
    intResult sat w signed x = ((clamped sat signed w x).1, if (clamped sat signed w x).2 then SAT else 0) := by
  unfold intResult clamped
  extract_lets lo hi
  have hle : lo ≤ hi := by
    have h1 := Nat.two_pow_pos (w - 1)
    have h2 := Nat.two_pow_pos w
    simp only [lo, hi]
    split <;> omega
  cases sat
  · simp
  · by_cases hlo : x < lo
    · simp [hlo, min_eq_right (hlo.le.trans hle), max_eq_left hlo.le]
    · by_cases hhi : hi < x
      · simp [hlo, hhi, min_eq_left hhi.le, max_eq_right hle]
      · simp [hlo, hhi]

/-! The instructions of R184. -/

theorem viResult_group {i : Instr} (hm : Instr.marker i = o.s) {g : Ctx → Nat → Nat × Nat}
    (he : exec i s = lanewise i o (viMaskRegs o) touch (fun c => viResult o c (g c)) s) (h : s.canIssueV o (viMaskRegs o) touch) (hd : o.dNum + viRegs o ≤ 64) :
    let fl := laneFlags s.cx o (viLanes o) fun k => (g s.cx k).2
    trapsOr i s fl (∃ d, exec i s = retired i (s.setCx d) ∧ lanesWritten s.cx d o (viRegs o) (viBits o) (viLanes o) fl fun k => (g s.cx k).1) :=
  lanewise_group hm he h hd (viBits_mul_viLanes o) (g s.cx) rfl

/-- How a lanewise integer instruction ends whose lanes have the results `f`, clamped or not: as the claim of R184 says. -/
theorem intLanes_end {i : Instr} (hm : Instr.marker i = o.s) {g : Ctx → Nat → Nat × Nat}
    (he : exec i s = lanewise i o (viMaskRegs o) touch (fun c => viResult o c (g c)) s) (h : s.canIssueV o (viMaskRegs o) touch) (hd : o.dNum + viRegs o ≤ 64) {f : Nat → Nat × Bool}
    (hg : ∀ k, g s.cx k = ((f k).1, if (f k).2 then SAT else 0)) :
    let fl := laneFlags s.cx o (viLanes o) fun k => if (f k).2 then SAT else 0
    trapsOr i s fl (∃ d, exec i s = retired i (s.setCx d) ∧ lanesWritten s.cx d o (viRegs o) (viBits o) (viLanes o) fl fun k => (f k).1) := by
  have := viResult_group hm he h hd
  simpa only [hg] using this

theorem exec_intTable {mk : Ops → Instr} {g : Ops → Int → Int → Int} (h : (mk, g) ∈ intTable) (o : Ops) (s : State) :
    exec (mk o) s = viBin (mk o) o (viArith o (g o)) s ∧ Instr.marker (mk o) = o.s := by
  simp only [intTable, List.mem_cons, Prod.mk.injEq, List.not_mem_nil, or_false] at h
  rcases h with ⟨rfl, rfl⟩ | ⟨rfl, rfl⟩ | ⟨rfl, rfl⟩ | ⟨rfl, rfl⟩ | ⟨rfl, rfl⟩ | ⟨rfl, rfl⟩ <;> exact ⟨rfl, rfl⟩

/-- A shift right of a pattern by a count past its width leaves 0. -/
theorem shift_past {x w : Nat} (hx : x < 2 ^ w) (y : Nat) : x / 2 ^ min y w = if y < w then x / 2 ^ y else 0 := by
  split
  · rw [min_eq_left (by omega)]
  · rw [min_eq_right (by omega), Nat.div_eq_of_lt hx]

theorem exec_bitTable {mk : Ops → Instr} {g : Nat → Nat → Nat → Nat} (h : (mk, g) ∈ bitTable) (o : Ops) (s : State) :
    ∃ g' : Nat → Nat → Nat × Nat, exec (mk o) s = viBin (mk o) o g' s ∧ Instr.marker (mk o) = o.s ∧ ∀ x y, x < 2 ^ viBits o → g' x y = (g (viBits o) x y, 0) := by
  simp only [bitTable, List.mem_cons, Prod.mk.injEq, List.not_mem_nil, or_false] at h
  rcases h with ⟨rfl, rfl⟩ | ⟨rfl, rfl⟩ | ⟨rfl, rfl⟩ | ⟨rfl, rfl⟩ | ⟨rfl, rfl⟩
  · exact ⟨fun x y => (x &&& y, 0), rfl, rfl, fun _ _ _ => rfl⟩
  · exact ⟨fun x y => (x ||| y, 0), rfl, rfl, fun _ _ _ => rfl⟩
  · exact ⟨fun x y => (x ^^^ y, 0), rfl, rfl, fun _ _ _ => rfl⟩
  · exact ⟨fun x y => (x / 2 ^ min y (viBits o), 0), rfl, rfl, fun x y hx => Prod.ext (shift_past hx y) rfl⟩
  · exact ⟨fun x y => (wrap (sgn x (viBits o) / (2 ^ min y (viBits o) : Nat)) (viBits o), 0), rfl, rfl, fun _ _ _ => rfl⟩

end Sys2Proof.Machine
end

section
open Sys2Proof Sys2Proof.Machine

/-- Settles O42: each instruction runs `viResult` over its lanes, and `intResult` is the wrap or clamp of R43. -/
theorem integerLanes : Obligations.IntegerLanes := by
  unfold Obligations.IntegerLanes
  intro o s c w n ends hd
  refine ⟨fun h => ⟨fun mk g hg => ?_, fun mk g hg => ?_, ?_⟩, fun h => ?_, fun h => ?_⟩
  · obtain ⟨he, hm⟩ := exec_intTable hg o s
    exact intLanes_end hm he h hd fun k => intResult_eq _ _ _ _
  · obtain ⟨g', he, hm, hval⟩ := exec_bitTable hg o s
    exact intLanes_end hm he h hd fun k => hval _ _ (lane_lt _ _ _)
  · exact intLanes_end rfl rfl h hd fun k => intResult_eq _ _ _ _
  · refine intLanes_end rfl rfl h hd fun k => (intResult_eq _ _ _ _).trans ?_
    have habs : ∀ x : Int, (if x < 0 then -x else x) = |x| := fun x => by
      split
      · exact (abs_of_neg ‹_›).symm
      · exact (abs_of_nonneg (not_lt.1 ‹_›)).symm
    rw [habs]
  · exact intLanes_end rfl rfl h hd fun k => rfl

end

section
/-! SUPPORT. The lanewise conversions (R187, R188, R190). -/

set_option Elab.async false

namespace Sys2Proof.Machine

open Sys2Proof

theorem vfFmt_cases (o : Ops) : vfFmt o = .f32 ∨ vfFmt o = .bf16 ∨ vfFmt o = .f16 ∨ vfFmt o = .e4m3 ∨ vfFmt o = .e5m2 := by
  unfold vfFmt Fmt.ofTy
  split <;> simp

theorem bits_mul_vfLanes (o : Ops) : (vfFmt o).bits * vfLanes o = 1024 := by
  unfold vfLanes
  rcases vfFmt_cases o with h | h | h | h | h <;> rw [h] <;> decide

theorem wide_mul_vfLanes (o : Ops) : 32 * vfLanes o = 1024 * wideRegs o := by
  unfold vfLanes wideRegs
  rcases vfFmt_cases o with h | h | h | h | h <;> rw [h] <;> decide

theorem cvtSrc_eq (o : Ops) : cvtSrc o = (if o.hasImm then o.bNum else o.aNum, !o.hasImm) := by
  unfold cvtSrc
  cases o.hasImm <;> rfl

/-- The advance of a seed (R38). -/
theorem ofNat_seedNext (x : Nat) : BitVec.ofNat 32 (seedNext x) = BitVec.ofNat 32 (x + 0x85EBCA6B) := by
  apply BitVec.eq_of_toNat_eq
  rw [seedNext, BitVec.toNat_ofNat, BitVec.toNat_ofNat, Nat.mod_mod]

variable {o : Ops} {s : State}

/-- VCVTF: the lanes and, under `.rs`, the seed's advance (R38, R187). -/
theorem vcvtf_end (h : s.canIssueV o (vfMaskRegs o) (rv o.dNum :: grp rv o.aNum (wideRegs o))) :
    let g (k : Nat) := convert (vfFmt o) (vfMode o) (mix (s.cx.getSd o.bNum).toNat k) false (Fmt.f32.decode (lane (s.cx.getVs o.aNum (wideRegs o)) 32 k))
    let after (d : Ctx) : Ctx := if vfMode o = RS then d.setSd o.bNum (BitVec.ofNat 32 ((s.cx.getSd o.bNum).toNat + 0x85EBCA6B)) else d
    let fl := laneFlags s.cx o (vfLanes o) fun k => (g k).2
    trapsOr (.vcvtf o) s fl (∃ d, exec (.vcvtf o) s = retired (.vcvtf o) (s.setCx (after d)) ∧ lanesWritten s.cx d o 1 (vfFmt o).bits (vfLanes o) fl fun k => (g k).1) := by
  intro g after fl
  have hfl : (runLanes s.cx o (vfFmt o).bits (vfLanes o) (s.cx.getV o.dNum).toNat g).2 = fl := congrArg Prod.snd (runLanes_eq _ _ _ _ _ _)
  have hafter : ∀ d : Ctx, (if vfMode o = RS then d.setSd o.bNum (BitVec.ofNat 32 (seedNext (s.cx.getSd o.bNum).toNat)) else d).addFlags fl = after (d.addFlags fl) := fun d => by
    simp only [after, ofNat_seedNext]
    split <;> rfl
  have hbody := lanewise_flagged (i := .vcvtf o) rfl h (f := fun c =>
    let r := runLanes c o (vfFmt o).bits (vfLanes o) (c.getV o.dNum).toNat fun k => convert (vfFmt o) (vfMode o) (mix (c.getSd o.bNum).toNat k) false (Fmt.f32.decode (lane (c.getVs o.aNum (wideRegs o)) 32 k))
    let t := c.setV o.dNum (BitVec.ofNat 1024 r.1)
    flagged c r.2 (if vfMode o = RS then t.setSd o.bNum (BitVec.ofNat 32 (seedNext (c.getSd o.bNum).toNat)) else t)) (fl := fl) (by dsimp only; rw [← hfl])
  rw [hafter] at hbody
  exact ⟨hbody.1, fun ht => ⟨_, hbody.2 ht, lanesWritten_setV (bits_mul_vfLanes o) g⟩⟩

/-- A conversion between 32 integers and 32 FP32 values (R188). -/
theorem cvtOp_end {i : Instr} {g : Nat → Nat × Nat} (hm : Instr.marker i = o.s) (he : exec i s = cvtOp i o g s) (h : s.canIssueV o 1 [rv o.dNum, rv (if o.hasImm then o.bNum else o.aNum)]) :
    let src (k : Nat) := lane (s.cx.getV (if o.hasImm then o.bNum else o.aNum)).toNat 32 k
    let fl := laneFlags s.cx o 32 fun k => (g (src k)).2
    trapsOr i s fl (∃ d, exec i s = retired i (s.setCx d) ∧ lanesWritten s.cx d o 1 32 32 fl fun k => (g (src k)).1) := by
  unfold cvtOp at he
  simp only [cvtSrc_eq] at he
  exact lanewise_single hm he h rfl (fun k => g (lane (s.cx.getV (if o.hasImm then o.bNum else o.aNum)).toNat 32 k)) rfl

end Sys2Proof.Machine
end

section
open Sys2Proof Sys2Proof.Machine

/-- Settles O45: `convert` rounds to the nearest value or to the neighbour of a directed mode (`convert_roundsTo`, `convert_directed`), and each instruction runs it over its lanes. -/
theorem laneConversions : Obligations.LaneConversions := by
  unfold Obligations.LaneConversions
  refine ⟨fun f hf neg m e => ?_, fun o s => ?_⟩
  · have htop := topAt_of_mem hf
    exact ⟨convert_roundsTo htop neg m e, fun hle mode hmode => convert_directed htop neg m e hle hmode⟩
  · refine ⟨vcvtf_end, fun h hd => ?_, fun h => ⟨?_, ?_⟩, fun w hw h => ?_, fun h => ?_⟩
    · exact lanewise_group rfl rfl h hd (wide_mul_vfLanes o) _ rfl
    · have := cvtOp_end (i := .vcvti o) (g := fun x => convert .f32 (vfMode o) 0 false (Num.ofInt (if (cvtSrc o).2 then sgn x 32 else x))) rfl rfl h
      simp only [cvtSrc_eq] at this
      have hsrc : ∀ x : Nat, (if (!o.hasImm) = true then sgn x 32 else (x : Int)) = if o.hasImm = true then (x : Int) else sgn x 32 := fun x => by cases o.hasImm <;> rfl
      simp only [hsrc] at this
      exact this
    · have := cvtOp_end (i := .vcvtfi o) (g := fun x => let r := toInteger (vfMode o) 32 (cvtSrc o).2 (Fmt.f32.decode x); (wrap r.1 32, r.2)) rfl rfl h
      simp only [cvtSrc_eq] at this
      exact this
    · subst hw
      have hb : ∀ w, w = 8 ∨ w = 16 → w * (1024 / w) = 1024 := by rintro w (rfl | rfl) <;> rfl
      have := lanewise_single (i := .vpack o) rfl rfl h (hb (if o.imm ≤ 1 then 8 else 16) (by split <;> simp)) (fun k =>
        intResult true (if o.imm ≤ 1 then 8 else 16) (o.imm % 2 == 0) (sgn (lane (s.cx.getVs o.bNum (32 / (if o.imm ≤ 1 then 8 else 16))) 32 k) 32)) rfl
      simp only [intResult_eq] at this
      exact this
    · exact lanewise_single rfl rfl h rfl _ rfl

end

section
/-! SUPPORT. Reductions and dot products (R41, R178, R182, R186). -/

set_option Elab.async false

namespace Sys2Proof.Machine

open Sys2Proof

/-! NaN operands and flags. -/

theorem isNan_of_signals {x : Sys2Proof.Num} (h : signals x = true) : x.isNan = true := by
  cases x with
  | nan => rfl
  | inf => cases h
  | fin => cases h

/-- The flag of the NaN rule (R39): NV when an operand is a signalling NaN. -/
theorem firstNan_flag (xs : List Sys2Proof.Num) : (firstNan xs).elim 0 (fun e => e.2) = if xs.any signals then NV else 0 := by
  have hany : xs.any signals = (xs.filter Num.isNan).any signals := by
    rw [List.any_filter]
    congr 1
    funext x
    cases hx : signals x
    · rw [Bool.and_false]
    · rw [isNan_of_signals hx]
      rfl
  have hsig : (fun x => match x with | .nan _ _ s => s | _ => false) = signals := by
    funext x
    cases x <;> rfl
  unfold firstNan
  dsimp only
  rw [hany]
  cases hl : xs.filter Num.isNan with
  | nil => rfl
  | cons x l =>
    have hx : x.isNan = true := (List.mem_filter.1 (hl ▸ List.mem_cons_self : x ∈ xs.filter Num.isNan)).2
    cases x with
    | nan n p sg => rfl
    | inf => cases hx
    | fin => cases hx

/-- One flag over the active lanes. -/
theorem laneFlags_any (c : Ctx) (o : Ops) (n fl : Nat) (p : Nat → Bool) :
    laneFlags c o n (fun k => if p k then fl else 0) = if ((List.range n).filter (laneOn c o)).any p then fl else 0 := by
  induction n with
  | zero => rfl
  | succ n ih =>
    rw [laneFlags_succ, ih, List.range_succ, List.filter_append, List.any_append]
    cases ((List.range n).filter (laneOn c o)).any p <;> cases hl : laneOn c o n <;> cases hp : p n <;> simp [hl, hp]

/-- Flags ORed over the lanes of a list of results, those of inactive lanes being 0. -/
theorem foldl_flags {c : Ctx} {o : Ops} {n : Nat} {g : Nat → Nat × Nat} (h : ∀ k, laneOn c o k = false → (g k).2 = 0) (a : Nat) :
    ((List.range n).map g).foldl (fun a x => a ||| x.2) a = a ||| laneFlags c o n (fun k => (g k).2) := by
  induction n with
  | zero => exact (Nat.or_zero a).symm
  | succ n ih =>
    rw [List.range_succ, List.map_append, List.foldl_append, ih, laneFlags_succ, ← Nat.or_assoc]
    cases hl : laneOn c o n
    · simp [h n hl]
    · simp

/-! VRED without `.sat`. -/

/-- The sum of two patterns modulo 2^w, without a flag. -/
def wrapAdd (w a b : Nat) : Nat × Nat := ((a + b) % 2 ^ w, 0)

/-- A level of a tree of sums modulo 2^w keeps the sum modulo 2^w. -/
theorem treeLevel_mod (w : Nat) : ∀ l : List Nat, (treeLevel (wrapAdd w) l).1.sum % 2 ^ w = l.sum % 2 ^ w ∧ (treeLevel (wrapAdd w) l).2 = 0
  | [] => ⟨rfl, rfl⟩
  | [_] => ⟨rfl, rfl⟩
  | a :: b :: r => by
    obtain ⟨h1, h2⟩ := treeLevel_mod w r
    refine ⟨?_, by simp [treeLevel, h2, wrapAdd]⟩
    simp only [treeLevel, wrapAdd, List.sum_cons]
    rw [Nat.add_mod, h1, Nat.mod_mod, ← Nat.add_mod, Nat.add_assoc]

theorem treeLevel_length (f : Nat → Nat → Nat × Nat) : ∀ l : List Nat, (treeLevel f l).1.length = (l.length + 1) / 2
  | [] => rfl
  | [_] => by simp [treeLevel]
  | a :: b :: r => by
    simp only [treeLevel, List.length_cons, treeLevel_length f r]
    omega

/-- A tree over 2^n values of sums modulo 2^w gives their sum modulo 2^w (R186). -/
theorem treeSum_mod (w n : Nat) (l : List Nat) (h : l.length = 2 ^ n) :
    (treeSum (wrapAdd w) n l).1 % 2 ^ w = l.sum % 2 ^ w ∧ (treeSum (wrapAdd w) n l).2 = 0 := by
  induction n generalizing l with
  | zero =>
    obtain ⟨x, rfl⟩ := List.length_eq_one_iff.1 h
    exact ⟨by simp [treeSum], rfl⟩
  | succ n ih =>
    obtain ⟨h1, h2⟩ := treeLevel_mod w l
    obtain ⟨h3, h4⟩ := ih (treeLevel (wrapAdd w) l).1 (by rw [treeLevel_length, h, Nat.pow_succ]; omega)
    exact ⟨h3.trans h1, by simp [treeSum, h2, h4]⟩

theorem sgn_emod (x w : Nat) : sgn x w % ((2 ^ w : Nat) : Int) = (x % 2 ^ w : Nat) := by
  unfold sgn
  dsimp only
  split
  · subst w
    simp [Nat.mod_one]
  · split
    · push_cast
      rw [Int.emod_emod_of_dvd _ (dvd_refl _)]
    · rw [Int.sub_emod_right]
      push_cast
      rw [Int.emod_emod_of_dvd _ (dvd_refl _)]

theorem intVal_emod (ty x : Nat) : intVal ty x % ((2 ^ intBits ty : Nat) : Int) = (x % 2 ^ intBits ty : Nat) := by
  unfold intVal
  split
  · exact sgn_emod _ _
  · push_cast
    rfl

/-- A wrapping sum of two patterns. -/
theorem viArith_wrap {o : Ops} (h : viSat o = false) : viArith o (fun x y => x + y) = wrapAdd (viBits o) := by
  funext a b
  have hsum : (intVal (viTy o) a + intVal (viTy o) b) % ((2 ^ viBits o : Nat) : Int) = ((a + b) % 2 ^ viBits o : Nat) := by
    rw [Int.add_emod, show viBits o = intBits (viTy o) from rfl, intVal_emod, intVal_emod, Nat.add_mod]
    push_cast
    rfl
  simp only [wrapAdd, viArith, intResult, h, Bool.false_eq_true, false_and, if_false, wrap, hsum, Int.toNat_natCast]

theorem sext_mod (x w : Nat) : sext (x % 2 ^ w) w = sext x w := by simp [sext, sgn]

theorem zext_mod (x w : Nat) : zext (x % 2 ^ w) w = zext x w := by simp [zext]

theorem viLanes_pow (o : Ops) : viLanes o = 2 ^ Nat.log2 (viLanes o) := by
  have h : viLanes o = 128 ∨ viLanes o = 64 ∨ viLanes o = 32 := by
    unfold viLanes viRegs
    rcases viBits_cases o with h | h | h | h <;> rw [h] <;> decide
  rcases h with h | h | h <;> rw [h] <;> decide

/-! VFRMAX. -/

/-- A maximum so far, against the next lane. -/
def laterMax (b e : Nat × Sys2Proof.Num) : Nat × Sys2Proof.Num := if b.2.lt e.2 then e else b

/-- The first greatest value of a list without NaNs. -/
theorem fRedMax_first {pre post : List (Nat × Sys2Proof.Num)} {e : Nat × Sys2Proof.Num} (hn : ∀ x ∈ pre ++ e :: post, x.2.isNan = false) (hpre : ∀ x ∈ pre, x.2.lt e.2 = true)
    (hpost : ∀ x ∈ post, e.2.lt x.2 = false) : fRedMax (pre ++ e :: post) = (e.1, pat .f32 e.2) := by
  have stays : ∀ l : List (Nat × Sys2Proof.Num), (∀ x ∈ l, e.2.lt x.2 = false) → l.foldl laterMax e = e := fun l => by
    induction l with
    | nil => exact fun _ => rfl
    | cons x l ih =>
      intro h
      have hx : laterMax e x = e := if_neg (by rw [h x List.mem_cons_self]; simp)
      rw [List.foldl_cons, hx]
      exact ih fun y hy => h y (List.mem_cons_of_mem _ hy)
  have reaches : ∀ (l : List (Nat × Sys2Proof.Num)) (b : Nat × Sys2Proof.Num), b.2.lt e.2 = true → (∀ x ∈ l, x.2.lt e.2 = true) → (l.foldl laterMax b).2.lt e.2 = true := fun l => by
    induction l with
    | nil => exact fun _ hb _ => hb
    | cons x l ih =>
      intro b hb h
      refine ih _ ?_ fun y hy => h y (List.mem_cons_of_mem _ hy)
      unfold laterMax
      split
      · exact h x List.mem_cons_self
      · exact hb
  have hfind : (pre ++ e :: post).find? (fun x => x.2.isNan) = none := List.find?_eq_none.2 fun x hx => by rw [hn x hx]; simp
  unfold fRedMax
  rw [hfind]
  cases pre with
  | nil => exact congrArg (fun b => (b.1, pat .f32 b.2)) (stays post hpost)
  | cons x l =>
    have hl := reaches l x (hpre x List.mem_cons_self) fun y hy => hpre y (List.mem_cons_of_mem _ hy)
    have hfold : (l ++ e :: post).foldl laterMax x = e := by
      rw [List.foldl_append, List.foldl_cons, show laterMax (l.foldl laterMax x) e = e from if_pos hl]
      exact stays post hpost
    exact congrArg (fun b => (b.1, pat .f32 b.2)) hfold

/-- The first NaN of a list. -/
theorem fRedMax_nan {pre post : List (Nat × Sys2Proof.Num)} {e : Nat × Sys2Proof.Num} (hpre : ∀ x ∈ pre, x.2.isNan = false) (he : e.2.isNan = true) :
    fRedMax (pre ++ e :: post) = (e.1, pat .f32 e.2) := by
  have hfind : (pre ++ e :: post).find? (fun x => x.2.isNan) = some e := by
    rw [List.find?_append, List.find?_eq_none.2 fun x hx => by rw [hpre x hx]; simp, Option.none_or]
    exact List.find?_cons_of_pos he
  unfold fRedMax
  rw [hfind]

/-- The active lanes before and after one of them. -/
theorem onLanes_split (c : Ctx) (o : Ops) {n k : Nat} (hk : k < n) (hon : laneOn c o k = true) : ∃ pre post, (List.range n).filter (laneOn c o) = pre ++ k :: post
    ∧ (∀ j ∈ pre, j < k ∧ j < n ∧ laneOn c o j = true) ∧ ∀ j ∈ post, j < n ∧ laneOn c o j = true := by
  obtain ⟨pre, post, hl⟩ := List.append_of_mem (List.mem_filter.2 ⟨List.mem_range.2 hk, hon⟩ : k ∈ (List.range n).filter (laneOn c o))
  have hmem : ∀ j ∈ pre ++ k :: post, j < n ∧ laneOn c o j = true := fun j hj => by
    have := List.mem_filter.1 (hl ▸ hj)
    exact ⟨List.mem_range.1 this.1, this.2⟩
  have hsorted : (pre ++ k :: post).Pairwise (· < ·) := hl ▸ List.pairwise_lt_range.filter _
  have hlt := (List.pairwise_append.1 hsorted).2.2
  exact ⟨pre, post, hl, fun j hj => ⟨hlt j hj k List.mem_cons_self, hmem j (List.mem_append_left _ hj)⟩, fun j hj => hmem j (List.mem_append_right _ (List.mem_cons_of_mem _ hj))⟩

variable {o : Ops} {s : State}

/-- The active lanes of A, in order, with their numbers. -/
def maxLanes (o : Ops) (c : Ctx) : List (Nat × Sys2Proof.Num) := ((List.range (vfLanes o)).filter (laneOn c o)).map fun k => (k, fLane (vfFmt o) c o.aNum k)

theorem maxLanes_any (o : Ops) (c : Ctx) (p : Sys2Proof.Num → Bool) :
    ((maxLanes o c).map fun e => e.2).any p = ((List.range (vfLanes o)).filter (laneOn c o)).any fun k => p (fLane (vfFmt o) c o.aNum k) := by
  rw [maxLanes, List.map_map, List.any_map]
  rfl

/-- VFRMAX delivers the lane and the value that `fRedMax` finds (R182). -/
theorem vfrmax_end (h : s.canIssueV o (vfMaskRegs o) [rg o.dNum, rv o.aNum]) (hbal : 1 ≤ (s.row (s.coreNo / 8)).balance) {fl k x : Nat}
    (hfl : (if ((maxLanes o s.cx).map fun e => e.2).any signals then NV else 0) = fl) (hr : fRedMax (maxLanes o s.cx) = (k, x)) :
    trapsOr (.vfrmax o) s fl (exec (.vfrmax o) s = retired (.vfrmax o) (s.paid.setCx ((s.cx.setG o.dNum (BitVec.ofNat 64 (k * 2 ^ 32 + x))).addFlags fl))) := by
  refine floatwise_flagged (i := .vfrmax o) rfl h hbal (f := fun c =>
    flagged c ((firstNan ((maxLanes o c).map fun e => e.2)).elim 0 fun e => e.2) (c.setG o.dNum (BitVec.ofNat 64 ((fRedMax (maxLanes o c)).1 * 2 ^ 32 + (fRedMax (maxLanes o c)).2)))) ?_
  rw [firstNan_flag, hfl, hr]

/-- The same with the lane named, and the lanes before and after it. -/
theorem maxLanes_split (o : Ops) (c : Ctx) {k : Nat} (hk : k < vfLanes o ∧ laneOn c o k = true) : ∃ pre post, maxLanes o c = pre ++ (k, fLane (vfFmt o) c o.aNum k) :: post
    ∧ (∀ e ∈ pre, ∃ j, e = (j, fLane (vfFmt o) c o.aNum j) ∧ j < k ∧ j < vfLanes o ∧ laneOn c o j = true)
    ∧ ∀ e ∈ post, ∃ j, e = (j, fLane (vfFmt o) c o.aNum j) ∧ j < vfLanes o ∧ laneOn c o j = true := by
  obtain ⟨pre, post, hl, hpre, hpost⟩ := onLanes_split c o hk.1 hk.2
  refine ⟨pre.map fun k => (k, fLane (vfFmt o) c o.aNum k), post.map fun k => (k, fLane (vfFmt o) c o.aNum k), by rw [maxLanes, hl, List.map_append, List.map_cons], fun e he => ?_, fun e he => ?_⟩
  · obtain ⟨j, hj, rfl⟩ := List.mem_map.1 he
    exact ⟨j, rfl, hpre j hj⟩
  · obtain ⟨j, hj, rfl⟩ := List.mem_map.1 he
    exact ⟨j, rfl, hpost j hj⟩

/-- No lane of VFRMAX signals when none is a NaN. -/
theorem maxLanes_quiet {c : Ctx} (h : ∀ j, j < vfLanes o ∧ laneOn c o j = true → (fLane (vfFmt o) c o.aNum j).isNan = false) :
    (if ((maxLanes o c).map fun e => e.2).any signals then NV else 0) = 0 := by
  rw [maxLanes_any, if_neg]
  rw [List.any_eq_true]
  rintro ⟨j, hj, hs⟩
  obtain ⟨hjn, hon⟩ := List.mem_filter.1 hj
  have := h j ⟨List.mem_range.1 hjn, hon⟩
  rw [isNan_of_signals hs] at this
  cases this

/-- VFRMAX without a NaN raises no flag, so it completes. -/
theorem vfrmax_quiet (h : s.canIssueV o (vfMaskRegs o) [rg o.dNum, rv o.aNum]) (hbal : 1 ≤ (s.row (s.coreNo / 8)).balance) {k x : Nat}
    (hn : ∀ j, j < vfLanes o ∧ laneOn s.cx o j = true → (fLane (vfFmt o) s.cx o.aNum j).isNan = false) (hr : fRedMax (maxLanes o s.cx) = (k, x)) :
    exec (.vfrmax o) s = retired (.vfrmax o) (s.paid.setCx (s.cx.setG o.dNum (BitVec.ofNat 64 (k * 2 ^ 32 + x)))) := by
  have := (vfrmax_end h hbal (maxLanes_quiet hn) hr).2 (Ctx.traps_zero _)
  rwa [Ctx.addFlags_zero] at this

/-- VFRMAX without an active lane (R182). -/
theorem vfrmax_none (h : s.canIssueV o (vfMaskRegs o) [rg o.dNum, rv o.aNum]) (hbal : 1 ≤ (s.row (s.coreNo / 8)).balance)
    (hno : ∀ k, ¬(k < vfLanes o ∧ laneOn s.cx o k = true)) : exec (.vfrmax o) s = retired (.vfrmax o) (s.paid.setCx (s.cx.setG o.dNum 0x0000007F_FF800000)) := by
  have hnil : maxLanes o s.cx = [] := by
    rw [maxLanes, List.map_eq_nil_iff, List.filter_eq_nil_iff]
    exact fun k hk hon => hno k ⟨List.mem_range.1 hk, hon⟩
  exact vfrmax_quiet h hbal (fun j hj => absurd hj (hno j)) (by rw [hnil])

/-- VFRMAX delivers the first greatest active lane (R182). -/
theorem vfrmax_greatest (h : s.canIssueV o (vfMaskRegs o) [rg o.dNum, rv o.aNum]) (hbal : 1 ≤ (s.row (s.coreNo / 8)).balance) {k : Nat}
    (hk : k < vfLanes o ∧ laneOn s.cx o k = true) (hn : ∀ j, j < vfLanes o ∧ laneOn s.cx o j = true → (fLane (vfFmt o) s.cx o.aNum j).isNan = false)
    (hmax : ∀ j, j < vfLanes o ∧ laneOn s.cx o j = true → (fLane (vfFmt o) s.cx o.aNum k).lt (fLane (vfFmt o) s.cx o.aNum j) = false)
    (hfirst : ∀ j, j < k → j < vfLanes o ∧ laneOn s.cx o j = true → (fLane (vfFmt o) s.cx o.aNum j).lt (fLane (vfFmt o) s.cx o.aNum k) = true) :
    exec (.vfrmax o) s = retired (.vfrmax o) (s.paid.setCx (s.cx.setG o.dNum (BitVec.ofNat 64 (k * 2 ^ 32 + pat .f32 (fLane (vfFmt o) s.cx o.aNum k))))) := by
  obtain ⟨pre, post, hl, hpre, hpost⟩ := maxLanes_split o s.cx hk
  refine vfrmax_quiet h hbal hn ?_
  rw [hl]
  refine fRedMax_first (fun e he => ?_) (fun e he => ?_) fun e he => ?_
  · rcases List.mem_append.1 he with he | he
    · obtain ⟨j, rfl, -, hj⟩ := hpre e he
      exact hn j hj
    · rcases List.mem_cons.1 he with rfl | he
      · exact hn k hk
      · obtain ⟨j, rfl, hj⟩ := hpost e he
        exact hn j hj
  · obtain ⟨j, rfl, hjk, hj⟩ := hpre e he
    exact hfirst j hjk hj
  · obtain ⟨j, rfl, hj⟩ := hpost e he
    exact hmax j hj

/-- VFRMAX delivers the first NaN among the active lanes, and raises NV for a signalling one (R182). -/
theorem vfrmax_nan (h : s.canIssueV o (vfMaskRegs o) [rg o.dNum, rv o.aNum]) (hbal : 1 ≤ (s.row (s.coreNo / 8)).balance) {k : Nat}
    (hk : k < vfLanes o ∧ laneOn s.cx o k = true) (hnan : (fLane (vfFmt o) s.cx o.aNum k).isNan = true)
    (hfirst : ∀ j, j < k → j < vfLanes o ∧ laneOn s.cx o j = true → (fLane (vfFmt o) s.cx o.aNum j).isNan = false) :
    let fl := laneFlags s.cx o (vfLanes o) fun j => if signals (fLane (vfFmt o) s.cx o.aNum j) then NV else 0
    trapsOr (.vfrmax o) s fl (exec (.vfrmax o) s
      = retired (.vfrmax o) (s.paid.setCx ((s.cx.setG o.dNum (BitVec.ofNat 64 (k * 2 ^ 32 + pat .f32 (fLane (vfFmt o) s.cx o.aNum k)))).addFlags fl))) := by
  intro fl
  obtain ⟨pre, post, hl, hpre, -⟩ := maxLanes_split o s.cx hk
  refine vfrmax_end h hbal ?_ ?_
  · rw [maxLanes_any, ← laneFlags_any]
  · rw [hl]
    refine fRedMax_nan (fun e he => ?_) hnan
    obtain ⟨j, rfl, hjk, hj⟩ := hpre e he
    exact hfirst j hjk hj

/-! VRED and VFRED. -/

/-- The lanes that VRED adds: an inactive one counts as 0. -/
def redLanes (o : Ops) (c : Ctx) : List Nat := (List.range (viLanes o)).map fun k => if laneOn c o k then iLane o c o.aNum k else 0

/-- The register that VRED writes from a sum of its width. -/
def redWord (o : Ops) (x : Nat) : Word := if viSigned o then sext x (viBits o) else zext x (viBits o)

theorem redWord_mod (o : Ops) (x : Nat) : redWord o (x % 2 ^ viBits o) = redWord o x := by rw [redWord, redWord, sext_mod, zext_mod]

theorem vred_end (h : s.canIssueV o (viMaskRegs o) (rg o.dNum :: grp rv o.aNum (viRegs o))) :
    let t := treeSum (viArith o (fun x y => x + y)) (Nat.log2 (viLanes o)) (redLanes o s.cx)
    trapsOr (.vred o) s t.2 (exec (.vred o) s = retired (.vred o) (s.setCx ((s.cx.setG o.dNum (redWord o t.1)).addFlags t.2))) :=
  lanewise_flagged (i := .vred o) rfl h (f := fun c => let t := treeSum (viArith o (fun x y => x + y)) (Nat.log2 (viLanes o)) (redLanes o c)
    flagged c t.2 (c.setG o.dNum (redWord o t.1))) rfl

/-- VRED without `.sat` wraps the sum of its lanes and raises no flag. -/
theorem vred_wraps (h : s.canIssueV o (viMaskRegs o) (rg o.dNum :: grp rv o.aNum (viRegs o))) (hsat : viSat o = false) :
    exec (.vred o) s = retired (.vred o) (s.setCx (s.cx.setG o.dNum (redWord o ((redLanes o s.cx).foldl (· + ·) 0 % 2 ^ viBits o)))) := by
  have hend := vred_end h
  obtain ⟨h1, h2⟩ := treeSum_mod (viBits o) (Nat.log2 (viLanes o)) (redLanes o s.cx) (by rw [redLanes, List.length_map, List.length_range]; exact viLanes_pow o)
  rw [viArith_wrap hsat] at hend
  dsimp only at hend
  rw [h2] at hend
  rw [← List.sum_eq_foldl, ← h1, redWord_mod]
  have := hend.2 (Ctx.traps_zero _)
  rwa [Ctx.addFlags_zero] at this

/-- Under `.sat` every node of the tree clamps (R41, R43). -/
theorem viArith_clamps (hsat : viSat o = true) (f : Int → Int → Int) : viArith o f = fun x y =>
    let value (x : Nat) : Int := if viSigned o then sgn x (viBits o) else x
    let r := clamped true (viSigned o) (viBits o) (f (value x) (value y))
    (r.1, if r.2 then SAT else 0) := by
  funext x y
  rw [viArith, hsat]
  exact intResult_eq _ _ _ _

/-- VFRED (R182): the lanes in FP32, an inactive one as the zero that changes no sum, added in the tree of R41. -/
theorem vfred_end (h : s.canIssueV o (vfMaskRegs o) [rg o.dNum, rv o.aNum]) (hbal : 1 ≤ (s.row (s.coreNo / 8)).balance) {part : Nat → Nat × Nat}
    (hpart : part = fun k => if laneOn s.cx o k then convert .f32 RNE 0 false (fLane (vfFmt o) s.cx o.aNum k) else (if vfMode o = RDN then 0 else 2 ^ 31, 0)) :
    let t := treeSum (fun a b => fAdd .f32 (vfMode o) (Fmt.f32.decode a) (Fmt.f32.decode b)) (Nat.log2 (vfLanes o)) ((List.range (vfLanes o)).map fun k => (part k).1)
    let fl := t.2 ||| laneFlags s.cx o (vfLanes o) fun k => (part k).2
    trapsOr (.vfred o) s fl (exec (.vfred o) s = retired (.vfred o) (s.paid.setCx ((s.cx.setG o.dNum (BitVec.ofNat 64 t.1)).addFlags fl))) := by
  intro t fl
  have hoff : ∀ k, laneOn s.cx o k = false → (part k).2 = 0 := fun k hk => by rw [hpart]; simp [hk]
  refine floatwise_flagged (i := .vfred o) rfl h hbal (f := fun c =>
    let ls := (List.range (vfLanes o)).map (fun k => if laneOn c o k then convert .f32 RNE 0 false (fLane (vfFmt o) c o.aNum k) else (if vfMode o = RDN then 0 else 2 ^ 31, 0))
    let t := treeSum (fun a b => fAdd .f32 (vfMode o) (Fmt.f32.decode a) (Fmt.f32.decode b)) (Nat.log2 (vfLanes o)) (ls.map (fun x => x.1))
    flagged c (ls.foldl (fun a x => a ||| x.2) t.2) (c.setG o.dNum (BitVec.ofNat 64 t.1))) ?_
  dsimp only
  rw [← hpart, foldl_flags hoff, List.map_map]
  rfl

end Sys2Proof.Machine
end

section
open Sys2Proof Sys2Proof.Machine

/-- Settles O44: the sums of VRED wrap or clamp in the tree, VFRMAX finds its lane in the ordered list of active lanes, and the dot products run one sum a lane. -/
theorem reductionsAndDots : Obligations.ReductionsAndDots := by
  unfold Obligations.ReductionsAndDots
  intro o s c n f vals value add whole part on dot elem dot4
  refine ⟨fun h => ⟨vred_wraps h, fun hsat => ?_⟩, fun h hbal => ⟨vfred_end h hbal rfl, vfrmax_none h hbal, fun k hk => ⟨vfrmax_greatest h hbal hk, vfrmax_nan h hbal hk⟩⟩,
    fun h => ⟨fun hbal => floatwise_single rfl rfl h hbal rfl dot rfl, ?_⟩⟩
  · have := vred_end h
    rw [viArith_clamps hsat] at this
    exact this
  · have := lanewise_single (i := .vdot4 o) rfl rfl h rfl (fun k =>
      intResult (viSat o) 32 (viSigned o) ((List.range 4).foldl (fun (t : Int) j => t + elem o.aNum 8 (4 * k + j) * elem o.bNum 8 (4 * k + j)) (elem o.dNum 32 k))) rfl
    simp only [intResult_eq] at this
    exact this

end

section
/-! SUPPORT. The lanewise floating-point instructions (R46, R104, R162, R177, R179, R180, R382). -/

set_option Elab.async false

namespace Sys2Proof.Machine

open Sys2Proof

variable {o : Ops} {s : State}

theorem exec_floatTable {mk : Ops → Instr} {regs : Ops → List Nat} {g : Ops → Ctx → Nat → Nat × Nat} (h : (mk, regs, g) ∈ floatTable) (o : Ops) (s : State) :
    exec (mk o) s = floatwise (mk o) o (vfMaskRegs o) (regs o) (fun c => vfResult o c (g o c)) s ∧ Instr.marker (mk o) = o.s := by
  simp only [floatTable, List.mem_cons, Prod.mk.injEq, List.not_mem_nil, or_false] at h
  rcases h with ⟨rfl, rfl, rfl⟩ | ⟨rfl, rfl, rfl⟩ | ⟨rfl, rfl, rfl⟩ | ⟨rfl, rfl, rfl⟩ | ⟨rfl, rfl, rfl⟩ | ⟨rfl, rfl, rfl⟩ | ⟨rfl, rfl, rfl⟩ | ⟨rfl, rfl, rfl⟩ | ⟨rfl, rfl, rfl⟩ | ⟨rfl, rfl, rfl⟩ <;>
    exact ⟨rfl, rfl⟩

theorem exec_lateTable {mk : Ops → Instr} {regs : Ops → List Nat} {g : Ops → Ctx → Nat → Nat × Nat} (h : (mk, regs, g) ∈ lateTable) (o : Ops) (s : State) :
    exec (mk o) s = vfLate (mk o) o (regs o) (g o) s := by
  simp only [lateTable, List.mem_cons, Prod.mk.injEq, List.not_mem_nil, or_false] at h
  rcases h with ⟨rfl, rfl, rfl⟩ | ⟨rfl, rfl, rfl⟩ | ⟨rfl, rfl, rfl⟩ <;> rfl

/-! A result of variable latency (R104). -/

/-- The pending bit of a vector register after a mark. -/
theorem Ctx.pending_mark_rv (c : Ctx) (b : Bool) {n : Nat} (hn : n < 64) : (c.mark b (rv n)).pending (rv n) = b := by
  have hd : (64 + n) / 64 = 1 := by omega
  have hm : (64 + n) % 64 = n := by omega
  have hb : (BitVec.ofNat 64 (2 ^ n)).getLsbD n = true := by
    rw [BitVec.getLsbD_ofNat, decide_eq_true hn, Nat.testBit_two_pow_self, Bool.true_and]
  cases b
  · simp only [Ctx.mark, Ctx.pending, rv, hd, hm, Bool.false_eq_true, if_false, BitVec.getLsbD_and, BitVec.getLsbD_not, hb, Bool.not_true, Bool.and_false]
  · simp only [Ctx.mark, Ctx.pending, rv, hd, hm, if_true, BitVec.getLsbD_or, hb, Bool.or_true]

theorem Ctx.getV_of_file {c d : Ctx} (h : d.file = c.file) (n : Nat) : d.getV n = c.getV n := by
  simp only [Ctx.file, Prod.mk.injEq] at h
  exact Ctx.getV_of_v h.2.1 n

/-- The context as the result of `vecResult` for one register is written back to it. -/
def Ctx.delivered (c : Ctx) (d x fl : Nat) : Ctx := ((c.setV d (BitVec.ofNat 1024 x)).marks false [rv d]).addFlags fl

theorem Ctx.delivered_spec (c : Ctx) {d : Nat} (hd : d < 64) (x fl : Nat) : (c.delivered d x fl).pending (rv d) = false
    ∧ (c.delivered d x fl).sr.xflags = c.sr.xflags ||| BitVec.ofNat 64 fl ∧ (c.delivered d x fl).getV d = BitVec.ofNat 1024 x := by
  have hf := Ctx.file_marks (c.setV d (BitVec.ofNat 1024 x)) false [rv d]
  refine ⟨(c.setV d (BitVec.ofNat 1024 x)).pending_mark_rv false hd, ?_, ?_⟩
  · show ((c.setV d (BitVec.ofNat 1024 x)).marks false [rv d]).sr.xflags ||| BitVec.ofNat 64 fl = _
    rw [(sameRegisters_of_file hf).2]
    rfl
  · exact (Ctx.getV_of_file hf d).trans (c.getV_setV_same hd _)

/-- The one result of a core, of the register V[d] of the current context, written back. -/
theorem resultWriteback_vec {s t : State} {c : Ctx} {d x fl : Nat} (hk : t.cur = s.cur) (hc : t.cx = c) (hstill : t.still = false)
    (hr : t.co.results = [{ (vecResult d 1 x fl) with slot := s.cur % 8 }]) :
    ∃ u, exec (.resultWriteback s.coreNo 0) t = .next u ∧ u.cx = c.delivered d x fl := by
  have hkey : 8 * s.coreNo + s.cur % 8 = t.cur := by rw [hk]; exact Nat.div_add_mod _ 8
  have hco : (t.core s.coreNo).results = [{ (vecResult d 1 x fl) with slot := s.cur % 8 }] := by
    rw [show s.coreNo = t.coreNo by rw [State.coreNo, State.coreNo, hk]]
    exact hr
  have hv : (vecResult d 1 x fl).v = [(d, BitVec.ofNat 1024 x)] := by
    have : BitVec.ofNat 1024 (fld x (1024 * 0) 1024) = BitVec.ofNat 1024 x := by
      apply BitVec.eq_of_toNat_eq
      rw [Nat.mul_zero, fld_low, BitVec.toNat_ofNat, BitVec.toNat_ofNat, Nat.mod_mod]
    simp only [vecResult, List.range_one, List.map_cons, List.map_nil, this, Nat.add_zero]
  show ∃ u, execResultWriteback s.coreNo 0 t = .next u ∧ _
  unfold execResultWriteback
  refine ⟨_, event_on rfl hstill, ?_⟩
  simp only [hco, List.getElem?_cons_zero]
  rw [hkey]
  refine (State.ctx_setCtx_same _ _ _).trans ?_
  rw [State.ctx_setCore, show t.ctx t.cur = c from hc]
  show Ctx.addFlags _ _ = _
  rw [hv]
  rfl

/-- VFDIV, VFSQRT and VFRSQ: FPX with nothing written, or a register that waits for its lanes and flags, which come together (R46, R104). -/
theorem vfLate_end {i : Instr} {regs : List Nat} {g : Ctx → Nat → Nat × Nat} (he : exec i s = vfLate i o regs g s) (h : s.canIssueV o (vfMaskRegs o) regs)
    (hbal : 1 ≤ (s.row (s.coreNo / 8)).balance) (hres : s.co.results = []) (hstill : s.still = false) :
    let fl := laneFlags s.cx o (vfLanes o) fun k => (g s.cx k).2
    (s.cx.traps fl = true → exec i s = .next (s.raise { cause := 12, xinfo := BitVec.ofNat 64 fl }))
    ∧ (s.cx.traps fl = false → ∃ t u, exec i s = .next t ∧ t.cx.pending (rv o.dNum) = true ∧ (t.row (s.coreNo / 8)).balance = (s.row (s.coreNo / 8)).balance - 1
        ∧ exec (.resultWriteback s.coreNo 0) t = .next u ∧ u.cx.pending (rv o.dNum) = false ∧ u.cx.sr.xflags = s.cx.sr.xflags ||| BitVec.ofNat 64 fl
        ∧ ∀ k, k < vfLanes o → lane (u.cx.getV o.dNum).toNat (vfFmt o).bits k =
            if laneOn s.cx o k then (g s.cx k).1 % 2 ^ (vfFmt o).bits else lane (s.cx.getV o.dNum).toNat (vfFmt o).bits k) := by
  intro fl
  obtain ⟨r, hr⟩ : ∃ r, r = runLanes s.cx o (vfFmt o).bits (vfLanes o) (s.cx.getV o.dNum).toNat (g s.cx) := ⟨_, rfl⟩
  have hfl : r.2 = fl := by rw [hr, runLanes_eq]
  have hrun : exec i s = finishWith i o s (if s.cx.traps fl then .trap (fpx fl) else .done (pendResult (vecResult o.dNum 1 r.1 fl) [rv o.dNum] s.paid)) := by
    rw [he, vfLate, tokenwise_run h hbal, ← hfl, hr]
    rfl
  refine ⟨fun ht => by rw [hrun, if_pos ht]; rfl, fun ht => ?_⟩
  rw [hrun, if_neg (by simp [ht]), finishWith_done]
  generalize hp : pendResult (vecResult o.dNum 1 r.1 fl) [rv o.dNum] s.paid = p
  have hd := Ops.dNum_lt o
  have hpcx : p.cx = s.cx.marks true [rv o.dNum] := by rw [← hp]; exact State.cx_setCx _ _
  have hcx : (p.setCx (p.cx.retire i o.s)).cx = (s.cx.marks true [rv o.dNum]).retire i o.s := by rw [State.cx_setCx, hpcx]
  obtain ⟨u, hu, hucx⟩ := resultWriteback_vec (s := s) (t := p.setCx (p.cx.retire i o.s)) (c := (s.cx.marks true [rv o.dNum]).retire i o.s) (d := o.dNum) (x := r.1) (fl := fl)
    (by rw [← hp]; rfl) hcx (by rw [← hp]; exact hstill) (by
      rw [State.co_setCx, ← hp]
      refine (congrArg Core.results (State.co_setCo _ _)).trans ?_
      show s.co.results ++ _ = _
      rw [hres]
      rfl)
  have hfile : ((s.cx.marks true [rv o.dNum]).retire i o.s).file = s.cx.file := (Ctx.file_retire _ _ _).trans (Ctx.file_marks _ _ _)
  obtain ⟨hpend, hflags, hlanes⟩ := Ctx.delivered_spec ((s.cx.marks true [rv o.dNum]).retire i o.s) hd r.1 fl
  rw [(sameRegisters_of_file hfile).2] at hflags
  refine ⟨_, u, rfl, ?_, ?_, hu, ?_, ?_, fun k hk => ?_⟩
  · rw [hcx, Ctx.pending_retire]
    exact s.cx.pending_mark_rv true hd
  · rw [← hp]
    exact congrArg Row.balance (State.row_setRow_same _ _ _)
  · rw [hucx]
    exact hpend
  · rw [hucx]
    exact hflags
  · have hb := bits_mul_vfLanes o
    rw [hucx, hlanes, BitVec.toNat_ofNat, lane_mod (by rw [← hb]; exact Nat.mul_le_mul_left _ hk), hr, runLanes_eq, lane_pack hk]
    split
    · rfl
    · exact Nat.mod_eq_of_lt (lane_lt _ _ _)

/-! The formats of quotients and roots. -/

theorem rootRange_of_mem {f : Fmt} (hf : f ∈ [Fmt.f32, .bf16, .f16]) : f ∈ formats ∧ RootRange f (f.maxPat / 2 ^ f.fb - 1) := by
  simp only [List.mem_cons, List.not_mem_nil, or_false] at hf
  rcases hf with rfl | rfl | rfl
  all_goals exact ⟨by simp [formats], by decide, by decide, by decide⟩

end Sys2Proof.Machine
end

section
open Sys2Proof Sys2Proof.Machine

/-- Settles O41: the instructions of both tables run one function over their lanes; the last two clauses are what that function gives for finite operands. -/
theorem floatLanes : Obligations.FloatLanes := by
  unfold Obligations.FloatLanes
  refine ⟨fun mk regs g hg o s h hbal => ?_, fun mk regs g hg o s h hbal => ?_, fun mk regs g hg o s h hbal hres hstill => ?_, fun f mode a b c ha hb hc => ?_, fun f hf x y _ _ hx hy => ?_⟩
  · rcases List.mem_append.1 hg with hg | hg
    · rw [(exec_floatTable hg o s).1]
      exact tokenwise_stall h hbal _
    · rw [exec_lateTable hg o s]
      exact tokenwise_stall h hbal _
  · obtain ⟨he, hm⟩ := exec_floatTable hg o s
    exact floatwise_single hm he h hbal (bits_mul_vfLanes o) (g o s.cx) rfl
  · have he := exec_lateTable hg o s
    exact vfLate_end he h hbal hres hstill
  · exact ⟨fAdd_fin f mode ha hb, fSub_fin f mode ha hb, fMul_fin f mode ha hb, fFma_fin f mode false ha hb hc, fFma_fin f mode true ha hb hc⟩
  · obtain ⟨hmem, hroot⟩ := rootRange_of_mem hf
    have htop := topAt_of_mem hmem
    exact ⟨fDiv_roundsTo htop hroot.frac hx hy, fun hpos => ⟨fSqrt_nearest htop hroot hx hpos, fRsqrt_nearest htop hroot hx hpos⟩,
      fMinMax_value htop hx hy false, fMinMax_value htop hx hy true⟩

end

section
/-! SUPPORT. Dual-exponent blocks (R33, R34, R189, R191): the scale bytes, the code and the flags of an element, and the value that an element reads back. -/

set_option Elab.async false

namespace Sys2Proof.Machine

open Sys2Proof

theorem finOf_eq_isFin : finOf = isFin := by
  funext x
  cases x <;> rfl

/-! Comparisons of finite values. -/

theorem cmp_of_ne {x y : Sys2Proof.Num} (h : ¬(numValue x = 0 ∧ isFin x = true)) : x.cmp y = if x.lt y then -1 else if y.lt x then 1 else 0 := by
  unfold Num.cmp
  split
  · exact absurd ⟨numValue_eq_zero.2 rfl, rfl⟩ h
  · rfl

/-- A finite value compares equal to zero when it is zero. -/
theorem cmp_zero_iff {x : Sys2Proof.Num} (hx : isFin x = true) : x.cmp (.fin false 0 0) = 0 ↔ numValue x = 0 := by
  by_cases h0 : numValue x = 0
  · obtain ⟨n, m, e, rfl⟩ := exists_fin_of_isFin hx
    have hm := numValue_eq_zero.1 h0
    subst hm
    exact iff_of_true rfl h0
  · have hz : numValue (.fin false 0 0) = 0 := numValue_eq_zero.2 rfl
    refine iff_of_false (fun hc => ?_) h0
    rw [cmp_of_ne fun h => h0 h.1] at hc
    have hlt := lt_fin_iff hx h0 (b := .fin false 0 0) rfl
    have hgt := lt_fin (a := .fin false 0 0) rfl hx
    rw [hz] at hlt hgt
    split at hc
    · cases hc
    · rename_i hnlt
      split at hc
      · cases hc
      · rename_i hngt
        exact hnlt (hlt.2 (lt_of_le_of_ne (hgt.2 (Bool.eq_false_iff.2 hngt)) h0))

/-- A finite value that is not zero compares greater or equal by value. -/
theorem cmp_nonneg_iff {x y : Sys2Proof.Num} (hx : isFin x = true) (h0 : numValue x ≠ 0) (hy : isFin y = true) : 0 ≤ x.cmp y ↔ numValue y ≤ numValue x := by
  rw [cmp_of_ne fun h => h0 h.1, ← not_lt (a := numValue x), ← lt_fin_iff hx h0 hy]
  split
  · exact iff_of_false (by decide) (not_not.2 ‹_›)
  · refine iff_of_true ?_ ‹_›
    split <;> decide

/-! The scale byte (R34). -/

/-- The least exponent whose k steps reach A, or 254. -/
theorem leastExp_spec {lo k sh : Nat} (hlo : lo ≤ 254) (hk : k ≠ 0) {a : Sys2Proof.Num} (ha : isFin a = true) :
    let e := leastExp lo k sh a
    let reach (e : Nat) : ℚ := k * (2 : ℚ) ^ ((e : Int) - 127 - sh)
    lo ≤ e ∧ e ≤ 254 ∧ (numValue a ≤ reach e ∨ e = 254) ∧ ∀ j, lo ≤ j → j < e → reach j < numValue a := by
  intro e reach
  have hreach : ∀ j : Nat, numValue (.fin false k ((j : Int) - 127 - sh)) = reach j := fun j => by simp [numValue, reach]
  have hdec : ∀ j : Nat, decide (0 ≤ Num.cmp (.fin false k ((j : Int) - 127 - sh)) a) = decide (numValue a ≤ reach j) := fun j => by
    rw [← hreach, decide_eq_decide]
    exact cmp_nonneg_iff rfl (fun h => hk (numValue_eq_zero.1 h)) ha
  have he : e = (((List.range (255 - lo)).find? fun j => decide (numValue a ≤ reach (lo + j))).map (lo + ·)).getD 254 := by
    simp only [e, leastExp, hdec, List.find?_map]
    rfl
  cases hf : (List.range (255 - lo)).find? fun j => decide (numValue a ≤ reach (lo + j)) with
  | none =>
    have he' : e = 254 := by rw [he, hf]; rfl
    rw [List.find?_range_eq_none] at hf
    rw [he']
    refine ⟨hlo, le_rfl, .inr rfl, fun j h1 h2 => ?_⟩
    have := hf (j - lo) (by omega)
    rw [Nat.add_sub_cancel' h1] at this
    simpa using this
  | some i =>
    have he' : e = lo + i := by rw [he, hf]; rfl
    rw [List.find?_range_eq_some] at hf
    obtain ⟨hi, hmem, hmin⟩ := hf
    have := List.mem_range.1 hmem
    rw [he']
    refine ⟨Nat.le_add_right _ _, by omega, .inl (by simpa using hi), fun j h1 h2 => ?_⟩
    have := hmin (j - lo) (by omega)
    rw [Nat.add_sub_cancel' h1] at this
    simpa using this

/-! The elements (R34). -/

/-- A magnitude rounded to whole steps, to nearest with ties to even. -/
theorem gridRound_nearest (m : Nat) (e u : Int) : roundsToInt (numValue (.fin false m e) / 2 ^ u) (gridRound RNE 0 false m e false u).1
    ∧ ((gridRound RNE 0 false m e false u).2.1 = true ↔ ((gridRound RNE 0 false m e false u).1 : ℚ) * 2 ^ u ≠ numValue (.fin false m e)) := by
  obtain ⟨q, t, inexact, up, hg, hv, h0, h1, hi, hup⟩ := gridRound_spec (mode := RNE) (by decide) 0 false (Stands.exact m e) (u := u) (by simp)
  have hpos := two_zpow_pos u
  have hval : ((numValue (.fin false m e) : ℚ) : ℝ) = (q + t) * 2 ^ u := by rw [cast_numValue_fin, signed_false, hv]
  have hdiv : ((numValue (.fin false m e) / 2 ^ u : ℚ) : ℝ) = q + t := by
    push_cast
    rw [hval, mul_div_assoc, div_self hpos.ne', mul_one]
  rw [hg]
  simp only [RoundsUp] at hup
  constructor
  · unfold roundsToInt
    rw [← Rat.cast_lt (K := ℝ), ← Rat.cast_inj (α := ℝ), Rat.cast_abs, Rat.cast_sub, hdiv]
    cases up
    · have hr : ¬(1 / 2 < t ∨ t = 1 / 2 ∧ q % 2 = 1) := fun h => by simpa using hup.2 h
      push Not at hr
      simp only [b2n, Bool.false_eq_true, if_false, Nat.add_zero]
      push_cast
      rw [add_sub_cancel_left, abs_of_nonneg h0]
      exact (lt_or_eq_of_le hr.1).imp_right fun h => ⟨h, by have := hr.2 h; omega⟩
    · have hr := hup.1 rfl
      simp only [b2n, if_true]
      push_cast
      rw [add_sub_add_left_eq_sub, abs_of_neg (by linarith)]
      rcases hr with hr | ⟨hr, hodd⟩
      · exact .inl (by linarith)
      · exact .inr ⟨by linarith, by omega⟩
  · rw [hi, Ne, Ne, ← Rat.cast_inj (α := ℝ), hval]
    push_cast
    rw [mul_left_inj' hpos.ne']
    cases up
    · simp [b2n]
    · have ht : t ≠ 0 := fun h => roundsUp_zero RNE false q (h ▸ hup.1 rfl)
      refine iff_of_true ht fun h => ?_
      simp only [b2n, if_true] at h
      push_cast at h
      linarith

/-- The step of an element with scale byte `ex`, the significand of `mb` bits (R33). -/
def dbStep (mb ex : Nat) : ℚ := (2 : ℚ) ^ ((ex : Int) - 127) / 2 ^ (mb - 1)

theorem dbStep_eq (mb ex : Nat) : dbStep mb ex = (2 : ℚ) ^ ((ex : Int) - 127 - (mb - 1 : Nat)) := by
  rw [dbStep, zpow_sub₀ two_ne_zero ((ex : Int) - 127), zpow_natCast]

theorem dbStep_pos (mb ex : Nat) : 0 < dbStep mb ex := by
  rw [dbStep_eq]
  exact zpow_pos two_pos _

/-- A magnitude that rounds to more than `top` steps is not `top` steps. -/
theorem roundsToInt_above {x : ℚ} {n top : Nat} (h : roundsToInt x n) (hn : top < n) : (top : ℚ) ≠ x := by
  have hle : |x - n| ≤ 1 / 2 := h.elim le_of_lt fun h => h.1.le
  have hn1 : (top : ℚ) + 1 ≤ n := by exact_mod_cast hn
  intro heq
  have := (abs_le.1 hle).1
  linarith

/-- An element's code and flags: its magnitude in steps of E1 when that fits, else in steps of E0, at most `top` (R34 steps 4 and 5). -/
theorem dbElem_spec (mb e0 e1 : Nat) (neg : Bool) (m : Nat) (e : Int) : ∃ m0 m1,
    roundsToInt (numValue (.fin false m e) / dbStep mb e0) m0 ∧ roundsToInt (numValue (.fin false m e) / dbStep mb e1) m1
    ∧ let top := 2 ^ mb - 1
      let sel := decide (m1 ≤ top)
      let mag := if sel then m1 else min m0 top
      dbElem mb e0 e1 (.fin neg m e) = (if mag = 0 then 0 else mag + (if neg then 2 ^ mb else 0) + (if sel then 2 ^ (mb + 1) else 0),
        (if mag * dbStep mb (if sel then e1 else e0) = numValue (.fin false m e) then 0 else NX) + (if top < m1 ∧ top < m0 then SAT else 0)) := by
  obtain ⟨h0, hi0⟩ := gridRound_nearest m e ((e0 : Int) - 127 - (mb - 1 : Nat))
  obtain ⟨h1, hi1⟩ := gridRound_nearest m e ((e1 : Int) - 127 - (mb - 1 : Nat))
  rw [← dbStep_eq] at h0 hi0 h1 hi1
  obtain ⟨r0, hr0⟩ : ∃ r, r = gridRound RNE 0 false m e false ((e0 : Int) - 127 - (mb - 1 : Nat)) := ⟨_, rfl⟩
  obtain ⟨r1, hr1⟩ : ∃ r, r = gridRound RNE 0 false m e false ((e1 : Int) - 127 - (mb - 1 : Nat)) := ⟨_, rfl⟩
  rw [← hr0] at h0 hi0
  rw [← hr1] at h1 hi1
  refine ⟨r0.1, r1.1, h0, h1, ?_⟩
  have hb : ∀ (b : Bool) (x : Nat), b2n b * x = if b then x else 0 := fun b x => by cases b <;> simp [b2n]
  have hflag : ∀ {r : Nat × Bool × Bool} {ex : Nat}, (r.2.1 = true ↔ (r.1 : ℚ) * dbStep mb ex ≠ numValue (.fin false m e)) →
      (if r.2.1 then NX else 0) = if (r.1 : ℚ) * dbStep mb ex = numValue (.fin false m e) then 0 else NX := fun {r ex} h => by
    by_cases hx : (r.1 : ℚ) * dbStep mb ex = numValue (.fin false m e)
    · rw [if_pos hx, if_neg fun hr => h.1 hr hx]
    · rw [if_neg hx, if_pos (h.2 hx)]
  unfold dbElem
  simp only [← hr0, ← hr1, hb]
  by_cases hsel : r1.1 ≤ 2 ^ mb - 1
  · simp only [decide_eq_true hsel, if_true, min_eq_left hsel, if_neg (not_lt.2 hsel), if_neg fun h : _ ∧ _ => not_lt.2 hsel h.1, Nat.add_zero, hflag hi1]
  · simp only [decide_eq_false hsel, Bool.false_eq_true, if_false]
    by_cases htop : 2 ^ mb - 1 < r0.1
    · have hne : ((2 ^ mb - 1 : Nat) : ℚ) * dbStep mb e0 ≠ numValue (.fin false m e) := fun h => by
        rw [← h, mul_div_assoc, div_self (dbStep_pos mb e0).ne', mul_one] at h0
        exact roundsToInt_above h0 htop rfl
      rw [min_eq_right htop.le, if_pos htop, if_neg hne, if_pos (show 2 ^ mb - 1 < r1.1 ∧ 2 ^ mb - 1 < r0.1 from ⟨not_le.1 hsel, htop⟩)]
    · rw [min_eq_left (not_lt.1 htop), if_neg htop, if_neg fun h : _ ∧ _ => htop h.2]
      simp only [Nat.add_zero, hflag hi0]

/-! The block (R34). -/

theorem all_finOf_iff (xs : List Sys2Proof.Num) : xs.all finOf = true ↔ ∀ x ∈ xs, isFin x = true := by
  rw [finOf_eq_isFin, List.all_eq_true]

/-- A block that an element or its maximum makes non-finite: marked, with no flag. -/
theorem dbBlock_marked {a : Sys2Proof.Num} {xs : List Sys2Proof.Num} (db8 : Bool) (h : isFin a = false ∨ ∃ x ∈ xs, isFin x = false) :
    dbBlock db8 a xs = .blank 255 (255 - if db8 then 3 else 2) xs fun _ => 0 := by
  refine if_pos (h.imp (finOf_eq_isFin ▸ id) fun ⟨x, hx, hf⟩ => Bool.eq_false_iff.2 fun hall => ?_)
  rw [(all_finOf_iff xs).1 hall x hx] at hf
  cases hf

/-- A block under a maximum of 0: every element is the code 0 (log 68). -/
theorem dbBlock_zero {a : Sys2Proof.Num} {xs : List Sys2Proof.Num} (db8 : Bool) (ha : isFin a = true) (hxs : ∀ x ∈ xs, isFin x = true) (h0 : numValue a = 0) :
    dbBlock db8 a xs = .blank 0 0 xs fun x => if x.cmp (.fin false 0 0) = 0 then 0 else NX := by
  unfold dbBlock
  rw [if_neg, if_pos ((cmp_zero_iff ha).2 h0)]
  rw [finOf_eq_isFin, ha, ← finOf_eq_isFin, (all_finOf_iff xs).2 hxs]
  simp

/-- A block under a finite maximum: its scale bytes, and its elements one by one. -/
theorem dbBlock_fin {a : Sys2Proof.Num} {xs : List Sys2Proof.Num} (db8 : Bool) (ha : isFin a = true) (hxs : ∀ x ∈ xs, isFin x = true) (h0 : numValue a ≠ 0) :
    let d := if db8 then 3 else 2
    let e0 := if db8 then leastExp (d + 1) 63 5 a else leastExp (d + 1) 3 1 a
    let es := xs.map (dbElem (if db8 then 6 else 2) e0 (e0 - d))
    dbBlock db8 a xs = { e0, e1 := e0 - d, codes := es.map fun e => e.1, flags := es.map fun e => e.2 } := by
  intro d e0 es
  unfold dbBlock
  rw [if_neg, if_neg (h0 ∘ (cmp_zero_iff ha).1)]
  rw [finOf_eq_isFin, ha, ← finOf_eq_isFin, (all_finOf_iff xs).2 hxs]
  simp

/-- A block has a code and flags of each element. -/
theorem dbBlock_lengths (db8 : Bool) (a : Sys2Proof.Num) (xs : List Sys2Proof.Num) : (dbBlock db8 a xs).codes.length = xs.length ∧ (dbBlock db8 a xs).flags.length = xs.length := by
  unfold dbBlock Block.blank
  dsimp only
  split
  · exact ⟨List.length_map _, List.length_map _⟩
  · split
    · exact ⟨List.length_map _, List.length_map _⟩
    · exact ⟨(List.length_map _).trans (List.length_map _), (List.length_map _).trans (List.length_map _)⟩

/-- The scale byte of a block's maximum: the least one whose largest element reaches it (R34 step 2). -/
theorem dbScale_spec (db8 : Bool) {a : Sys2Proof.Num} (ha : isFin a = true) :
    let d := if db8 then 3 else 2
    let most : ℚ := if db8 then 63 / 32 else 3 / 2
    let e0 := if db8 then leastExp (d + 1) 63 5 a else leastExp (d + 1) 3 1 a
    d + 1 ≤ e0 ∧ e0 ≤ 254 ∧ (numValue a ≤ most * (2 : ℚ) ^ ((e0 : Int) - 127) ∨ e0 = 254) ∧ ∀ e, d + 1 ≤ e → e < e0 → most * (2 : ℚ) ^ ((e : Int) - 127) < numValue a := by
  have hreach : ∀ (k sh e : Nat), (k : ℚ) * (2 : ℚ) ^ ((e : Int) - 127 - sh) = k / 2 ^ sh * (2 : ℚ) ^ ((e : Int) - 127) := fun k sh e => by
    rw [zpow_sub₀ two_ne_zero ((e : Int) - 127), zpow_natCast]
    ring
  cases db8 with
  | true =>
    have h := leastExp_spec (lo := 4) (k := 63) (sh := 5) (by decide) (by decide) ha
    simp only [hreach] at h
    norm_num at h
    exact h
  | false =>
    have h := leastExp_spec (lo := 3) (k := 3) (sh := 1) (by decide) (by decide) ha
    simp only [hreach] at h
    norm_num at h
    exact h

/-- The values of a list under a map. -/
theorem getElem?_mapped {α β : Type} {xs : List α} {k : Nat} {x : α} (f : α → β) (h : xs[k]? = some x) : (xs.map f)[k]? = some (f x) := by
  rw [List.getElem?_map, h]
  rfl

/-- What quantising a block gives, step by step of R34. -/
theorem dbBlock_spec (db8 : Bool) (a : Sys2Proof.Num) (xs : List Sys2Proof.Num) :
    let d := if db8 then 3 else 2
    let mb := if db8 then 6 else 2
    let top := 2 ^ mb - 1
    let most : ℚ := if db8 then 63 / 32 else 3 / 2
    let b := dbBlock db8 a xs
    b.codes.length = xs.length ∧ b.flags.length = xs.length
    ∧ (isFin a = false ∨ (∃ x ∈ xs, isFin x = false) → b.e0 = 255 ∧ b.e1 = 255 - d ∧ (∀ c ∈ b.codes, c = 0) ∧ ∀ f ∈ b.flags, f = 0)
    ∧ (isFin a = true → (∀ x ∈ xs, isFin x = true) → 0 ≤ numValue a →
      (numValue a = 0 → b.e0 = 0 ∧ b.e1 = 0 ∧ (∀ c ∈ b.codes, c = 0) ∧ ∀ (k : Nat) (x : Sys2Proof.Num), xs[k]? = some x → b.flags[k]? = some (if numValue x = 0 then 0 else NX))
      ∧ (numValue a ≠ 0 → d + 1 ≤ b.e0 ∧ b.e0 ≤ 254 ∧ b.e1 = b.e0 - d ∧ (numValue a ≤ most * (2 : ℚ) ^ ((b.e0 : Int) - 127) ∨ b.e0 = 254)
        ∧ (∀ e, d + 1 ≤ e → e < b.e0 → most * (2 : ℚ) ^ ((e : Int) - 127) < numValue a)
        ∧ ∀ (k : Nat) (neg : Bool) (m : Nat) (e : Int), xs[k]? = some (Sys2Proof.Num.fin neg m e) → ∃ m0 m1 c f, b.codes[k]? = some c ∧ b.flags[k]? = some f
          ∧ roundsToInt (numValue (.fin false m e) / dbStep mb b.e0) m0 ∧ roundsToInt (numValue (.fin false m e) / dbStep mb b.e1) m1
          ∧ (let sel := decide (m1 ≤ top)
            let mag := if sel then m1 else min m0 top
            c = (if mag = 0 then 0 else mag + (if neg then 2 ^ mb else 0) + (if sel then 2 ^ (mb + 1) else 0))
            ∧ f = (if mag * dbStep mb (if sel then b.e1 else b.e0) = numValue (.fin false m e) then 0 else NX) + (if top < m1 ∧ top < m0 then SAT else 0)))) := by
  intro d mb top most b
  have hconst : ∀ {β : Type} (v : β), ∀ c ∈ xs.map fun _ => v, c = v := fun v c hc => by
    obtain ⟨x, -, rfl⟩ := List.mem_map.1 hc
    rfl
  refine ⟨?_, ?_, fun h => ?_, fun ha hxs _ => ⟨fun h0 => ?_, fun h0 => ?_⟩⟩
  · exact (dbBlock_lengths db8 a xs).1
  · exact (dbBlock_lengths db8 a xs).2
  · rw [show b = _ from dbBlock_marked db8 h]
    exact ⟨rfl, rfl, hconst 0, hconst 0⟩
  · rw [show b = _ from dbBlock_zero db8 ha hxs h0]
    refine ⟨rfl, rfl, hconst 0, fun k x hx => (getElem?_mapped _ hx).trans ?_⟩
    rw [if_congr (cmp_zero_iff (hxs x (List.mem_of_getElem? hx))) rfl rfl]
  · obtain ⟨hlo, hhi, hge, hleast⟩ := dbScale_spec db8 ha
    rw [show b = _ from dbBlock_fin db8 ha hxs h0]
    refine ⟨hlo, hhi, rfl, hge, hleast, fun k neg m e hx => ?_⟩
    obtain ⟨m0, m1, h0, h1, hel⟩ := dbElem_spec mb (if db8 then leastExp (d + 1) 63 5 a else leastExp (d + 1) 3 1 a) ((if db8 then leastExp (d + 1) 63 5 a else leastExp (d + 1) 3 1 a) - d) neg m e
    exact ⟨m0, m1, _, _, getElem?_mapped _ (getElem?_mapped _ hx), getElem?_mapped _ (getElem?_mapped _ hx), h0, h1, congrArg Prod.fst hel, congrArg Prod.snd hel⟩

/-! The value that an element reads back (R33). -/

/-- An element of a DB8 block of a register. -/
theorem convElem_db8 {buf k : Nat} (hk : k < 32) (h : fld buf 256 8 ≠ 255) : convElem 6 2 32 buf k
    = some (.fin (bitOf (fld buf (8 * k) 8) 6) (fld (fld buf (8 * k) 8) 0 6) ((fld buf (if bitOf (fld buf (8 * k) 8) 7 then 264 else 256) 8 : Int) - 132)) := by
  have hb : k / 32 = 0 := by omega
  simp only [convElem, blkElems, blkScale]
  norm_num [hb, h]
  split <;> rfl

theorem fld_fld {x lo n lo' n' : Nat} (h : lo' + n' ≤ n) : fld (fld x lo n) lo' n' = fld x (lo + lo') n' := by
  obtain ⟨j, rfl⟩ := Nat.exists_eq_add_of_le h
  unfold fld
  rw [Nat.add_assoc, Nat.pow_add, Nat.mod_mul_right_div_self, Nat.div_div_eq_div_mul, ← Nat.pow_add, Nat.mod_mod_of_dvd _ (Nat.pow_dvd_pow 2 (Nat.le_add_right n' j))]

/-- An element of a DB4 block of a register. -/
theorem convElem_db4 {buf k : Nat} (hk : k < 32) (h : fld buf 256 8 ≠ 255) : convElem 7 2 32 buf k
    = some (.fin (bitOf (fld buf (4 * k) 4) 2) (fld (fld buf (4 * k) 4) 0 2) ((fld buf (if bitOf (fld buf (4 * k) 4) 3 then 264 else 256) 8 : Int) - 128)) := by
  have hb : k / 32 = 0 := by omega
  have hn : fld (fld buf (8 * (k / 2)) 8) (4 * (k % 2)) 4 = fld buf (4 * k) 4 := by
    rw [fld_fld (by omega)]
    congr 1
    omega
  simp only [convElem, blkElems, blkScale]
  norm_num [hb, h, hn]
  split <;> rfl

/-- An element that a DB block holds: at most 6 bits, not under the step of FP32's least value. -/
theorem convElem_db_bounds {db8 : Bool} {buf k : Nat} {z : Sys2Proof.Num} (hk : k < 32) (h : convElem (if db8 then 6 else 7) 2 32 buf k = some z) :
    ∃ neg m e, z = .fin neg m e ∧ m < 2 ^ 6 ∧ -132 ≤ e ∧ e ≤ 127 := by
  have h255 : fld buf 256 8 ≠ 255 := fun h' => by
    have hb : k / 32 = 0 := by omega
    have hnone : convElem (if db8 then 6 else 7) 2 32 buf k = none := by
      cases db8 <;> simp [convElem, blkElems, blkScale, hb, h']
    rw [hnone] at h
    cases h
  cases db8 with
  | true =>
    rw [if_pos rfl, convElem_db8 hk h255] at h
    cases h
    have := fld_lt buf (if bitOf (fld buf (8 * k) 8) 7 then 264 else 256) 8
    exact ⟨_, _, _, rfl, fld_lt _ _ _, by omega, by omega⟩
  | false =>
    rw [if_neg Bool.false_ne_true, convElem_db4 hk h255] at h
    cases h
    have := fld_lt buf (if bitOf (fld buf (4 * k) 4) 3 then 264 else 256) 8
    have h2 := fld_lt (fld buf (4 * k) 4) 0 2
    exact ⟨_, _, _, rfl, by omega, by omega, by omega⟩

/-- A value of a few bits within FP32's range converts to FP32 as it is. -/
theorem convert_f32_exact {neg : Bool} {m : Nat} {e : Int} (hm : m < 2 ^ 6) (he : -132 ≤ e) (hlt : |numValue (.fin neg m e)| < 2 ^ 128) :
    numValue (Fmt.f32.decode (convert .f32 RNE 0 false (.fin neg m e)).1) = numValue (.fin neg m e) ∧ (convert .f32 RNE 0 false (.fin neg m e)).2 = 0 := by
  have habs : |numValue (.fin neg m e)| = (m : ℚ) * 2 ^ e := by
    have : (0 : ℚ) ≤ (m : ℚ) * 2 ^ e := by positivity
    cases neg <;> simp [numValue, abs_mul, abs_of_pos (zpow_pos (two_pos (α := ℚ)) e)]
  have hle : (m : ℚ) * 2 ^ e ≤ (2 ^ 24 - 1) * 2 ^ (104 : Int) := by
    have hp : (0 : ℚ) < 2 ^ e := zpow_pos two_pos e
    by_cases h104 : e ≤ 104
    · have h1 : (2 : ℚ) ^ e ≤ 2 ^ (104 : Int) := zpow_le_zpow_right₀ one_le_two h104
      have h2 : (m : ℚ) ≤ 2 ^ 24 - 1 := by
        have : (m : ℚ) ≤ 2 ^ 6 := by exact_mod_cast hm.le
        linarith
      exact mul_le_mul h2 h1 hp.le (by norm_num)
    · obtain ⟨j, rfl⟩ : ∃ j : Nat, e = 104 + j := ⟨(e - 104).toNat, by omega⟩
      rw [habs, zpow_add₀ two_ne_zero, zpow_natCast] at hlt
      rw [zpow_add₀ two_ne_zero, zpow_natCast]
      have h24 : m * 2 ^ j < 2 ^ 24 := by
        have : ((m * 2 ^ j : Nat) : ℚ) < 2 ^ 24 := by
          push_cast
          norm_num at hlt ⊢
          linarith
        exact_mod_cast this
      have h24' : ((m * 2 ^ j : Nat) : ℚ) ≤ 2 ^ 24 - 1 := by
        have : ((m * 2 ^ j : Nat) : ℚ) + 1 ≤ 2 ^ 24 := by exact_mod_cast h24
        linarith
      push_cast at h24'
      nlinarith [h24', zpow_pos (two_pos (α := ℚ)) 104]
  have htop : TopAt .f32 253 16777215 := topAt_of_mem (by decide)
  have hstep : ((253 : Nat) : Int) + Fmt.f32.emin - Fmt.f32.fb = 104 := rfl
  have hlow : Fmt.f32.emin - Fmt.f32.fb = -149 := rfl
  obtain ⟨-, hval, hfl⟩ := convert_exact htop (neg := neg) (m := m) (e := e) (hm.trans (by decide)) (by omega) (by
    rw [← Rat.cast_abs, habs, hstep]
    refine ((Rat.cast_le (K := ℝ)).2 hle).trans (le_of_eq ?_)
    push_cast
    norm_num)
  exact ⟨hval, hfl⟩

/-! The instructions (R189, R191). -/

variable {o : Ops} {s : State}

/-- BADDRQ with no lane active writes nothing. -/
theorem baddrq_idle (h : s.canIssueV o 1 [rv o.dNum, rv o.aNum, rv o.bNum]) (hoff : ∀ k, k < 32 → laneOn s.cx o k = false) : exec (.baddrq o) s = retired (.baddrq o) s := by
  show execBaddrq o s = _
  unfold execBaddrq
  rw [lanewise_done h (c := s.cx) (if_pos (List.all_eq_true.2 fun k hk => by rw [hoff k (List.mem_range.1 hk)]; rfl)), State.setCx_setCx]
  rfl

/-- BADDRQ quantises the exact sums of two DB8 blocks. -/
theorem baddrq_sums (h : s.canIssueV o 1 [rv o.dNum, rv o.aNum, rv o.bNum]) (hon : ∃ k, k < 32 ∧ laneOn s.cx o k = true) :
    let sums := (List.range 32).map fun k => match convElem 6 2 32 (s.cx.getV o.aNum).toNat k, convElem 6 2 32 (s.cx.getV o.bNum).toNat k with
      | some x, some y => (exactSum RNE [x, y]).1
      | _, _ => .inf false
    let b := dbBlock true (absMax sums) sums
    let fl := b.raised (laneOn s.cx o)
    trapsOr (.baddrq o) s fl (exec (.baddrq o) s = retired (.baddrq o) (s.setCx ((s.cx.setV o.dNum (dbRegister true b)).addFlags fl))) := by
  obtain ⟨k, hk, hkon⟩ := hon
  refine lanewise_flagged (i := .baddrq o) rfl h (if_neg fun hall => ?_)
  have := List.all_eq_true.1 hall k (List.mem_range.2 hk)
  rw [hkon] at this
  cases this

/-- VDQDB reads a block back, and exactly where it fits. -/
theorem vdqdb_end (h : s.canIssueV o 1 [rv o.dNum, rv o.aNum]) :
    let x (k : Nat) := convElem (if isDb8 o then 6 else 7) 2 32 (s.cx.getV o.aNum).toNat k
    let back (k : Nat) : Nat × Nat := (x k).elim (0x7FC00000, 0) (convert .f32 RNE 0 false)
    let fl := laneFlags s.cx o 32 fun k => (back k).2
    trapsOr (.vdqdb o) s fl (∃ d, exec (.vdqdb o) s = retired (.vdqdb o) (s.setCx d) ∧ lanesWritten s.cx d o 1 32 32 fl fun k => (back k).1) := by
  intro x back
  have hback : (fun k => match x k with
      | none => (Fmt.canon .f32, 0)
      | some z => convert .f32 RNE 0 false z) = back := by
    funext k
    cases hx : x k <;> simp only [back, hx] <;> rfl
  exact lanewise_single (i := .vdqdb o) rfl rfl h rfl back (by rw [← hback] <;> rfl)

end Sys2Proof.Machine
end

section
open Sys2Proof Sys2Proof.Machine

/-- Settles O46: the scale bytes by `dbScale_spec`, each element by `dbElem_spec`, and each instruction runs `dbBlock` or `convElem` over its lanes. -/
theorem blockConversions : Obligations.BlockConversions := by
  unfold Obligations.BlockConversions
  refine ⟨fun db8 a xs => ?_, fun buf k hk h255 => ?_, fun o s => ?_⟩
  · exact dbBlock_spec db8 a xs
  · have hsplit : ∀ (neg : Bool) (m : Nat) (e : Int) (p : Nat), numValue (.fin neg m (e - 127 - p)) = (if neg then -1 else 1) * (m : ℚ) * 2 ^ (e - 127) / 2 ^ p := fun neg m e p => by
      rw [numValue, zpow_sub₀ two_ne_zero (e - 127), zpow_natCast, mul_div_assoc]
    refine ⟨⟨_, convElem_db8 hk h255, ?_⟩, ⟨_, convElem_db4 hk h255, ?_⟩⟩
    · have := hsplit (bitOf (fld buf (8 * k) 8) 6) (fld (fld buf (8 * k) 8) 0 6) (fld buf (if bitOf (fld buf (8 * k) 8) 7 then 264 else 256) 8) 5
      norm_num [sub_sub] at this ⊢
      exact this
    · have := hsplit (bitOf (fld buf (4 * k) 4) 2) (fld (fld buf (4 * k) 4) 0 2) (fld buf (if bitOf (fld buf (4 * k) 4) 3 then 264 else 256) 8) 1
      norm_num [sub_sub] at this ⊢
      exact this
  · refine ⟨fun h => lanewise_flagged (i := .vqdb o) rfl h rfl, fun h => ⟨vdqdb_end h, fun k z hk hz hlt => ?_⟩, fun h => ?_, fun h => ⟨baddrq_idle h, baddrq_sums h⟩⟩
    · obtain ⟨neg, m, e, rfl, hm, he, -⟩ := convElem_db_bounds hk hz
      have hz' : convElem (if (vfTy o == 0) = true then 6 else 7) 2 32 (s.cx.getV o.aNum).toNat k = some (.fin neg m e) := hz
      simp only [hz']
      exact convert_f32_exact hm he hlt
    · rw [← firstNan_flag]
      exact lanewise_flagged (i := .vbmax o) rfl h rfl

end

section
/-! SUPPORT. WAITC, its probes and its time-out, IDLE, and the ends of pending traps, results and report windows (R47, R104, R107, R131 to R134, R254). -/

set_option Elab.async false

namespace Sys2Proof.Machine

open Sys2Proof

/-! The evaluation of a combination (R132, R133). -/

theorem vget_raised_lt {v : Vector EcFlag 16} {n : Nat} (h : vget v n .clear = .raised) : n < 16 := by
  by_contra hn
  rw [vget, Vector.getElem?_eq_none (Nat.not_lt.1 hn)] at h
  cases h

/-- Flags that move to reported stay so. -/
theorem vget_reported_foldl {n : Nat} (hn : n < 16) (l : List Nat) (v : Vector EcFlag 16) (h : n ∈ l ∨ vget v n .clear = .reported) :
    vget (l.foldl (fun v n => v.setIfInBounds n .reported) v) n .clear = .reported := by
  induction l generalizing v with
  | nil => exact h.resolve_left List.not_mem_nil
  | cons m l ih =>
    refine ih _ ?_
    by_cases hm : n = m
    · exact .inr (hm ▸ vget_set_same v (hm ▸ hn) _ _)
    · exact h.imp (fun hmem => (List.mem_cons.1 hmem).resolve_left hm) fun hv => (vget_set_other v hm _ _).trans hv

variable {c : Core} {all : Bool} {ws : List Nat} {ps : List Probe}

theorem waitcEval_raised (h : ∃ n ∈ condCounters ws, vget c.ecf n .clear = .raised) :
    ∃ f, waitcEval c all ws ps = (some false, { c with ecf := f }) ∧ ∀ n ∈ condCounters ws, vget c.ecf n .clear = .raised → vget f n .clear = .reported := by
  have hmem : ∀ n ∈ condCounters ws, vget c.ecf n .clear = .raised → n ∈ (condCounters ws).filter fun n => vget c.ecf n .clear == .raised := fun n hn hr => List.mem_filter.2 ⟨hn, by rw [hr]; rfl⟩
  obtain ⟨m, hm, hmr⟩ := h
  exact ⟨_, if_pos (List.ne_nil_of_mem (hmem m hm hmr)), fun n hn hr => vget_reported_foldl (vget_raised_lt hr) _ _ (.inl (hmem n hn hr))⟩

theorem waitcEval_clear (h : ∀ n ∈ condCounters ws, vget c.ecf n .clear = .clear) : waitcEval c all ws ps = (if combination c all ws ps then some true else none, c) := by
  have hnil : ((condCounters ws).filter fun n => vget c.ecf n .clear == .raised) = [] := List.filter_eq_nil_iff.2 fun n hn => by rw [h n hn]; decide
  unfold waitcEval
  simp only [hnil, ne_eq, not_true_eq_false, if_false]
  split <;> rfl

/-- A combination asks a core for its counters and barriers alone. -/
theorem combination_congr {d : Core} (hec : d.ec = c.ec) (hbars : d.bars = c.bars) : combination d all ws ps = combination c all ws ps := by
  have : condHolds d all = condHolds c all := by
    funext w p
    unfold condHolds
    rw [hec, hbars]
  unfold combination
  rw [this]

theorem reportedCounter_none (h : ∀ n ∈ condCounters ws, vget c.ecf n .clear ≠ .reported) : reportedCounter c ws = none :=
  List.find?_eq_none.2 fun n hn he => h n hn (beq_iff_eq.1 he)

/-- What a WAITC that completes with `b` leaves in its context. -/
theorem Ctx.setP_retire (c : Ctx) (n : Nat) (b : Bool) (i : Instr) (m : Bool) : ((c.setP n b).retire i m).p = (c.setP n b).p ∧ ((c.setP n b).retire i m).wait = .none
    ∧ ((c.setP n b).retire i m).g = c.g ∧ ((c.setP n b).retire i m).v = c.v ∧ ((c.setP n b).retire i m).vm = c.vm := by
  obtain ⟨l0, l1, pc, h⟩ := (c.setP n b).retire_eq i m
  have hset : c.setP n b = { c with p := (c.setP n b).p } := by
    unfold Ctx.setP
    split <;> rfl
  rw [h, hset]
  exact ⟨rfl, rfl, rfl, rfl, rfl⟩

/-! WAITC at issue (R132 to R134). -/

variable {o : Ops} {s : State}

/-- What a WAITC whose conditions may be asked does with their evaluation `r`. -/
def State.waitcEnd (s : State) (o : Ops) (ckid : Nat) (r : Option Bool × Core) : Eff :=
  let c := s.cx
  let ws := condWords o c
  match r.1 with
  | some b => .done ((s.setCo r.2).setCx (c.setP o.dNum b))
  | none =>
    if bitOf (o.clsOr 0) 4 = true ∧ (c.getG o.bNum).toNat = 0 ∧ ws.all (fun w => condKind w ≤ 1) = true then
      if s.leaveReady s.cur (s.entryWords s.coreNo c ckid) = false then .stall
      else match s.saveContext s.cur ckid with
        | .error t => .trap t
        | .ok u => .gone ((u.setCo { u.co with ecWait := u.co.ecWait ++ [(u.leaveEntry u.cur true, condCounters ws)] }).vacate u.cur)
    else .hold (.waitc (if (c.getG o.bNum).toNat = 0 then 0 else s.tick + (c.getG o.bNum).toNat) (firstProbes c ws)) (s.setCx (c.mark true (rp o.dNum)))

section
variable (h : s.canIssue o (grp rg o.aNum (groupSize o) ++ [rg o.bNum, rp o.dNum] ++ condMasks (condWords o s.cx))) {ckid : Nat} (hk : s.checkpoint s.coreNo s.cx s.cx.pc = some ckid)
  (hb : (condWords o s.cx).any condBad = false) (hw : waitcWords s (condWords o s.cx) = none)
include h hk hb hw

theorem waitc_reported {n : Nat} (hr : reportedCounter s.co (condWords o s.cx) = some n) : exec (.waitc o) s = .next (s.raise (s.co.ecTrap n)) := by
  show execWaitc o s = _
  rw [execWaitc, issue_run h]
  simp only [h.1.2.1, hk, hb, hw, hr, ne_eq, not_true_eq_false, Bool.false_eq_true, if_false]
  rfl

theorem waitc_run (hr : reportedCounter s.co (condWords o s.cx) = none) :
    exec (.waitc o) s = finishWith (.waitc o) o s (s.waitcEnd o ckid (waitcEval s.co (waitcAll o) (condWords o s.cx) (firstProbes s.cx (condWords o s.cx)))) := by
  show execWaitc o s = _
  rw [execWaitc, issue_run h]
  simp only [h.1.2.1, hk, hb, hw, hr, ne_eq, not_true_eq_false, Bool.false_eq_true, if_false]
  refine congrArg (finishWith _ _ _) ?_
  unfold State.waitcEnd
  generalize waitcEval s.co (waitcAll o) (condWords o s.cx) (firstProbes s.cx (condWords o s.cx)) = r
  obtain ⟨b | b, co⟩ := r
  · exact if_congr Iff.rfl (if_congr Iff.rfl rfl (by cases s.saveContext s.cur ckid <;> rfl)) rfl
  · rfl

/-- A WAITC whose evaluation has an answer completes with it. -/
theorem waitc_answered (hr : reportedCounter s.co (condWords o s.cx) = none) {b : Bool} {d : Core}
    (he : waitcEval s.co (waitcAll o) (condWords o s.cx) (firstProbes s.cx (condWords o s.cx)) = (some b, d)) :
    exec (.waitc o) s = .next ((s.setCo d).setCx ((s.cx.setP o.dNum b).retire (.waitc o) o.s)) := by
  rw [waitc_run h hk hb hw hr, he, State.waitcEnd, finishWith_done, State.cx_setCx, State.setCx_setCx]

/-- A WAITC without an answer waits, with its predicate register pending. -/
theorem waitc_waits (hr : reportedCounter s.co (condWords o s.cx) = none) {d : Core}
    (he : waitcEval s.co (waitcAll o) (condWords o s.cx) (firstProbes s.cx (condWords o s.cx)) = (none, d))
    (hpark : ¬(bitOf (o.clsOr 0) 4 = true ∧ s.cx.getG o.bNum = 0 ∧ ∀ w ∈ condWords o s.cx, condKind w ≤ 1)) :
    exec (.waitc o) s = waits (.waitc o) (.waitc (if s.cx.getG o.bNum = 0 then 0 else s.tick + (s.cx.getG o.bNum).toNat) (firstProbes s.cx (condWords o s.cx)))
      (s.setCx (s.cx.mark true (rp o.dNum))) := by
  have hzero : (s.cx.getG o.bNum).toNat = 0 ↔ s.cx.getG o.bNum = 0 := BitVec.toNat_inj (y := 0)
  rw [waitc_run h hk hb hw hr, he, State.waitcEnd]
  dsimp only
  rw [if_neg fun hp => hpark ⟨hp.1, hzero.1 hp.2.1, fun w hw => of_decide_eq_true (List.all_eq_true.1 hp.2.2 w hw)⟩, if_congr hzero rfl rfl]
  rfl

/-- A WAITC without an answer leaves its core under `.park`, once what its save needs is there. -/
theorem waitc_leaves (hr : reportedCounter s.co (condWords o s.cx) = none) {d : Core}
    (he : waitcEval s.co (waitcAll o) (condWords o s.cx) (firstProbes s.cx (condWords o s.cx)) = (none, d))
    (hpark : bitOf (o.clsOr 0) 4 = true ∧ s.cx.getG o.bNum = 0 ∧ ∀ w ∈ condWords o s.cx, condKind w ≤ 1)
    (hl : s.leaveReady s.cur (s.entryWords s.coreNo s.cx ckid) = true) {u : State} (hu : s.saveContext s.cur ckid = .ok u) :
    exec (.waitc o) s = .next ((u.setCo { u.co with ecWait := u.co.ecWait ++ [(u.leaveEntry u.cur true, condCounters (condWords o s.cx))] }).vacate u.cur) := by
  rw [waitc_run h hk hb hw hr, he, State.waitcEnd]
  dsimp only
  rw [if_pos ⟨hpark.1, congrArg BitVec.toNat hpark.2.1, List.all_eq_true.2 fun w hw => decide_eq_true (hpark.2.2 w hw)⟩, if_neg (by rw [hl]; decide), hu]
  rfl

end

theorem Core.releaseCtx_ecWait (c : Core) (slot : Nat) : (c.releaseCtx slot).ecWait = c.ecWait := by
  rw [Core.releaseCtx_eq, Core.retake_keeps (put := Core.setAccOwn) (g := Core.ecWait) (hg := fun _ _ _ => rfl)]
  exact Core.retake_keeps (g := Core.ecWait) (hg := fun _ _ _ => rfl) ..

theorem State.vacate_ecWait (s : State) (k j : Nat) : ((s.vacate k).core j).ecWait = (s.core j).ecWait := by
  unfold State.vacate
  rw [State.freeCtx_core, State.core_setCore]
  split
  · subst_vars
    exact Core.releaseCtx_ecWait _ _
  · rfl

theorem State.vacate_mem (s : State) (k : Nat) : (s.vacate k).mem = s.mem := (State.freeCtx_sameMemory _ _).1

theorem State.vacate_cur (s : State) (k : Nat) : (s.vacate k).cur = s.cur := State.freeCtx_frame (f := State.cur) (fun _ _ _ => rfl) (fun _ _ _ => rfl)

/-- What a context that parks at a WAITC leaves: its record waits for the counters. -/
theorem State.parked_spec {s u : State} (hu : Wrote s u) (ws : List Nat) :
    let t := (u.setCo { u.co with ecWait := u.co.ecWait ++ [(u.leaveEntry u.cur true, condCounters ws)] }).vacate u.cur
    (t.ctx s.cur).occ = false ∧ t.co.ecWait = s.co.ecWait ++ [(u.leaveEntry u.cur true, condCounters ws)] ∧ (u.leaveEntry u.cur true).rcd = s.cx.rcd
      ∧ (u.leaveEntry u.cur true).uid = s.cx.uid ∧ (u.leaveEntry u.cur true).pin = some s.coreNo ∧ t.mem = u.mem := by
  intro t
  have hcur : t.cur = u.cur := State.vacate_cur _ _
  have hctx : u.ctx u.cur = s.cx := hu.cx
  obtain ⟨dc, hcore⟩ := hu.core s.coreNo
  have hco : u.co = { s.co with dcache := dc } := by rw [State.co, hu.coreNo, hcore]; rfl
  refine ⟨?_, ?_, congrArg Ctx.rcd hctx, congrArg Ctx.uid hctx, ?_, State.vacate_mem _ _⟩
  · rw [← hu.cur]
    exact State.freeCtx_occ _ _
  · have : t.co = t.core u.coreNo := by rw [State.co, State.coreNo, hcur]; rfl
    rw [this, State.vacate_ecWait]
    show ((u.setCo _).co).ecWait = _
    rw [State.co_setCo, hco]
  · show some (u.cur / 8) = _
    rw [hu.cur]
    rfl

/-! IDLE (R254). -/

theorem idle_run (h : s.canIssue o [rg o.aNum]) (hk : s.atCheckpoint = true) :
    exec (.idle o) s = if (s.cx.getG o.aNum).toNat ≤ s.now.toNat then retired (.idle o) s else waits (.idle o) (.idle (s.cx.getG o.aNum).toNat) s := by
  show execIdle o s = _
  rw [execIdle, issue_run h]
  simp only [h.1.2.1, hk, ne_eq, not_true_eq_false, Bool.true_eq_false, if_false, State.tick]
  exact apply_ite _ _ _ _

theorem idle_ckmiss (h : s.canIssue o [rg o.aNum]) (hp : s.poison = []) (hk : s.atCheckpoint = false) : exec (.idle o) s = .next (s.raise { cause := 10 }) := by
  have htrap : s.ckTrap = ckmiss := by
    unfold State.ckTrap State.ckPoison
    rw [if_pos hp]
    rfl
  show execIdle o s = _
  rw [execIdle, issue_run h]
  simp only [h.1.2.1, hk, htrap, ne_eq, not_true_eq_false, if_false, if_true]
  rfl

/-! Pending bits. -/

/-- A mark off takes the bit of its general register alone (R104). -/
theorem Ctx.pending_unmark_rg (c : Ctx) {d : Nat} (hd : d < 64) (h0 : d ≠ 0) (r : Nat) : (c.mark false (rg d)).pending r = if r = rg d then false else c.pending r := by
  have hdiv : d / 64 = 0 := Nat.div_eq_of_lt hd
  have hmod : d % 64 = d := Nat.mod_eq_of_lt hd
  have hmark : c.mark false (rg d) = { c with pendG := c.pendG &&& ~~~BitVec.ofNat 64 (2 ^ d) } := by simp [Ctx.mark, rg, hdiv, hmod, h0]
  rw [hmark]
  by_cases hr : r / 64 = 0
  · have hr64 : r < 64 := by omega
    have hrm : r % 64 = r := Nat.mod_eq_of_lt hr64
    have hbit : (BitVec.ofNat 64 (2 ^ d)).getLsbD r = decide (d = r) := by
      rw [BitVec.getLsbD_ofNat, Nat.testBit_two_pow, decide_eq_true hr64, Bool.true_and]
    simp only [Ctx.pending, hr, hrm, BitVec.getLsbD_and, BitVec.getLsbD_not, hbit, rg]
    by_cases h : d = r
    · simp [h]
    · simp [h, Ne.symm h, hr64]
  · rw [if_neg fun h => hr (by rw [h]; exact hdiv)]
    unfold Ctx.pending
    dsimp only
    split
    · exact absurd ‹_› hr
    all_goals rfl

/-- A mark off takes the bit of its predicate register (R104). -/
theorem Ctx.pending_unmark_rp (c : Ctx) {d : Nat} (hd : d < 8) (h0 : d ≠ 0) : (c.mark false (rp d)).pending (rp d) = false := by
  have hdiv : (128 + d) / 64 = 2 := by omega
  have hmod : (128 + d) % 64 = d := by omega
  have hbit : (BitVec.ofNat 8 (2 ^ d)).getLsbD d = true := by rw [BitVec.getLsbD_ofNat, decide_eq_true hd, Nat.testBit_two_pow_self, Bool.true_and]
  simp only [Ctx.mark, Ctx.pending, rp, hdiv, hmod, h0, if_false, Bool.false_eq_true, BitVec.getLsbD_and, BitVec.getLsbD_not, hbit, Bool.not_true, Bool.and_false]

/-! The events of a wait (R132, R254). -/

theorem State.completeHeld_some {s : State} {k : Nat} {i : Instr} (h : (s.ctx k).held = some i) (f : Ctx → Ctx) :
    s.completeHeld k f = s.setCtx k ((f (s.ctx k)).retire i (Instr.marker i)) := by
  unfold State.completeHeld
  dsimp only
  rw [h]

/-- A core keeps no copy of a line that it forgets. -/
theorem State.forget_line (s : State) (core pa : Nat) : ∀ e ∈ ((s.forget core .here pa 8).core core).dcache, e.1 ≠ pa / 64 := by
  have hkey : pa / 64 ∈ keysAt .here pa 8 := by
    refine List.mem_map.2 ⟨64 * (pa / 64 + 0), ?_, ?_⟩
    · rw [linesAt, if_neg (by decide)]
      exact List.mem_map.2 ⟨0, List.mem_range.2 (by omega), rfl⟩
    · exact Nat.mul_div_cancel_left _ (by decide)
  intro e he heq
  have hmem : e ∈ (s.core core).dcache.filter fun e => !(keysAt .here pa 8).contains e.1 := by
    unfold State.forget at he
    simpa using he
  have hno := (List.mem_filter.1 hmem).2
  rw [heq, List.contains_iff_mem.2 hkey] at hno
  cases hno

theorem State.forget_core (s : State) (core : Nat) (p : Place) (pa n j : Nat) : ∃ dc, (s.forget core p pa n).core j = { s.core j with dcache := dc } := by
  unfold State.forget
  rw [State.core_setCluster, State.core_setCore]
  split
  · subst_vars
    exact ⟨_, rfl⟩
  · exact ⟨_, rfl⟩

/-- The probes of a WAITC once condition `i` has its answer. -/
def probesAfter (ps : List Probe) (i j : Nat) (b : Bool) (now : Nat) : List Probe := ps.set i { answer := some b, j := j + 1, till := now + backoff j }

/-- The state in which a probe's answer is known and the combination not yet asked. -/
def State.answered (s : State) (core k w deadline : Nat) (ps : List Probe) : State :=
  (s.forget core .here (s.probed k w) 8).setCtx k { s.ctx k with wait := .waitc deadline ps }

theorem waitcProbe_run {core slot i deadline w : Nat} {ps : List Probe} {p : Probe} {b : Bool} (hs : s.still = false) (hwait : (s.ctx (8 * core + slot)).wait = .waitc deadline ps)
    (hheld : (s.ctx (8 * core + slot)).held = some (.waitc o)) (hw : (condWords o (s.ctx (8 * core + slot)))[i]? = some w) (hp : ps[i]? = some p) (hon : condOnWord w = true)
    (htill : p.till ≤ s.tick) (hb : s.probe (8 * core + slot) w = some b) :
    exec (.waitcProbe core slot i) s = .next ((s.answered core (8 * core + slot) w deadline (probesAfter ps i p.j b s.tick)).reevaluate (8 * core + slot)) := by
  show execWaitcProbe core slot i s = _
  rw [execWaitcProbe, event_on rfl hs]
  simp only [hwait, hheld, hw, hp, hon, hb, Bool.true_eq_false, not_lt.2 htill, or_self, if_false, State.answered, probesAfter]

section
variable {k deadline : Nat} {ps : List Probe} (hwait : (s.ctx k).wait = .waitc deadline ps) (hheld : (s.ctx k).held = some (.waitc o))
include hwait hheld

/-- After the deadline nothing is evaluated (log 31). -/
theorem State.reevaluate_late (h0 : deadline ≠ 0) (hd : deadline ≤ s.tick) : s.reevaluate k = s := by
  unfold State.reevaluate
  simp only [hwait, hheld]
  exact if_pos ⟨h0, hd⟩

variable (hclear : ∀ n ∈ condCounters (condWords o (s.ctx k)), vget (s.core (k / 8)).ecf n .clear = .clear)
include hclear

/-- With no flag up, a combination that does not hold leaves a WAITC waiting. -/
theorem State.reevaluate_fails (hc : combination (s.core (k / 8)) (waitcAll o) (condWords o (s.ctx k)) ps = false) : s.reevaluate k = s := by
  unfold State.reevaluate
  simp only [hwait, hheld, waitcEval_clear hclear, hc, Bool.false_eq_true, if_false]
  exact ite_self s

/-- With no flag up, a combination that holds before the deadline completes its WAITC with 1. -/
theorem State.reevaluate_holds (hd : ¬(deadline ≠ 0 ∧ deadline ≤ s.tick)) (hc : combination (s.core (k / 8)) (waitcAll o) (condWords o (s.ctx k)) ps = true) :
    s.reevaluate k = (s.setCore (k / 8) (s.core (k / 8))).setCtx k ((((s.ctx k).setP o.dNum true).mark false (rp o.dNum)).retire (.waitc o) o.s) := by
  unfold State.reevaluate
  simp only [hwait, hheld, waitcEval_clear hclear, hc, if_true]
  rw [if_neg hd, State.completeHeld_some (i := .waitc o) (by rw [State.ctx_setCore]; exact hheld)]
  rfl

end

/-- The answer of a probe leaves memory and the other contexts, and takes every copy of the word's line. -/
theorem State.answered_beside (s : State) (core k w deadline : Nat) (ps : List Probe) :
    sameMemory s (s.answered core k w deadline ps) ∧ sameContexts s (s.answered core k w deadline ps) k ∧ ∀ e ∈ ((s.answered core k w deadline ps).core core).dcache, e.1 ≠ s.probed k w / 64 :=
  ⟨⟨rfl, rfl, rfl, rfl⟩, fun _ hj => State.ctx_setCtx_other _ hj _, s.forget_line core _⟩

/-- Completing the WAITC of a context leaves memory, the other contexts and the copies. -/
theorem State.completed_beside (s : State) (core k : Nat) (c : Ctx) : sameMemory s ((s.setCore (k / 8) (s.core (k / 8))).setCtx k c)
    ∧ sameContexts s ((s.setCore (k / 8) (s.core (k / 8))).setCtx k c) k ∧ ((s.setCore (k / 8) (s.core (k / 8))).setCtx k c).core core = s.core core := by
  refine ⟨⟨rfl, rfl, rfl, rfl⟩, fun _ hj => State.ctx_setCtx_other _ hj _, ?_⟩
  rw [State.core_setCtx, State.core_setCore]
  split
  · rename_i hk
    rw [hk]
  · rfl

/-- What the answer of a probe does (R132; logs 10 and 31). -/
theorem waitcProbe_spec {core slot i deadline w : Nat} {ps : List Probe} {p : Probe} {b : Bool} (hs : s.still = false)
    (hwait : (s.ctx (8 * core + slot)).wait = .waitc deadline ps)
    (hheld : (s.ctx (8 * core + slot)).held = some (.waitc o)) (hw : (condWords o (s.ctx (8 * core + slot)))[i]? = some w) (hp : ps[i]? = some p) (hon : condOnWord w = true)
    (htill : p.till ≤ s.tick) (hb : s.probe (8 * core + slot) w = some b)
    (hclear : ∀ n ∈ condCounters (condWords o (s.ctx (8 * core + slot))), vget (s.core ((8 * core + slot) / 8)).ecf n .clear = .clear) :
    let k := 8 * core + slot
    let c := s.ctx k
    let ws := condWords o c
    let ps' := probesAfter ps i p.j b s.tick
    ∃ t, exec (.waitcProbe core slot i) s = .next t ∧ sameMemory s t ∧ sameContexts s t k ∧ (∀ e ∈ (t.core core).dcache, e.1 ≠ s.probed k w / 64)
      ∧ (combination (s.core (k / 8)) (waitcAll o) ws ps' = false → (t.ctx k).wait = .waitc deadline ps' ∧ (t.ctx k).p = c.p)
      ∧ (deadline ≠ 0 → deadline ≤ s.tick → (t.ctx k).wait = .waitc deadline ps' ∧ (t.ctx k).p = c.p)
      ∧ (deadline = 0 ∨ s.tick < deadline → combination (s.core (k / 8)) (waitcAll o) ws ps' = true →
        (t.ctx k).wait = .none ∧ (t.ctx k).p = (c.setP o.dNum true).p ∧ (o.dNum ≠ 0 → o.dNum < 8 → (t.ctx k).pending (rp o.dNum) = false)) := by
  intro k c ws ps'
  obtain ⟨u, hu⟩ : ∃ u, u = s.answered core k w deadline ps' := ⟨_, rfl⟩
  have huctx : u.ctx k = { c with wait := .waitc deadline ps' } := hu ▸ State.ctx_setCtx_same _ _ _
  have hucore : ∃ dc, u.core (k / 8) = { s.core (k / 8) with dcache := dc } := hu ▸ s.forget_core core .here (s.probed k w) 8 (k / 8)
  obtain ⟨dc, hucore⟩ := hucore
  have huwait : (u.ctx k).wait = .waitc deadline ps' := by rw [huctx]
  have huheld : (u.ctx k).held = some (.waitc o) := by rw [huctx]; exact hheld
  have hutick : u.tick = s.tick := hu ▸ rfl
  have hwords : condWords o (u.ctx k) = ws := by rw [huctx]; rfl
  have huclear : ∀ n ∈ condCounters (condWords o (u.ctx k)), vget (u.core (k / 8)).ecf n .clear = .clear := by rw [hwords, hucore]; exact hclear
  have hcomb : combination (u.core (k / 8)) (waitcAll o) (condWords o (u.ctx k)) ps' = combination (s.core (k / 8)) (waitcAll o) ws ps' := by
    rw [hwords]
    exact combination_congr (by rw [hucore]) (by rw [hucore])
  obtain ⟨hmem, hctxs, hline⟩ := s.answered_beside core k w deadline ps'
  rw [← hu] at hmem hctxs hline
  have hrun : exec (.waitcProbe core slot i) s = .next (u.reevaluate k) := hu ▸ waitcProbe_run hs hwait hheld hw hp hon htill hb
  have hstays : (u.ctx k).wait = .waitc deadline ps' ∧ (u.ctx k).p = c.p := ⟨huwait, by rw [huctx]⟩
  by_cases hlate : deadline ≠ 0 ∧ deadline ≤ s.tick
  · rw [State.reevaluate_late huwait huheld hlate.1 (hutick ▸ hlate.2)] at hrun
    exact ⟨u, hrun, hmem, hctxs, hline, fun _ => hstays, fun _ _ => hstays, fun hd => absurd hlate fun h => hd.elim h.1 (not_lt.2 h.2)⟩
  · by_cases hc : combination (s.core (k / 8)) (waitcAll o) ws ps' = true
    · rw [State.reevaluate_holds huwait huheld huclear (hutick ▸ hlate) (hcomb.trans hc)] at hrun
      obtain ⟨hm, hx, hco⟩ := u.completed_beside core k ((((u.ctx k).setP o.dNum true).mark false (rp o.dNum)).retire (.waitc o) o.s)
      refine ⟨_, hrun, hmem.trans hm, fun j hj => (hx j hj).trans (hctxs j hj), by rw [hco]; exact hline, fun h => (by rw [hc] at h; cases h), fun h0 hd => absurd ⟨h0, hd⟩ hlate, fun _ _ => ?_⟩
      rw [State.ctx_setCtx_same]
      have hfile := ((Ctx.file_retire _ (.waitc o) o.s).trans (Ctx.file_marks ((u.ctx k).setP o.dNum true) false [rp o.dNum]))
      refine ⟨?_, (sameRegisters_of_file hfile).1.2.2.1.trans ?_, fun h0 h8 => (Ctx.pending_retire _ _ _ _).trans (Ctx.pending_unmark_rp _ h8 h0)⟩
      · obtain ⟨l0, l1, pc, h⟩ := (((u.ctx k).setP o.dNum true).mark false (rp o.dNum)).retire_eq (.waitc o) o.s
        rw [h]
      · rw [huctx]
        unfold Ctx.setP
        split <;> rfl
    · rw [State.reevaluate_fails huwait huheld huclear (hcomb.trans (Bool.eq_false_iff.2 hc))] at hrun
      exact ⟨u, hrun, hmem, hctxs, hline, fun _ => hstays, fun _ _ => hstays, fun _ h => absurd h hc⟩

theorem waitcTimeout_run {core slot deadline : Nat} {ps : List Probe} (hs : s.still = false) (hwait : (s.ctx (8 * core + slot)).wait = .waitc deadline ps)
    (hheld : (s.ctx (8 * core + slot)).held = some (.waitc o)) (h0 : deadline ≠ 0) (hd : deadline ≤ s.tick) :
    exec (.waitcTimeout core slot) s = .next (s.setCtx (8 * core + slot) ((((s.ctx (8 * core + slot)).setP o.dNum false).mark false (rp o.dNum)).retire (.waitc o) o.s)) := by
  show execWaitcTimeout core slot s = _
  rw [execWaitcTimeout, event_on rfl hs]
  simp only [hwait, hheld, h0, not_lt.2 hd, or_self, if_false, State.completeHeld_some hheld]
  rfl

theorem idleWake_run {core slot t : Nat} (hs : s.still = false) (hwait : (s.ctx (8 * core + slot)).wait = .idle t) (hheld : (s.ctx (8 * core + slot)).held = some (.idle o)) (ht : t ≤ s.tick) :
    exec (.idleWake core slot) s = .next (s.setCtx (8 * core + slot) ((s.ctx (8 * core + slot)).retire (.idle o) o.s)) := by
  show execIdleWake core slot s = _
  rw [execIdleWake, event_on rfl hs]
  simp only [hwait, ht, if_true, State.completeHeld_some hheld]
  rfl

/-! The entry of a trap that was pending (R107, R352, R353). -/

theorem trapEntry_run {core slot : Nat} {tr : Trap} (hs : s.still = false) (ht : (s.ctx (8 * core + slot)).trap = some tr) (hd : (s.ctx (8 * core + slot)).drained = true) :
    exec (.trapEntry core slot) s = .next (s.enterTrap (8 * core + slot) tr) := by
  show execTrapEntry core slot s = _
  rw [execTrapEntry, event_on rfl hs]
  simp only [ht, hd, if_true]

theorem State.report_frame {α : Type} {f : State → α} (hf : ∀ (t : State) n c, f (t.setCluster n c) = f t) (s : State) (k cause : Nat) (pc : Word) : f (s.report k cause pc) = f s := by
  unfold State.report
  dsimp only
  split
  · rfl
  · exact hf _ _ _

theorem State.stopAt_mem (s : State) (k : Nat) : (s.stopAt k).mem = (s.putSaved k).mem := by
  unfold State.stopAt
  dsimp only
  rw [State.setCluster_mem, (State.idleRow_sameMemory _ k).1, State.setCtx_mem]

/-- The context that enters a trap: with `stopped` when its handler cannot be fetched (R353). -/
theorem State.enterTrap_ctxs (s : State) (k : Nat) (tr : Trap) :
    (s.enterTrap k tr).ctxs = tset s.ctxs k ((s.ctx k).enter tr) ∧ sameMemory s (s.enterTrap k tr)
    ∨ (s.enterTrap k tr).ctxs = tset s.ctxs k { (s.ctx k).enter tr with stopped := true } ∧ ∀ a, a < s.savedAt k ∨ s.savedAt k + 0x4000 ≤ a → mget (s.enterTrap k tr).mem a = mget s.mem a := by
  obtain ⟨u, hu⟩ : ∃ u, u = (s.setCtx k ((s.ctx k).enter tr)).report (tr.leader.getD k) tr.cause (tr.xpc.getD (s.ctx k).pc) := ⟨_, rfl⟩
  have hframe : ∀ {α : Type} (f : State → α), (∀ (t : State) n c, f (t.setCluster n c) = f t) → f u = f (s.setCtx k ((s.ctx k).enter tr)) := fun f hf => hu ▸ State.report_frame hf _ _ _ _
  have hctxs : u.ctxs = tset s.ctxs k ((s.ctx k).enter tr) := hframe State.ctxs fun _ _ _ => rfl
  have hctx : u.ctx k = (s.ctx k).enter tr := by rw [State.ctx, hctxs, tget_tset_same]
  have hrun : s.enterTrap k tr = if u.cannotFetch k then u.stopAt k else u := by rw [hu]; rfl
  rw [hrun]
  split
  · refine .inr ⟨?_, fun a ha => ?_⟩
    · rw [State.stopAt_ctxs, hctx, hctxs, tset_tset]
    · have hat : u.savedAt k = s.savedAt k := by
        unfold State.savedAt State.dctx
        rw [hctx, hframe State.devctxs fun _ _ _ => rfl]
        rfl
      rw [State.stopAt_mem, (u.putSaved_spec k).2 a (by rw [hat]; exact ha), hframe State.mem fun _ _ _ => rfl]
      rfl
  · exact .inl ⟨hctxs, hframe State.mem fun _ _ _ => rfl, hframe State.rmem fun _ _ _ => rfl, hframe State.lineMeta fun _ _ _ => rfl, hframe State.poison fun _ _ _ => rfl⟩

/-- What the entry of a pending trap leaves (R352, R353). -/
theorem trapEntry_spec {core slot : Nat} {tr : Trap} (hs : s.still = false) (ht : (s.ctx (8 * core + slot)).trap = some tr) (hd : (s.ctx (8 * core + slot)).drained = true) :
    let k := 8 * core + slot
    let c := s.ctx k
    ∃ t, exec (.trapEntry core slot) s = .next t ∧ (t.ctx k).trap = none ∧ (t.ctx k).pc = c.sr.tvec ∧ (t.ctx k).super = true ∧ (t.ctx k).sr.xcause = BitVec.ofNat 64 tr.cause ∧ (t.ctx k).sr.xaddr = tr.xaddr ∧ (t.ctx k).sr.xinfo = tr.xinfo
      ∧ (t.ctx k).sr.xpc = BitVec.ofNat 64 ((tr.xpc.getD c.pc).toNat % 2 ^ 56) ∧ sameRegisters c (t.ctx k) [] ∧ sameContexts s t k
      ∧ ((t.ctx k).stopped = false → sameMemory s t) ∧ ∀ a, a < s.savedAt k ∨ s.savedAt k + 0x4000 ≤ a → mget t.mem a = mget s.mem a := by
  intro k c
  have hsuper := c.enter_super tr
  have hxpc : (c.enter tr).sr.xpc = BitVec.ofNat 64 ((tr.xpc.getD c.pc).toNat % 2 ^ 56) := congrArg (BitVec.ofNat 64) (fld_low _ _)
  refine ⟨_, trapEntry_run hs ht hd, ?_⟩
  rcases s.enterTrap_ctxs k tr with ⟨hctxs, hmem⟩ | ⟨hctxs, hmem⟩
  · have hctx : (s.enterTrap k tr).ctx k = c.enter tr := by rw [State.ctx, hctxs, tget_tset_same]
    rw [hctx]
    exact ⟨rfl, rfl, hsuper, rfl, rfl, rfl, hxpc, .refl c, .of_ctxs hctxs, fun _ => hmem, fun a _ => by rw [hmem.1]⟩
  · have hctx : (s.enterTrap k tr).ctx k = { c.enter tr with stopped := true } := by rw [State.ctx, hctxs, tget_tset_same]
    rw [hctx]
    exact ⟨rfl, rfl, hsuper, rfl, rfl, rfl, hxpc, .refl c, .of_ctxs hctxs, nofun, hmem⟩

/-! The writeback of a result (R45, R104). -/

/-- A context as one general register of it takes its result. -/
def Ctx.took (c : Ctx) (d : Nat) (x : Word) (fl : Nat) : Ctx := ((c.setG d x).mark false (rg d)).addFlags fl

theorem resultWriteback_run {core n slot d fl : Nat} {x : Word} (hs : s.still = false) (hr : (s.core core).results[n]? = some { slot, g := [(d, x)], flags := fl }) :
    exec (.resultWriteback core n) s = .next ((s.setCore core { s.core core with results := (s.core core).results.eraseIdx n }).setCtx (8 * core + slot) ((s.ctx (8 * core + slot)).took d x fl)) := by
  show execResultWriteback core n s = _
  rw [execResultWriteback, event_on rfl hs]
  simp only [hr]
  rfl

theorem Ctx.took_spec (c : Ctx) {d : Nat} (hd : d < 64) (h0 : d ≠ 0) (x : Word) (fl : Nat) :
    (c.took d x fl).getG d = x ∧ (c.took d x fl).pending (rg d) = false ∧ (∀ j, j ≠ d → (c.took d x fl).getG j = c.getG j) ∧ (∀ r, r ≠ rg d → (c.took d x fl).pending r = c.pending r)
      ∧ (c.took d x fl).sr.xflags = c.sr.xflags ||| BitVec.ofNat 64 fl ∧ (c.took d x fl).pc = c.pc := by
  have hmark : ((c.setG d x).mark false (rg d)) = { c.setG d x with pendG := ((c.setG d x).mark false (rg d)).pendG } := by
    have hdiv : d / 64 = 0 := Nat.div_eq_of_lt hd
    simp [Ctx.mark, rg, hdiv, Nat.mod_eq_of_lt hd, h0]
  have hset : c.setG d x = { c with g := c.g.setIfInBounds d x } := if_neg h0
  have hg : ∀ j, (c.took d x fl).getG j = (c.setG d x).getG j := fun j => by
    unfold Ctx.took
    rw [hmark]
    rfl
  have hpend : ∀ r, (c.took d x fl).pending r = if r = rg d then false else c.pending r := fun r => by
    have h := (c.setG d x).pending_unmark_rg hd h0 r
    rw [show (c.setG d x).pending r = c.pending r by rw [hset]; rfl] at h
    exact h
  refine ⟨(hg d).trans (c.getG_setG_same h0 hd x), (hpend _).trans (if_pos rfl), fun j hj => (hg j).trans (c.getG_setG_other hj x), fun r hr => (hpend r).trans (if_neg hr), ?_, ?_⟩
  · unfold Ctx.took
    rw [hmark, hset]
    rfl
  · unfold Ctx.took
    rw [hmark, hset]
    rfl

/-! The end of a report window (R47). -/

theorem firstTaken_concat_none {l : List (Nat × Nat × Word)} (h : firstTaken l = none) (e : Nat × Nat × Word) : firstTaken (l ++ [e]) = some e := by
  unfold firstTaken at h ⊢
  rw [List.foldl_append, h]
  rfl

theorem firstTaken_concat_some {l : List (Nat × Nat × Word)} {x : Nat × Nat × Word} (h : firstTaken l = some x) (e : Nat × Nat × Word) : firstTaken (l ++ [e]) = if e.1 < x.1 then some e else some x := by
  unfold firstTaken at h ⊢
  rw [List.foldl_append, h]
  rfl

/-- The trap that a window reports is one of the lowest index. -/
theorem firstTaken_least (l : List (Nat × Nat × Word)) : (firstTaken l = none ∧ l = []) ∨ ∃ x ∈ l, firstTaken l = some x ∧ ∀ e ∈ l, x.1 ≤ e.1 := by
  induction l using List.reverseRecOn with
  | nil => exact .inl ⟨rfl, rfl⟩
  | append_singleton l e ih =>
    rcases ih with ⟨hn, rfl⟩ | ⟨x, hx, hf, hle⟩
    · exact .inr ⟨e, by simp, firstTaken_concat_none hn e, by simp⟩
    · by_cases h : e.1 < x.1
      · refine .inr ⟨e, by simp, (firstTaken_concat_some hf e).trans (if_pos h), fun y hy => ?_⟩
        rcases List.mem_append.1 hy with hy | hy
        · exact h.le.trans (hle y hy)
        · rw [List.mem_singleton.1 hy]
      · refine .inr ⟨x, by simp [hx], (firstTaken_concat_some hf e).trans (if_neg h), fun y hy => ?_⟩
        rcases List.mem_append.1 hy with hy | hy
        · exact hle y hy
        · rw [List.mem_singleton.1 hy]
          exact not_lt.1 h

theorem crepWindowClose_run {n : Nat} {x : Nat × Nat × Word} (hs : s.still = false) (hx : firstTaken (s.cluster n).window = some x) :
    exec (.crepWindowClose n) s = .next (s.setCluster n { s.cluster n with
      crepId := w64 (2 ^ 63 + b2n (decide (1 < (s.cluster n).window.length)) * 2 ^ 62 + x.2.1 * 2 ^ 48 + n / 12 * 2 ^ 12 + n % 12 * 2 ^ 8 + x.1 / 8 % 32 * 8 + x.1 % 8)
      crepPc := x.2.2, window := [] }) := by
  show execCrepWindowClose n s = _
  rw [execCrepWindowClose, event_on rfl hs]
  simp only [hx]

/-- The trap report of a window, with the index of the context below the cluster's (R47). -/
theorem reportId (n cause k len : Nat) : 2 ^ 63 + b2n (decide (1 < len)) * 2 ^ 62 + cause * 2 ^ 48 + n / 12 * 2 ^ 12 + n % 12 * 2 ^ 8 + k / 8 % 32 * 8 + k % 8
    = 2 ^ 63 + (if 1 < len then 2 ^ 62 else 0) + cause * 2 ^ 48 + n / 12 * 2 ^ 12 + n % 12 * 2 ^ 8 + k % 256 := by
  have hk : k / 8 % 32 * 8 + k % 8 = k % 256 := by omega
  have hb : b2n (decide (1 < len)) * 2 ^ 62 = if 1 < len then 2 ^ 62 else 0 := by
    by_cases h : 1 < len <;> simp [b2n, h]
  rw [hb, Nat.add_assoc _ (k / 8 % 32 * 8), hk]

end Sys2Proof.Machine
end

section
open Sys2Proof Sys2Proof.Machine

/-- Settles O56: a clause from the lemma of each instruction and event; the evaluation of a combination by `waitcEval_raised` and `waitcEval_clear`. -/
theorem waitsEnd : Obligations.WaitsEnd := by
  unfold Obligations.WaitsEnd
  refine ⟨fun o s => ⟨fun h hk hb hw => ?_, fun h hk hb hw hclear => ?_, idle_run, fun hp h hk => idle_ckmiss h hp hk⟩, fun core slot o s => ?_, fun core n slot d fl x s hs hr hd h0 => ?_, fun n s hs hw => ?_⟩
  · obtain ⟨ckid, hck⟩ := Option.isSome_iff_exists.1 hk
    refine ⟨fun n hn => waitc_reported h hck hb hw hn, fun hrep hraised => ?_⟩
    obtain ⟨f, he, hf⟩ := waitcEval_raised (all := waitcAll o) (ps := firstProbes s.cx (condWords o s.cx)) hraised
    obtain ⟨hp, hwait, -⟩ := s.cx.setP_retire o.dNum false (.waitc o) o.s
    refine ⟨_, waitc_answered h hck hb hw (reportedCounter_none hrep) he, ?_, ?_, fun n hn hr => ?_, ⟨rfl, rfl, rfl, rfl⟩, fun _ hj => State.ctx_setCtx_other _ hj _⟩
    · rw [State.cx_setCx, hp]
    · rw [State.cx_setCx, hwait]
    · rw [State.co_setCx, State.co_setCo]
      exact hf n hn hr
  · obtain ⟨ckid, hck⟩ := Option.isSome_iff_exists.1 hk
    have hr : reportedCounter s.co (condWords o s.cx) = none := reportedCounter_none fun n hn => by rw [hclear n hn]; decide
    have he := waitcEval_clear (all := waitcAll o) (ps := firstProbes s.cx (condWords o s.cx)) hclear
    refine ⟨fun hc => ?_, fun hc hpark => ?_, fun hc hpark ckid u hck hl hu => ?_⟩
    · rw [if_pos hc] at he
      refine ⟨_, waitc_answered h hck hb hw hr he, ?_⟩
      rw [State.cx_setCx, State.co_setCx, State.co_setCo]
      obtain ⟨hp, hwait, hg, hv, hvm⟩ := s.cx.setP_retire o.dNum true (.waitc o) o.s
      exact ⟨hp, hwait, hg, hv, hvm, ⟨rfl, rfl, rfl, rfl⟩, fun _ hj => State.ctx_setCtx_other _ hj _, rfl⟩
    · rw [if_neg (by rw [hc]; decide)] at he
      exact waitc_waits h hck hb hw hr he hpark
    · rw [if_neg (by rw [hc]; decide)] at he
      obtain ⟨hocc, hwait, hrcd, huid, hpin, hmem⟩ := State.parked_spec (Wrote.saveContext hu) (condWords o s.cx)
      exact ⟨_, _, waitc_leaves h hck hb hw hr he hpark hl hu, hocc, hwait, hrcd, huid, hpin, hmem⟩
  · intro k c ws hs
    refine ⟨fun deadline ps i w p b hwait hheld hw hp hon htill hb hclear => waitcProbe_spec hs hwait hheld hw hp hon htill hb hclear, fun deadline ps hwait hheld h0 hd => waitcTimeout_run hs hwait hheld h0 hd,
      fun t hwait hheld ht => idleWake_run hs hwait hheld ht, fun tr ht hd => trapEntry_spec hs ht hd⟩
  · obtain ⟨hg, hp, hgs, hps, hfl, hpc⟩ := (s.ctx (8 * core + slot)).took_spec hd h0 x fl
    have hctx := State.ctx_setCtx_same (s := s.setCore core { s.core core with results := (s.core core).results.eraseIdx n }) (8 * core + slot) ((s.ctx (8 * core + slot)).took d x fl)
    refine ⟨_, resultWriteback_run hs hr, ?_, ?_⟩
    · rw [State.core_setCtx, State.core_setCore_same]
    · rw [hctx]
      exact ⟨hg, hp, hgs, hps, hfl, hpc, fun _ hj => State.ctx_setCtx_other _ hj _, rfl, rfl, rfl, rfl⟩
  · rcases firstTaken_least (s.cluster n).window with ⟨-, h⟩ | ⟨⟨k, cause, pc⟩, hmem, hx, hle⟩
    · exact absurd h hw
    · refine ⟨_, k, cause, pc, crepWindowClose_run hs hx, hmem, hle, ?_⟩
      rw [State.cluster_setCluster_same]
      exact ⟨rfl, rfl, congrArg (BitVec.ofNat 64) (reportId n cause k _)⟩

end

section
/-! SUPPORT. Reset, boot and the readout of a frozen device (R62, R371, R372, R384, R385). -/

set_option Elab.async false

namespace Sys2Proof.Machine

open Sys2Proof

/-! Fields of registers. -/

theorem testBit_fld (x lo n i : Nat) : (fld x lo n).testBit i = (decide (i < n) && x.testBit (lo + i)) := by
  rw [fld, Nat.testBit_mod_two_pow, Nat.testBit_div_two_pow, Nat.add_comm]

theorem fld_setFld_same (x lo n v : Nat) : fld (setFld x lo n v) lo n = v % 2 ^ n := by
  refine Nat.eq_of_testBit_eq fun i => ?_
  rw [testBit_fld, testBit_setFld, Nat.testBit_mod_two_pow]
  by_cases h : i < n
  · rw [if_pos (by omega), Nat.add_sub_cancel_left]
  · simp [h]

theorem fld_setFld_other {lo n lo' n' : Nat} (h : lo' + n' ≤ lo ∨ lo + n ≤ lo') (x v : Nat) : fld (setFld x lo n v) lo' n' = fld x lo' n' := by
  refine Nat.eq_of_testBit_eq fun i => ?_
  rw [testBit_fld, testBit_fld, testBit_setFld]
  by_cases hi : i < n'
  · rw [if_neg (by omega)]
  · simp [hi]

/-- A field of a register is that of the number written to it. -/
theorem fld_w64 {lo n : Nat} (h : lo + n ≤ 64) (x : Nat) : fld (w64 x).toNat lo n = fld x lo n := by
  have : (w64 x).toNat = fld x 0 64 := by rw [fld_low]; exact BitVec.toNat_ofNat _ _
  rw [this, fld_fld h, Nat.zero_add]

/-! The boot state (R370, R371). -/

variable {s : State}

theorem State.bootState_setBoot (s : State) {n : Nat} (h : n < 16) : (s.setBoot n).bootState = n := by
  show fld (w64 (setFld s.regs.bstat.toNat 0 4 n)).toNat 0 4 = n
  rw [fld_w64 (by decide), fld_setFld_same]
  exact Nat.mod_eq_of_lt h

theorem State.bootState_bootFail (s : State) (err : Nat) : (s.bootFail err).bootState = 6 := by
  show fld (w64 (setFld (s.setBoot 6).regs.bstat.toNat 8 8 err)).toNat 0 4 = 6
  rw [fld_w64 (by decide), fld_setFld_other (.inl (by decide))]
  exact s.bootState_setBoot (by decide)

theorem State.error_bootFail (s : State) {err : Nat} (h : err < 256) : fld (s.bootFail err).regs.bstat.toNat 8 8 = err := by
  show fld (w64 (setFld (s.setBoot 6).regs.bstat.toNat 8 8 err)).toNat 8 8 = err
  rw [fld_w64 (by decide), fld_setFld_same]
  exact Nat.mod_eq_of_lt h

theorem State.still_of_boot {n : Nat} (h : s.bootState = n) : s.still = (n == 7 || n == 6) := by rw [State.still, h]

theorem State.sameMemory_bootFail (s : State) (err : Nat) : sameMemory s (s.bootFail err) := ⟨rfl, rfl, rfl, rfl⟩

/-- A device whose every line has the metadata of reset: full, with no wait bit and no wake list. -/
theorem State.fresh_lines (h : s.lineMeta = []) (pa : Nat) : s.fe pa = true ∧ s.waitBit pa = false ∧ s.wl pa = false := by
  have hw : s.lineWord pa = 0xFF := by rw [State.lineWord, h]; rfl
  have hword : ∀ i, i < 8 → (0xFF : BitVec 32).getLsbD i = true ∧ (0xFF : BitVec 32).getLsbD (8 + i) = false := by decide
  obtain ⟨h1, h2⟩ := hword (pa / 8 % 8) (Nat.mod_lt _ (by decide))
  rw [State.fe, State.waitBit, State.wl, hw]
  exact ⟨h1, h2, rfl⟩

theorem reset_run (pcie : Bool) (s : State) : ∃ t, exec (.reset pcie) s = .next t ∧ t.mem = s.mem ∧ t.rmem = s.rmem ∧ (∀ pa, t.fe pa = true ∧ t.waitBit pa = false ∧ t.wl pa = false) ∧ t.poison = s.poison
    ∧ t.fuseSteps = s.fuseSteps ∧ t.minVersion = s.minVersion ∧ t.still = false ∧ t.bootState = 1 ∧ t.pcieUp = pcie ∧ t.ctxs = [] ∧ t.cores = [] ∧ t.now = 0 ∧ t.resident = none := by
  have hver : fld (w64 (setFld 0 32 32 s.minVersion)).toNat 32 32 = s.minVersion := by
    rw [fld_w64 (by decide), fld_setFld_same]
    exact Nat.mod_eq_of_lt (fld_lt _ _ _)
  have hboot : ∀ t : State, (t.setBoot 1).bootState = 1 := fun t => t.bootState_setBoot (by decide)
  exact ⟨_, rfl, rfl, rfl, State.fresh_lines rfl, rfl, rfl, hver, State.still_of_boot (hboot _), hboot _, rfl, rfl, rfl, rfl, rfl⟩

/-! The readout of a frozen device (R385). -/

section
variable {region off : Nat} (h7 : s.bootState = 7)
include h7

theorem readout_image (hr : region < 1536) : s.readout region off = some (.byte (s.imageByte region off)) := by
  rw [State.readout, if_neg (not_not.2 h7), if_pos hr]

theorem readout_pier (hlo : 1536 ≤ region) (hhi : region < 1544) : s.readout region off
    = some (.pier (s.parked.filter fun p => onPier (region - 1536) p.word) (s.wakes.filter fun p => onPier (region - 1536) p.word) (s.classQueues (region - 1536)) (s.digestViews (region - 1536))) := by
  rw [State.readout, if_neg (not_not.2 h7), if_neg (not_lt.2 hlo), if_pos hhi]

theorem readout_line (hr : region = 1544) : s.readout region off = some (.line (BitVec.ofNat 512 (mread s.mem (64 * off) 64)) (s.lineWord (64 * off))) := by
  subst hr
  rw [State.readout, if_neg (not_not.2 h7), if_neg (by decide), if_neg (by decide), if_pos rfl]

theorem readout_mgmt (hr : 1544 < region) (ho : off < 2 ^ 32) : s.readout region off = some (.byte (mget s.mgmt.mem off).toNat) := by
  rw [State.readout, if_neg (not_not.2 h7), if_neg (by omega), if_neg (by omega), if_neg (by omega), if_pos ho]

end

/-- A commit in progress stands in the queue of block updates of its block's pier. -/
theorem jobsAt_commit {e : Nat × Job} {b h pier : Nat} (he : e ∈ s.jobs) (hk : e.2.kind = .commit b h) (hp : onPier pier b = true) : PierOp.job e.1 e.2 ∈ s.jobsAt pier true := by
  refine List.mem_map.2 ⟨e, List.mem_filter.2 ⟨he, ?_⟩, rfl⟩
  simp [Job.concerns, hk, hp]

/-- The one load in flight at a core, with nothing that holds it back, stands in the queue of ordinary traffic. -/
theorem accessesAt_load {core pier : Nat} {c : Core} {a : Access} {p : Piece} (hc : (core, c) ∈ s.cores) (hf : c.flight = [a]) (hp : p ∈ a.pieces) (hk : a.kind = .load)
    (hmx : c.awaitsMx a.slot = false) (hd : p.done = false) (hh : p.place = .here) (hon : onPier pier p.pa = true) : PierOp.access core a p ∈ s.accessesAt pier false := by
  have hgo : c.freeToGo a p = true := by simp [Core.freeToGo, hmx, hf]
  refine List.mem_flatMap.2 ⟨(core, c), hc, List.mem_flatMap.2 ⟨a, by simp [hf], ?_⟩⟩
  rw [if_neg (by simp [Access.coordinated, hk, State.evaluating, AccKind.waits])]
  exact List.mem_map.2 ⟨p, List.mem_filter.2 ⟨hp, by simp [hd, hh, hon, hgo]⟩, rfl⟩

/-- What a read of a pier shows (R337, R385). -/
theorem readout_pier_spec {region off : Nat} (h7 : s.bootState = 7) (hlo : 1536 ≤ region) (hhi : region < 1544) :
    ∃ parked wakes queues views, s.readout region off = some (.pier parked wakes queues views) ∧ (∀ p, p ∈ parked ↔ p ∈ s.parked ∧ onPier (region - 1536) p.word = true)
      ∧ (∀ p, p ∈ wakes ↔ p ∈ s.wakes ∧ onPier (region - 1536) p.word = true) ∧ queues.length = 5 ∧ (∀ p ∈ wakes, ∃ q ∈ queues, PierOp.wake p ∈ q)
      ∧ (∀ e ∈ s.jobs, ∀ b h, e.2.kind = .commit b h → onPier (region - 1536) b = true → ∃ q, queues[2]? = some q ∧ PierOp.job e.1 e.2 ∈ q)
      ∧ (∀ core c a p, (core, c) ∈ s.cores → c.flight = [a] → p ∈ a.pieces → a.kind = .load → c.awaitsMx a.slot = false → p.done = false → p.place = .here → onPier (region - 1536) p.pa = true →
          ∃ q, queues[3]? = some q ∧ PierOp.access core a p ∈ q)
      ∧ ∀ e ∈ s.digests, { dctx := e.1, base := e.2.base, size := e.2.size, sum := vget e.2.sums (region - 1536) 0 } ∈ views :=
  ⟨_, _, _, _, readout_pier h7 hlo hhi, fun _ => List.mem_filter, fun _ => List.mem_filter, rfl, fun p hp => ⟨_, by simp [State.classQueues], List.mem_map.2 ⟨p, hp, rfl⟩⟩,
    fun e he b h hk hp => ⟨_, rfl, jobsAt_commit he hk hp⟩,
    fun core c a p hc hf hp hk hmx hd hh hon => ⟨_, rfl, List.mem_append_left _ (accessesAt_load hc hf hp hk hmx hd hh hon)⟩,
    fun e he => List.mem_map.2 ⟨e, he, rfl⟩⟩

/-! Boot (R371, R372). -/

section
variable (hs : s.still = false)
include hs

theorem bootFetch_trains (image : List Byte) (h1 : s.bootState = 1) : exec (.bootFetch image) s = .next (if s.pcieUp then { s with fetchStart := s.tick }.setBoot 2 else s.bootFail 6) := by
  show execBootFetch image s = _
  rw [execBootFetch, event_on (by rw [h1]; rfl) hs]
  simp only [h1, if_true]

theorem bootFetch_reads {image : List Byte} (h2 : s.bootState = 2) (h0 : s.regs.bootlen ≠ 0) (hl : image.length = s.regs.bootlen.toNat) :
    exec (.bootFetch image) s = .next ({ s with mem := mblit s.mem s.imageAt (asNats image), image := asBytes (mbytes (mblit s.mem s.imageAt (asNats image)) s.imageAt s.regs.bootlen.toNat) }.setBoot 3) := by
  show execBootFetch image s = _
  have hon : (s.bootState == 1 || (s.bootState == 2 && s.regs.bootlen != 0 && image.length == s.regs.bootlen.toNat)) = true := by
    rw [bne_iff_ne.2 h0, beq_iff_eq.2 hl, h2]
    rfl
  rw [execBootFetch, event_on hon hs]
  simp only [h2]
  rfl

theorem bootTimeout_run (h2 : s.bootState = 2) (h0 : s.regs.bootlen = 0) (ht : s.fetchStart + 1000000000 ≤ s.tick) : exec .bootTimeout s = .next (s.bootFail 1) := by
  show execBootTimeout s = _
  rw [execBootTimeout, event_on (by simp [h2, h0, ht]) hs]

theorem bootVerify_trap (hbm : Bool) (dev : BitVec 12) (hlo : 1 ≤ s.bootState) (hhi : s.bootState ≤ 3) : exec (.bootVerify hbm dev true) s = .next (s.bootFail 7) := by
  show execBootVerify hbm dev true s = _
  rw [execBootVerify, event_on (by simp [hlo]; omega) hs]
  exact congrArg Host.Outcome.next (if_pos ⟨rfl, hhi⟩)

theorem bootVerify_image (hbm : Bool) (dev : BitVec 12) (h3 : s.bootState = 3) : exec (.bootVerify hbm dev false) s
    = .next (if imageError (asNats s.image) s.regs.bootlen.toNat s.minVersion ≠ 0 then s.bootFail (imageError (asNats s.image) s.regs.bootlen.toNat s.minVersion)
      else { s with mgmt := mgmtStart (sliceOf (asNats s.image) 64 (leAt (asNats s.image) 8 4)) (leAt (asNats s.image) 12 4) }.setBoot 4) := by
  show execBootVerify hbm dev false s = _
  rw [execBootVerify, event_on (by simp [h3]) hs]
  simp only [h3, Bool.false_eq_true, false_and, if_false, if_true, (by decide : ¬(3 : Nat) ≤ 2)]

theorem bootVerify_start (hbm : Bool) (dev : BitVec 12) (trap : Bool) (h4 : s.bootState = 4) : exec (.bootVerify hbm dev trap) s
    = .next (if (List.range 4).all s.mgmtRuns = false then s.bootFail 7 else if hbm = false then s.bootFail 5 else s.cethenStart dev) := by
  show execBootVerify hbm dev trap s = _
  rw [execBootVerify, event_on (by simp [h4]) hs]
  simp only [h4, (by decide : ¬(4 : Nat) ≤ 3), (by decide : ¬(4 : Nat) ≤ 2), (by decide : ¬(4 : Nat) = 3), and_false, if_false]

end

/-- The bytes of a list written to memory, and those outside them. -/
theorem mget_mblit {m : Mem} (h : m.wf = true) (a : Nat) (bs : List Nat) :
    (∀ i (hi : i < bs.length), mget (mblit m a bs) (a + i) = BitVec.ofNat 8 bs[i]) ∧ ∀ c, c < a ∨ a + bs.length ≤ c → mget (mblit m a bs) c = mget m c := by
  induction bs generalizing m a with
  | nil => exact ⟨fun i hi => absurd hi (Nat.not_lt_zero i), fun _ _ => rfl⟩
  | cons b bs ih =>
    obtain ⟨hin, hout⟩ := ih (wf_mset h a (BitVec.ofNat 8 b)) (a + 1)
    simp only [List.length_cons]
    refine ⟨fun i hi => ?_, fun c hc => ?_⟩
    · cases i with
      | zero =>
        rw [mblit, show a + 0 = a from rfl, hout a (.inl (Nat.lt_succ_self a)), mget_mset h, if_pos rfl]
        rfl
      | succ i =>
        rw [mblit, show a + (i + 1) = a + 1 + i by omega, hin i (by omega)]
        rfl
    · rw [mblit, hout c (by omega), mget_mset h, if_neg (by omega)]

/-- An image written to memory reads back. -/
theorem asBytes_mbytes_mblit {m : Mem} (h : m.wf = true) (a : Nat) (image : List Byte) : asBytes (mbytes (mblit m a (asNats image)) a image.length) = image := by
  refine List.ext_getElem (by simp [asBytes, mbytes]) fun i h1 h2 => ?_
  have := (mget_mblit h a (asNats image)).1 i (by simpa [asNats] using h2)
  simp only [asBytes, mbytes, List.getElem_map, List.getElem_range, this]
  simp [asNats]

theorem bootFetch_image {image : List Byte} (hs : s.still = false) (h2 : s.bootState = 2) (h0 : s.regs.bootlen ≠ 0) (hl : image.length = s.regs.bootlen.toNat) (hw : s.memWf = true) :
    ∃ t, exec (.bootFetch image) s = .next t ∧ t.image = image ∧ t.bootState = 3 ∧ ∀ a, a < s.imageAt ∨ s.imageAt + image.length ≤ a → mget t.mem a = mget s.mem a := by
  have hwf : Mem.wf s.mem = true := (State.memWf_iff.1 hw).1
  refine ⟨_, bootFetch_reads hs h2 h0 hl, ?_, State.bootState_setBoot _ (by decide), fun a ha => (mget_mblit hwf s.imageAt (asNats image)).2 a (by simpa [asNats] using ha)⟩
  show asBytes (mbytes (mblit s.mem s.imageAt (asNats image)) s.imageAt s.regs.bootlen.toNat) = image
  rw [← hl]
  exact asBytes_mbytes_mblit hwf _ _

theorem imageError_le (img : List Nat) (len ver : Nat) : imageError img len ver ≤ 4 := by
  unfold imageError
  dsimp only
  split_ifs <;> decide

theorem asNats_lt (image : List Byte) (i : Nat) : (asNats image).getD i 0 < 256 := by
  unfold asNats
  rw [List.getD_eq_getElem?_getD, List.getElem?_map]
  cases image[i]? with
  | none => decide
  | some b => exact b.isLt

/-- What the management cores start with: the image's body in their memory, and every core at its entry (R371). -/
theorem mgmtStart_spec (image : List Byte) (n entry : Nat) :
    (∀ i, i < n → (mget (mgmtStart (sliceOf (asNats image) 64 n) entry).mem i).toNat = (asNats image).getD (64 + i) 0)
      ∧ ∀ i, i < 4 → tget (mgmtStart (sliceOf (asNats image) 64 n) entry).ctxs (8 * i) {} = mgmtCtx entry := by
  refine ⟨fun i hi => ?_, fun i hi => ?_⟩
  · have := (mget_mblit (m := []) rfl 0 (sliceOf (asNats image) 64 n)).1 i (by simpa [sliceOf] using hi)
    rw [Nat.zero_add] at this
    show (mget (mblit [] 0 (sliceOf (asNats image) 64 n)) i).toNat = _
    rw [this]
    simp only [sliceOf, List.getElem_map, List.getElem_range, BitVec.toNat_ofNat]
    exact Nat.mod_eq_of_lt (asNats_lt _ _)
  · obtain rfl | rfl | rfl | rfl : i = 0 ∨ i = 1 ∨ i = 2 ∨ i = 3 := by omega
    all_goals rfl

theorem mgmtCtx_super (entry : Nat) : (mgmtCtx entry).super = true := by
  have : (1 : Word).getLsbD 0 = true := by decide
  exact this

theorem mgmtCtx_getG (entry r : Nat) : (mgmtCtx entry).getG r = 0 := by
  unfold Ctx.getG mgmtCtx
  split
  · rfl
  · simp only [Vector.getElem?_replicate]
    split <;> rfl

theorem bootVerify_rom {hbm trap : Bool} {dev : BitVec 12} (hs : s.still = false) (h3 : s.bootState = 3) :
    let e := imageError (asNats s.image) s.regs.bootlen.toNat s.minVersion
    let err := if trap then 7 else e
    ∃ t, exec (.bootVerify hbm dev trap) s = .next t ∧ t.bootState = (if err = 0 then 4 else 6) ∧ (err ≠ 0 → fld t.regs.bstat.toNat 8 8 = err) ∧ sameMemory s t
      ∧ (err = 0 → (∀ i, i < leAt (asNats s.image) 8 4 → (mget t.mgmt.mem i).toNat = (asNats s.image).getD (64 + i) 0)
        ∧ ∀ i, i < 4 → let c := tget t.mgmt.ctxs (8 * i) {}; c.pc = BitVec.ofNat 64 (leAt (asNats s.image) 12 4) ∧ c.super = true ∧ ∀ r, c.getG r = 0) := by
  intro e err
  have he : e ≤ 4 := imageError_le _ _ _
  by_cases h0 : err = 0
  · have htrap : trap = false := by
      cases trap
      · rfl
      · exact absurd (show (7 : Nat) = 0 from h0) (by decide)
    subst htrap
    have hrun := bootVerify_image hs hbm dev h3
    rw [if_neg (not_not.2 (show e = 0 from h0))] at hrun
    obtain ⟨hmem, hctx⟩ := mgmtStart_spec s.image (leAt (asNats s.image) 8 4) (leAt (asNats s.image) 12 4)
    refine ⟨_, hrun, (State.bootState_setBoot _ (by decide)).trans (if_pos h0).symm, fun h => absurd h0 h, ⟨rfl, rfl, rfl, rfl⟩, fun _ => ⟨hmem, fun i hi => ?_⟩⟩
    intro c
    rw [show c = mgmtCtx _ from hctx i hi]
    exact ⟨rfl, mgmtCtx_super _, mgmtCtx_getG _⟩
  · have hrun : exec (.bootVerify hbm dev trap) s = .next (s.bootFail err) := by
      cases trap with
      | true => exact bootVerify_trap hs hbm dev (by omega) (by omega)
      | false => exact (bootVerify_image hs hbm dev h3).trans (congrArg Host.Outcome.next (if_pos (show e ≠ 0 from h0)))
    have hlt : err < 256 := by
      have he : e ≤ 4 := imageError_le _ _ _
      simp only [err]
      split <;> omega
    exact ⟨_, hrun, (s.bootState_bootFail err).trans (if_neg h0).symm, fun _ => s.error_bootFail hlt, s.sameMemory_bootFail err, fun h => absurd h h0⟩

/-! The start of Cethen (R62, R371, R377). -/

theorem mget_mclear {m : Mem} {lo hi a : Nat} (hlo : lo ≤ a) (hhi : a < hi) : mget (mclear m lo hi) a = 0 := by
  induction m with
  | nil => rfl
  | cons e m ih =>
    unfold mclear
    rw [List.filter_cons]
    split
    · rename_i he
      have hne : e.1 ≠ a := fun h => by simp [h, not_lt.2 hlo, not_le.2 hhi] at he
      exact (if_neg hne).trans ih
    · exact ih

/-- A write of `ulctl` starts the training of its port, or takes it down (R377). -/
theorem State.ulctlSet_spec (s : State) (p : Nat) (v : Word) : ((s.ulctlSet p v).port p).ulctl = BitVec.ofNat 64 (v.toNat % 16) ∧ (s.ulctlSet p v).portState p = (if v.getLsbD 0 then 1 else 0)
    ∧ ((s.ulctlSet p v).port p).since = s.tick ∧ ∀ q, q ≠ p → (s.ulctlSet p v).port q = s.port q := by
  have hp : (s.ulctlSet p v).port p = _ := s.port_setPort_same p _
  refine ⟨by rw [hp]; exact keep_low v 3, ?_, by rw [hp], fun q hq => s.port_setPort_other hq _⟩
  rw [State.portState, hp, fld_w64 (by decide), fld_setFld_other (.inl (by decide)), fld_setFld_same]
  split <;> rfl

/-- After ports have been set to train, each of them trains. -/
theorem portState_ulctl_foldl (l : List Nat) (s : State) (p : Nat) (h : p ∈ l ∨ s.portState p = 1) :
    (l.foldl (fun s p => s.ulctlSet p ((s.port p).ulctl ||| 1)) s).portState p = 1 := by
  induction l generalizing s with
  | nil => exact h.resolve_left List.not_mem_nil
  | cons q l ih =>
    obtain ⟨-, hst, -, hother⟩ := s.ulctlSet_spec q ((s.port q).ulctl ||| 1)
    refine ih _ ?_
    by_cases hq : p = q
    · refine .inr (hq ▸ hst.trans (if_pos ?_))
      rw [BitVec.getLsbD_or]
      exact Bool.or_true _
    · refine h.imp (fun hm => (List.mem_cons.1 hm).resolve_left hq) fun h1 => ?_
      rw [State.portState, hother p hq]
      exact h1

/-- What no port is part of stays as ports are set to train. -/
theorem ulctl_foldl_keeps {α : Type} {f : State → α} (hf : ∀ (t : State) n p, f (t.setPort n p) = f t) (l : List Nat) (s : State) : f (l.foldl (fun s p => s.ulctlSet p ((s.port p).ulctl ||| 1)) s) = f s :=
  foldl_keeps (P := fun u : State => f u = f s) (fun _ _ hu => (hf _ _ _).trans hu) l rfl

/-- The device as Cethen starts, before the ports are brought up. -/
def State.initialised (s : State) (dev : BitVec 12) : State :=
  let t : State := { s with
    mem := mclear s.mem 0 0x8000000000, lineMeta := [], poison := [], digest := asBytes (imageDigest (asNats s.image))
    regs := { s.regs with devid := w64 dev.toNat, fwver := w64 (setFld s.regs.fwver.toNat 0 32 (leAt (asNats s.image) 4 4)) }
    resident := some 0, residentSince := s.tick, energySum := s.energyTotal }
  t.setDctx 0 { t.dctx 0 with switches := (t.dctx 0).switches + 1 }

theorem State.cethenStart_eq (s : State) (dev : BitVec 12) :
    s.cethenStart dev = ((List.range 24).foldl (fun s p => s.ulctlSet p ((s.port p).ulctl ||| 1)) (s.initialised dev)).setBoot 5 := rfl

theorem cethenStart_spec (s : State) (dev : BitVec 12) : (s.cethenStart dev).bootState = 5 ∧ (s.cethenStart dev).resident = some 0 ∧ (s.cethenStart dev).regs.devid = BitVec.ofNat 64 dev.toNat
    ∧ (∀ a, a < 0x8000000000 → mget (s.cethenStart dev).mem a = 0) ∧ (s.cethenStart dev).lineMeta = [] ∧ ∀ p, p < 24 → (s.cethenStart dev).portState p = 1 := by
  rw [State.cethenStart_eq]
  have hports := fun p (hp : p < 24) => portState_ulctl_foldl (List.range 24) (s.initialised dev) p (.inl (List.mem_range.2 hp))
  have hkeeps : ∀ {α : Type} (f : State → α), (∀ (t : State) n p, f (t.setPort n p) = f t) → f ((List.range 24).foldl (fun s p => s.ulctlSet p ((s.port p).ulctl ||| 1)) (s.initialised dev)) = f (s.initialised dev) :=
    fun f hf => ulctl_foldl_keeps hf _ _
  generalize (List.range 24).foldl (fun s p => s.ulctlSet p ((s.port p).ulctl ||| 1)) (s.initialised dev) = u at hports hkeeps
  refine ⟨u.bootState_setBoot (by decide), hkeeps State.resident fun _ _ _ => rfl, hkeeps (fun t => t.regs.devid) fun _ _ _ => rfl, fun a ha => ?_, hkeeps State.lineMeta fun _ _ _ => rfl, hports⟩
  rw [State.setBoot_mem, hkeeps State.mem fun _ _ _ => rfl]
  exact mget_mclear (Nat.zero_le a) ha

theorem bootVerify_cethen {hbm trap : Bool} {dev : BitVec 12} (hs : s.still = false) (h4 : s.bootState = 4) :
    let err := if (List.range 4).all s.mgmtRuns = false then 7 else if hbm then 0 else 5
    ∃ t, exec (.bootVerify hbm dev trap) s = .next t ∧ t.bootState = (if err = 0 then 5 else 6) ∧ (err ≠ 0 → fld t.regs.bstat.toNat 8 8 = err)
      ∧ (err = 0 → t.resident = some 0 ∧ t.regs.devid = BitVec.ofNat 64 dev.toNat ∧ (∀ a, a < 0x8000000000 → mget t.mem a = 0) ∧ (∀ pa, t.fe pa = true ∧ t.waitBit pa = false ∧ t.wl pa = false) ∧ ∀ p, p < 24 → t.portState p = 1) := by
  intro err
  have hrun := bootVerify_start hs hbm dev trap h4
  by_cases h0 : err = 0
  · have hgo : ¬(List.range 4).all s.mgmtRuns = false ∧ hbm = true := by
      simp only [err] at h0
      split at h0
      · cases h0
      · split at h0
        · exact ⟨‹_›, ‹_›⟩
        · cases h0
    rw [if_neg hgo.1, if_neg (by rw [hgo.2]; decide)] at hrun
    obtain ⟨hb, hr, hd, hm, hl, hp⟩ := cethenStart_spec s dev
    exact ⟨_, hrun, hb.trans (if_pos h0).symm, fun h => absurd h0 h, fun _ => ⟨hr, hd, hm, State.fresh_lines hl, hp⟩⟩
  · have hfail : exec (.bootVerify hbm dev trap) s = .next (s.bootFail err) ∧ err < 256 := by
      rw [hrun]
      simp only [err] at h0 ⊢
      split
      · exact ⟨rfl, by decide⟩
      · cases hbm with
        | true => exact absurd (if_neg ‹_›) h0
        | false => exact ⟨rfl, by decide⟩
    exact ⟨_, hfail.1, (s.bootState_bootFail err).trans (if_neg h0).symm, fun _ => s.error_bootFail hfail.2, fun h => absurd h h0⟩

end Sys2Proof.Machine
end

section
/-! SUPPORT. The turns of the management cores, ports and their links (R371, R377, R378). -/

set_option Elab.async false

namespace Sys2Proof.Machine

open Sys2Proof

variable {s : State}

/-- An event whose condition holds, in a device whose clocks run. -/
theorem exec_event {i : Instr} (b : Bool) (f : State → State) (he : exec i s = event b f s) (hb : b = true) (hs : s.still = false) : exec i s = .next (f s) := he.trans (event_on hb hs)

/-! Turns of the management cores (R371). -/

theorem mgmtIssue_run {core : Nat} (hc : core < 4) (hon : s.mgmtOn = true) : runTurn (.mgmtIssue core) s = onNext s.mgmtBack (s.mgmtView.mgmtSlot core) := if_pos ⟨hc, hon⟩

/-- A slot whose instruction is in the subset, or cannot be read, issues as any other. -/
theorem mgmtSlot_issues {v : State} {core : Nat} (h : ∀ i, v.nextInstr (8 * core) = .ok i → onMgmt i = true) : v.mgmtSlot core = v.issueSlot core := by
  unfold State.mgmtSlot
  dsimp only
  split
  · rename_i i hi
    rw [if_neg fun hn => by rw [h i hi] at hn; cases hn.1]
  · rfl

theorem mgmtSlot_traps {v : State} {core : Nat} {i : Instr} (hi : v.nextInstr (8 * core) = .ok i) (ho : v.offers (8 * core) = true) (hm : onMgmt i = false) :
    v.mgmtSlot core = .next (({ v with cur := 8 * core } : State).raise { cause := 1, xinfo := BitVec.ofNat 64 (mgmtIll i) }) := by
  unfold State.mgmtSlot
  simp only [hi, ho, hm, and_self, if_true]
  rfl

theorem State.bootFail_beside (s : State) (err : Nat) : (s.bootFail err).mgmt = s.mgmt ∧ sameMemory s (s.bootFail err) ∧ (s.bootFail err).ctxs = s.ctxs ∧ (s.bootFail err).cores = s.cores :=
  ⟨rfl, s.sameMemory_bootFail err, rfl, rfl⟩

/-- What a turn of the management cores leaves of the rest of the device. -/
theorem State.mgmtBack_beside (s t : State) : (s.mgmtBack t).mgmt.ctxs = t.ctxs ∧ (s.mgmtBack t).mgmt.mem = t.mem ∧ sameMemory s (s.mgmtBack t) ∧ (s.mgmtBack t).ctxs = s.ctxs ∧ (s.mgmtBack t).cores = s.cores := by
  unfold State.mgmtBack
  extract_lets u
  have hu : u.mgmt.ctxs = t.ctxs ∧ u.mgmt.mem = t.mem ∧ sameMemory s u ∧ u.ctxs = s.ctxs ∧ u.cores = s.cores := ⟨rfl, rfl, ⟨rfl, rfl, rfl, rfl⟩, rfl, rfl⟩
  obtain ⟨hm, hsame, hx, hk⟩ := u.bootFail_beside 7
  split
  · rw [hm, hx, hk]
    exact ⟨hu.1, hu.2.1, hu.2.2.1.trans hsame, hu.2.2.2⟩
  · exact hu

theorem mem_tset_same {α : Type} (t : Tbl α) (k : Nat) (v : α) : (k, v) ∈ tset t k v := by
  have := mem_of_thas (t := tset t k v) (n := k) (by rw [thas_tset, beq_self_eq_true, Bool.true_or]) v
  rwa [tget_tset_same] at this

/-- A context that traps has entered its handler, or has the trap pending (R107). -/
theorem State.raise_shows (s : State) (tr : Trap) : ∃ c : Ctx, (s.raise tr).ctxs = tset s.ctxs s.cur c ∧ (c.entered || c.trap.isSome) = true := by
  unfold State.raise
  dsimp only
  split
  · rcases s.enterTrap_ctxs s.cur { tr with xpc := some (tr.xpc.getD s.cx.pc) } with ⟨h, -⟩ | ⟨h, -⟩
    · exact ⟨_, h, rfl⟩
    · exact ⟨_, h, rfl⟩
  · exact ⟨_, rfl, Bool.or_true _⟩

/-- An instruction that a management core does not execute traps ILL, which fails a boot that is not done. -/
theorem mgmtIssue_traps {core : Nat} {i : Instr} (hc : core < 4) (hon : s.mgmtOn = true) (hi : s.mgmtView.nextInstr (8 * core) = .ok i) (ho : s.mgmtView.offers (8 * core) = true) (hm : onMgmt i = false) :
    ∃ t u, runTurn (.mgmtIssue core) s = .next t ∧ ({ s.mgmtView with cur := 8 * core } : State).raise { cause := 1, xinfo := BitVec.ofNat 64 (mgmtIll i) } = u ∧ t.mgmt.ctxs = u.ctxs ∧ t.mgmt.mem = u.mem
      ∧ t.bootState = (if s.bootState = 4 then 6 else 5) ∧ (s.bootState = 4 → fld t.regs.bstat.toNat 8 8 = 7) ∧ sameMemory s t ∧ t.ctxs = s.ctxs ∧ t.cores = s.cores := by
  obtain ⟨c, hctxs, hshows⟩ := State.raise_shows { s.mgmtView with cur := 8 * core } { cause := 1, xinfo := BitVec.ofNat 64 (mgmtIll i) }
  generalize hu : ({ s.mgmtView with cur := 8 * core } : State).raise { cause := 1, xinfo := BitVec.ofNat 64 (mgmtIll i) } = u at hctxs
  have hany : u.ctxs.any (fun e => e.2.entered || e.2.trap.isSome) = true := List.any_eq_true.2 ⟨_, hctxs ▸ mem_tset_same _ _ c, hshows⟩
  have hrun : runTurn (.mgmtIssue core) s = .next (s.mgmtBack u) := by rw [mgmtIssue_run hc hon, mgmtSlot_traps hi ho hm, hu]; rfl
  obtain ⟨hcs, hmem, hsame, hx, hk⟩ := s.mgmtBack_beside u
  have hboot : (s.mgmtBack u).bootState = (if s.bootState = 4 then 6 else 5) ∧ (s.bootState = 4 → fld (s.mgmtBack u).regs.bstat.toNat 8 8 = 7) := by
    unfold State.mgmtBack
    by_cases h4 : s.bootState = 4
    · simp only [h4, hany, and_self, if_true]
      exact ⟨State.bootState_bootFail _ 7, fun _ => State.error_bootFail _ (by decide)⟩
    · have h5 : s.bootState = 5 := by simpa [State.mgmtOn, h4] using hon
      simp only [h4, false_and, if_false]
      exact ⟨h5, nofun⟩
  exact ⟨_, u, hrun, rfl, hcs, hmem, hboot.1, hboot.2, hsame, hx, hk⟩

theorem mgmtIssue_issues {core : Nat} {u : State} (hc : core < 4) (hon : s.mgmtOn = true) (hi : ∀ i, s.mgmtView.nextInstr (8 * core) = .ok i → onMgmt i = true) (hu : s.mgmtView.issueSlot core = .next u) :
    runTurn (.mgmtIssue core) s = .next (s.mgmtBack u) := by
  rw [mgmtIssue_run hc hon, mgmtSlot_issues hi, hu]
  rfl

/-! Ports (R377). -/

theorem State.portSet_spec (s : State) (n : Nat) {st lanes : Nat} (hst : st < 16) (hl : lanes < 256) :
    (s.portSet n st lanes).portState n = st ∧ fld ((s.portSet n st lanes).port n).ulstat.toNat 4 8 = lanes := by
  have hp : (s.portSet n st lanes).port n = _ := s.port_setPort_same n _
  rw [State.portState, hp, fld_w64 (by decide), fld_w64 (by decide), fld_setFld_other (.inl (by decide)), fld_setFld_same, fld_setFld_same]
  exact ⟨Nat.mod_eq_of_lt hst, Nat.mod_eq_of_lt hl⟩

/-- The count of retried flits leaves the fields below it. -/
theorem State.flits_low (s : State) (n : Nat) {lo w : Nat} (h : lo + w ≤ 32) : fld ((s.flits n).port n).ulstat.toNat lo w = fld (s.port n).ulstat.toNat lo w := by
  have hp : (s.flits n).port n = _ := s.port_setPort_same n _
  rw [hp, fld_w64 (by omega), fld_setFld_other (.inl h)]

section
variable (hs : s.still = false)
include hs

theorem ulctlWrite_run {port : Nat} (v : Word) (hp : port < 24) : ∃ t, exec (.ulctlWrite port v) s = .next t ∧ (t.port port).ulctl = BitVec.ofNat 64 (v.toNat % 16)
    ∧ t.portState port = (if v.getLsbD 0 then 1 else 0) ∧ (t.port port).since = s.tick := by
  obtain ⟨hc, hst, hsince, -⟩ := s.ulctlSet_spec port v
  exact ⟨_, exec_event (decide (port < 24)) (fun s => s.ulctlSet port v) rfl (decide_eq_true hp) hs, hc, hst, hsince⟩

theorem linkUp_run {port lanes : Nat} (h1 : s.portState port = 1) (ht : s.tick ≤ (s.port port).since + 2000000) (hlo : 1 ≤ lanes) (hhi : lanes ≤ (s.port port).lanes) :
    ∃ t, exec (.linkUp port lanes) s = .next t ∧ t.portState port = 2 ∧ fld (t.port port).ulstat.toNat 4 8 = lanes := by
  have hmax : (s.port port).lanes ≤ 8 := by
    unfold Port.lanes
    split <;> decide
  obtain ⟨hst, hl⟩ := s.portSet_spec port (st := 2) (lanes := lanes) (by decide) (by omega)
  refine ⟨_, exec_event (s.portState port == 1 && decide (s.tick ≤ (s.port port).since + 2000000) && decide (1 ≤ lanes) && decide (lanes ≤ (s.port port).lanes)) (fun s => (s.portSet port 2 lanes).flits port) rfl
    (by simp [h1, ht, hlo, hhi]) hs, ?_, ?_⟩
  · exact ((s.portSet port 2 lanes).flits_low port (by decide)).trans hst
  · exact ((s.portSet port 2 lanes).flits_low port (by decide)).trans hl

theorem linkTrainingTimeout_run {port : Nat} (h1 : s.portState port = 1) (ht : (s.port port).since + 2000000 ≤ s.tick) : ∃ t, exec (.linkTrainingTimeout port) s = .next t ∧ t.portState port = 3 :=
  ⟨_, exec_event (s.portState port == 1 && decide ((s.port port).since + 2000000 ≤ s.tick)) (fun s => s.portSet port 3 0) rfl (by simp [h1, ht]) hs, (s.portSet_spec port (by decide) (by decide)).1⟩

end

/-- A port that loses its peer answers what is outstanding on it as lost (R378). -/
theorem State.loseOutstanding_flight (s : State) {port core dev : Nat} {a : Access} {p : Piece} (ha : a ∈ (s.core core).flight) (hp : p ∈ a.pieces) (hd : p.done = false) (hl : p.lost = none)
    (hr : p.place = .remote dev) (hto : s.portTo dev p.pa = some port) (hgo : (s.core core).freeToGo a p = true) :
    ∃ b ∈ ((s.loseOutstanding port).core core).flight, b.id = a.id ∧ { p with lost := some s.tick } ∈ b.pieces := by
  have huses : s.uses port p.place p.pa = true := by simp [State.uses, hr, hto]
  unfold State.loseOutstanding
  extract_lets piece epiece eng co
  have hcore : ({ s with cores := s.cores.map fun (e : Nat × Core) => (e.1, co e.2) } : State).core core = co (s.core core) := tget_map_default (by rfl) _ _
  rw [hcore]
  refine ⟨_, List.mem_map_of_mem ha, rfl, List.mem_map.2 ⟨p, hp, ?_⟩⟩
  simp only [piece, hd, hl, huses, hgo, Bool.not_false, Option.isNone_none, Bool.and_self, if_true]

theorem linkPeerLoss_run (hs : s.still = false) {port : Nat} (h2 : s.portState port = 2) : ∃ t, exec (.linkPeerLoss port) s = .next t ∧ t.portState port = 1 ∧ sameMemory s t ∧ t.ctxs = s.ctxs
    ∧ ∀ core a p dev, a ∈ (s.core core).flight → p ∈ a.pieces → p.done = false → p.lost = none → p.place = .remote dev → s.portTo dev p.pa = some port →
      (s.core core).freeToGo a p = true →
      ∃ b ∈ (t.core core).flight, b.id = a.id ∧ { p with lost := some s.tick } ∈ b.pieces :=
  ⟨_, exec_event (s.portState port == 2) (fun s => ((s.loseOutstanding port).portSet port 1 0).flits port) rfl (by rw [h2]; rfl) hs, (((s.loseOutstanding port).portSet port 1 0).flits_low port (by decide)).trans ((s.loseOutstanding port).portSet_spec port (by decide) (by decide)).1, ⟨rfl, rfl, rfl, rfl⟩, rfl,
    fun _ _ _ _ ha hp hd hl hr hto hgo => s.loseOutstanding_flight ha hp hd hl hr hto hgo⟩

/-! A remote access that has lost its port (R378). -/

theorem State.linkLost_iff {dev : Nat} {p : Piece} (hr : p.place = .remote dev) (hd : p.done = false)
    (h : (∃ x, p.lost = some x ∧ x + 100000 ≤ s.tick) ∨ (p.lost = none ∧ ∃ n, s.portTo dev p.pa = some n ∧ s.portUp n = false ∧ (s.port n).since + 100000 ≤ s.tick)) : s.linkLost p = true := by
  unfold State.linkLost
  rcases h with ⟨x, hl, hx⟩ | ⟨hl, n, hn, hup, hsince⟩
  · simp [hr, hd, hl, hx]
  · simp [hr, hd, hl, hn, hup, hsince]

/-- A store or atomic at a remote home leaves every context alone. -/
theorem State.pieceEffect_ctxs (s : State) (core dev : Nat) (a : Access) {p : Piece} (hr : p.place = .remote dev) (hk : a.kind.stores = true) : (s.pieceEffect core a p).2.ctxs = s.ctxs := by
  unfold State.pieceEffect
  split <;> rename_i hkind
  · rw [hkind] at hk
    cases hk
  · unfold State.storePiece
    rw [if_neg (by rw [hr]; exact nofun)]
    exact ((Wrote.storeHome _ _ _ _ _).trans (Wrote.afterStore _ _ _ _ _ _)).ctxs
  · unfold State.atomicPiece
    dsimp only
    split
    · exact (Wrote.afterStore _ _ _ _ _ _).ctxs
    · exact ((Wrote.storeHome _ _ _ _ _).trans (Wrote.afterStore _ _ _ _ _ _)).ctxs
  · rfl
  · rfl

theorem State.perhaps_reads (s : State) (core : Nat) {a : Access} (p : Piece) (hk : a.kind.stores = false) : s.perhaps core a p = s := if_pos (.inl hk)

theorem State.perhaps_ctxs (s : State) (core dev : Nat) (a : Access) {p : Piece} (hr : p.place = .remote dev) : (s.perhaps core a p).ctxs = s.ctxs := by
  by_cases hk : a.kind.stores = true
  · unfold State.perhaps
    dsimp only
    split
    · rfl
    · split
      · exact s.fresh.pieceEffect_ctxs core dev a hr hk
      · rfl
  · rw [s.perhaps_reads core p (Bool.eq_false_iff.2 hk)]

/-- The undoing of a TFILL's binding leaves the accesses in flight, and which slots hold a context. -/
theorem State.unfill_beside (s : State) (core : Nat) (a : Access) : sameMemory s (s.unfill core a) ∧ ((s.unfill core a).core core).flight = (s.core core).flight ∧ ∀ k, ((s.unfill core a).ctx k).occ = (s.ctx k).occ := by
  unfold State.unfill
  split
  · dsimp only
    split
    · refine ⟨⟨rfl, rfl, rfl, rfl⟩, ?_, fun k => ?_⟩
      · rw [State.core_setCtx, State.core_setCore_same]
        rfl
      · rw [State.ctx_setCtx]
        split
        · subst_vars
          rfl
        · rfl
    · exact ⟨.refl s, rfl, fun _ => rfl⟩
  · exact ⟨.refl s, rfl, fun _ => rfl⟩

/-- An access that fails ends without a result, and its context takes ECC (R378, R390). -/
theorem State.failAccess_spec (s : State) (core : Nat) (a : Access) (va : Word) (hocc : (s.ctx (8 * core + a.slot)).occ = true) : sameMemory s (s.failAccess core a va)
    ∧ (∀ x ∈ ((s.failAccess core a va).core core).flight, x.id ≠ a.id) ∧ ∃ tr, ((s.failAccess core a va).ctx (8 * core + a.slot)).ecc = some tr ∧ tr.cause = 18 ∧ tr.xaddr = va := by
  obtain ⟨hmem, hflight, hoccs⟩ := (s.dropAccess core a.id).unfill_beside core a
  have hfilter : ((s.dropAccess core a.id).core core).flight = (s.core core).flight.filter fun x => x.id != a.id := congrArg Core.flight (s.core_setCore_same core _)
  unfold State.failAccess
  generalize (s.dropAccess core a.id).unfill core a = u at hmem hflight hoccs
  have hu : (u.ctx (8 * core + a.slot)).occ = true := (hoccs _).trans hocc
  have hnone : ∀ x ∈ (u.core core).flight, x.id ≠ a.id := fun x hx => by
    rw [hflight, hfilter] at hx
    exact bne_iff_ne.1 (List.mem_filter.1 hx).2
  extract_lets t k c c1 mine c2
  have hc2 : c2.occ = true := by
    have hmarks : c1.occ = true := (congrArg Prod.fst (c.shown_marks false a.regs)).trans hu
    simp only [c2]
    split
    · exact hmarks
    · exact hmarks
  rw [if_neg (by rw [hc2]; decide)]
  exact ⟨hmem, hnone, { cause := 18, xaddr := va, xinfo := info 15 a.kind.code 0 }, congrArg Ctx.ecc (State.ctx_setCtx_same _ _ _), rfl, rfl⟩

theorem remoteAccessTimeout_run (hs : s.still = false) {core id dev : Nat} {a : Access} {p : Piece} (hf : (s.core core).flight.find? (fun x => x.id == id) = some a) (hp : a.pieces = [p])
    (hr : p.place = .remote dev) (hd : p.done = false)
    (h : (∃ x, p.lost = some x ∧ x + 100000 ≤ s.tick) ∨ (p.lost = none ∧ ∃ n, s.portTo dev p.pa = some n ∧ s.portUp n = false ∧ (s.port n).since + 100000 ≤ s.tick))
    (hocc : (s.ctx (8 * core + a.slot)).occ = true) :
    ∃ t tr, exec (.remoteAccessTimeout core id) s = .next t ∧ (∀ x ∈ (t.core core).flight, x.id ≠ id) ∧ (t.ctx (8 * core + a.slot)).ecc = some tr ∧ tr.cause = 18 ∧ tr.xaddr = p.va ∧ (a.kind.stores = false → sameMemory s t) := by
  have hlost := State.linkLost_iff hr hd h
  have hid : a.id = id := by simpa using List.find?_some hf
  have hrun : exec (.remoteAccessTimeout core id) s = .next ((s.perhaps core a p).failAccess core a p.va) := by
    show execRemoteAccessTimeout core id s = _
    rw [execRemoteAccessTimeout, event_on rfl hs]
    simp only [hf, hp, List.find?_cons, hlost]
    rfl
  have hctx : (s.perhaps core a p).ctx (8 * core + a.slot) = s.ctx (8 * core + a.slot) := State.ctx_congr (s.perhaps_ctxs core dev a hr) _
  obtain ⟨hmem, hnone, tr, htr, hcause, haddr⟩ := (s.perhaps core a p).failAccess_spec core a p.va (hctx ▸ hocc)
  exact ⟨_, tr, hrun, hid ▸ hnone, htr, hcause, haddr, fun hk => by rw [s.perhaps_reads core p hk] at hmem ⊢; exact hmem⟩

end Sys2Proof.Machine
end

section
/-! SUPPORT. Accesses of other devices and of the host, the reduction queues, power, freeze and the clock (R155, R338, R376, R380 to R384). -/

set_option Elab.async false

namespace Sys2Proof.Machine

open Sys2Proof

variable {s : State}

/-! Accesses from outside (R155, R376). -/

/-- A store to bytes that no record map keeps, in memory of canonical form. -/
theorem storeHome_reads {pa n : Nat} (hp : s.plain pa n) (hw : s.memWf = true) (v : Nat) :
    mread (s.storeHome .here pa n v).mem pa n = v % 256 ^ n ∧ ∀ x, x < pa ∨ pa + n ≤ x → mget (s.storeHome .here pa n v).mem x = mget s.mem x := by
  have hwf : Mem.wf s.mem = true := (State.memWf_iff.1 hw).1
  rw [State.storeHome_plain hp, State.pierWrite_mem]
  exact ⟨mread_mwrite hwf _ _ _, fun _ hx => mget_mwrite_outside hwf v hx⟩

section
variable {pa n : Nat} (hs : s.still = false) (hb : s.blockBusy pa n = false) (hpo : s.poisonedPart pa n = false)
include hs hb hpo

theorem remoteRead_run (hpa : pa + n ≤ 0x8000000000) : exec (.remoteAccessArrival pa (.read n)) s = .next s :=
  exec_event (decide (pa + n ≤ 0x8000000000) && !s.blockBusy pa n && !s.poisonedPart pa n) (fun s => s) rfl (by simp [hpa, hb, hpo]) hs

theorem remoteWrite_run (hpa : pa + n ≤ 0x8000000000) (v : Nat) : exec (.remoteAccessArrival pa (.write n v)) s = .next ((s.storeHome .here pa n v).clearPoison pa n) :=
  exec_event (decide (pa + n ≤ 0x8000000000) && !s.blockBusy pa n && !s.poisonedPart pa n) (fun s => (s.storeHome .here pa n v).clearPoison pa n) rfl (by simp [hpa, hb, hpo]) hs

theorem remoteAtomic_run (hpa : pa + n ≤ 0x8000000000) (op y c : Nat) : exec (.remoteAccessArrival pa (.atomic op n y c)) s
    = .next (if op = 9 ∧ s.readHome .here pa n ≠ c then s else s.storeHome .here pa n (atomicVal op n (s.readHome .here pa n) y c)) :=
  exec_event (decide (pa + n ≤ 0x8000000000) && !s.blockBusy pa n && !s.poisonedPart pa n)
    (fun s => if op = 9 ∧ s.readHome .here pa n ≠ c then s else s.storeHome .here pa n (atomicVal op n (s.readHome .here pa n) y c)) rfl (by simp [hpa, hb, hpo]) hs

end

/-- What a remote access does at its home (R155). -/
theorem remoteAccess_spec {pa n : Nat} (hs : s.still = false) (hpa : pa + n ≤ 0x8000000000) (hb : s.blockBusy pa n = false) (hpo : s.poisonedPart pa n = false) (hp : s.plain pa n) (hw : s.memWf = true) :
    exec (.remoteAccessArrival pa (.read n)) s = .next s
      ∧ (∀ v, ∃ t, exec (.remoteAccessArrival pa (.write n v)) s = .next t ∧ mread t.mem pa n = v % 256 ^ n ∧ ∀ x, x < pa ∨ pa + n ≤ x → mget t.mem x = mget s.mem x)
      ∧ (∀ y c, ∃ t, exec (.remoteAccessArrival pa (.atomic 0 n y c)) s = .next t ∧ mread t.mem pa n = (mread s.mem pa n + y) % 256 ^ n ∧ ∀ x, x < pa ∨ pa + n ≤ x → mget t.mem x = mget s.mem x)
      ∧ (∀ y c, ∃ t, exec (.remoteAccessArrival pa (.atomic 9 n y c)) s = .next t ∧ mread t.mem pa n = (if mread s.mem pa n = c then y % 256 ^ n else mread s.mem pa n) ∧ ∀ x, x < pa ∨ pa + n ≤ x → mget t.mem x = mget s.mem x) := by
  refine ⟨remoteRead_run hs hb hpo hpa, fun v => ⟨_, remoteWrite_run hs hb hpo hpa v, storeHome_reads hp hw v⟩, fun y c => ?_, fun y c => ?_⟩
  · obtain ⟨hin, hout⟩ := storeHome_reads hp hw (atomicVal 0 n (mread s.mem pa n) y c)
    have hrun := remoteAtomic_run hs hb hpo hpa 0 y c
    rw [if_neg (fun h => absurd h.1 (by decide)), State.readHome_plain hp] at hrun
    refine ⟨_, hrun, hin.trans ?_, hout⟩
    rw [atomicVal, Nat.pow_mul]
    exact Nat.mod_mod _ _
  · have hrun := remoteAtomic_run hs hb hpo hpa 9 y c
    rw [State.readHome_plain hp] at hrun
    by_cases hc : mread s.mem pa n = c
    · rw [if_neg fun h => h.2 hc] at hrun
      obtain ⟨hin, hout⟩ := storeHome_reads hp hw (atomicVal 9 n (mread s.mem pa n) y c)
      refine ⟨_, hrun, hin.trans ?_, hout⟩
      rw [if_pos hc, atomicVal, if_pos hc]
    · rw [if_pos ⟨rfl, hc⟩] at hrun
      exact ⟨s, hrun, (if_neg hc).symm, fun _ _ => rfl⟩

/-- What a host access does through BAR2 (R376). -/
theorem hostAccess_spec {off len : Nat} (v : Nat) (hs : s.still = false) :
    let pa := s.regs.pcib2.toNat / 2 ^ 36 % 2 ^ 20 * 2 ^ 36 + off
    off + len ≤ 2 ^ 36 → pa + len ≤ 0x8000000000 → s.blockBusy pa len = false → s.poisonedPart pa len = false → s.plain pa len → s.memWf = true →
      exec (.hostAccess off len none) s = .next s
      ∧ ∃ t, exec (.hostAccess off len (some v)) s = .next t ∧ mread t.mem pa len = v % 256 ^ len ∧ (∀ x, x < pa ∨ pa + len ≤ x → mget t.mem x = mget s.mem x) ∧ t.ctxs = s.ctxs := by
  intro pa hoff hpa hb hpo hp hw
  have hon : (decide (off + len ≤ 2 ^ 36) && decide (pa + len ≤ 0x8000000000) && !s.blockBusy pa len && !s.poisonedPart pa len) = true := by
    rw [decide_eq_true hoff, decide_eq_true hpa, hb, hpo]
    rfl
  obtain ⟨hin, hout⟩ := storeHome_reads hp hw v
  exact ⟨exec_event _ (fun s => s) rfl hon hs, _, exec_event _ (fun s => (s.storeHome .here pa len v).clearPoison pa len) rfl hon hs, hin, hout, (Wrote.storeHome s .here pa len v).ctxs⟩

/-! Reduction queues (R380). -/

/-- The bytes of a number of 128 bytes written as two halves. -/
theorem mread_halves {m : Mem} (h : m.wf = true) (a x : Nat) :
    mread (mwrite (mwrite m a 64 (fld x 0 512)) (a + 64) 64 (fld x 512 512)) a 128 = x % 256 ^ 128 := by
  have hbyte : ∀ v w j lo : Nat, fld v (8 * j) 8 = fld w (8 * lo) 8 → BitVec.ofNat 8 (v / 256 ^ j) = BitVec.ofNat 8 (w / 256 ^ lo) := fun v w j lo he => by
    apply BitVec.eq_of_toNat_eq
    rw [BitVec.toNat_ofNat, BitVec.toNat_ofNat]
    simpa only [fld, Nat.pow_mul] using he
  refine mread_of_bytes fun j hj => ?_
  by_cases hj64 : j < 64
  · rw [mget_mwrite_outside (wf_mwrite h _ _ _) _ (.inl (by omega)), mget_mwrite_inside h _ hj64]
    refine hbyte _ _ _ _ ?_
    rw [fld_fld (by omega), Nat.zero_add]
  · rw [show a + j = a + 64 + (j - 64) by omega, mget_mwrite_inside (wf_mwrite h _ _ _) _ (by omega)]
    refine hbyte _ _ _ _ ?_
    rw [fld_fld (by omega)]
    congr 1
    omega

/-- The state in which a block has arrived in slot `j`, at address `a`. -/
def State.reduced (s : State) (port i j a : Nat) (block : Vec) : State :=
  let t := s.setPort port { s.port port with used := (s.port port).used ||| BitVec.ofNat 256 (2 ^ j), queue := (s.port port).queue ++ [(i, a)] }
  (t.storeHome .here a 64 (fld block.toNat 0 512)).storeHome .here (a + 64) 64 (fld block.toNat 512 512)

theorem reductionBlockArrival_run {port i j : Nat} (block : Vec) (hs : s.still = false) (h2 : s.portState port = 2) (hi : i < 256) (hj : j < 256) (hfree : (s.port port).used.getLsbD j = false)
    (hlow : ∀ m, m < j → (s.port port).used.getLsbD m = true) :
    let a := (s.port port).rqbase.toNat / 2 ^ 15 % 2 ^ 41 * 2 ^ 15 + 128 * j
    a + 128 ≤ 0x8000000000 → exec (.reductionBlockArrival port i block) s = .next (if s.blockBusy a 128 then s else s.reduced port i j a block) := by
  intro a ha
  have hfind : (List.range 256).find? (fun j => !(s.port port).used.getLsbD j) = some j := by
    rw [List.find?_range_eq_some]
    exact ⟨by rw [hfree]; rfl, List.mem_range.2 hj, fun m hm => by rw [hlow m hm]; rfl⟩
  have hplace : placeOf a = .here := if_pos (by omega)
  have hheld : s.placeHeld .here a 128 = s.blockBusy a 128 := by simp [State.placeHeld]
  show execReductionBlockArrival port i block s = _
  rw [execReductionBlockArrival, event_on (by simp [h2, hi]) hs]
  simp only [hfind]
  show Host.Outcome.next (if s.placeHeld (placeOf a) a 128 = true then s
    else ((s.setPort port { s.port port with used := (s.port port).used ||| BitVec.ofNat 256 (2 ^ j), queue := (s.port port).queue ++ [(i, a)] }).storeHome (placeOf a) a 64 (fld block.toNat 0 512)).storeHome
      (placeOf a) (a + 64) 64 (fld block.toNat 512 512)) = _
  rw [hplace, hheld]
  rfl

theorem State.reduced_spec {port i j a : Nat} (block : Vec) (hj : j < 256) (hp : s.plainFor a 128) (hw : s.memWf = true) :
    ((s.reduced port i j a block).port port).queue = (s.port port).queue ++ [(i, a)] ∧ ((s.reduced port i j a block).port port).used.getLsbD j = true
      ∧ mread (s.reduced port i j a block).mem a 128 = block.toNat ∧ ∀ x, x < a ∨ a + 128 ≤ x → mget (s.reduced port i j a block).mem x = mget s.mem x := by
  have hwf : Mem.wf s.mem = true := (State.memWf_iff.1 hw).1
  unfold State.reduced
  extract_lets p t
  have hpt : t.plainFor a 128 := hp
  have hstore : (t.storeHome .here a 64 (fld block.toNat 0 512)).storeHome .here (a + 64) 64 (fld block.toNat 512 512) = (t.pierWrite a 64 (fld block.toNat 0 512)).pierWrite (a + 64) 64 (fld block.toNat 512 512) := by
    rw [State.storeHome_plain (State.plain_of_plainFor hpt hwf (Nat.le_refl a) (by omega)),
      State.storeHome_plain (State.plain_of_plainFor (State.plainFor_pierWrite hpt hwf _ (Nat.le_refl a) (by omega)) (wf_mwrite hwf _ _ _) (by omega) (by omega))]
  have hport : ((t.storeHome .here a 64 (fld block.toNat 0 512)).storeHome .here (a + 64) 64 (fld block.toNat 512 512)).port port = t.port port :=
    ((Wrote.storeHome t _ _ _ _).trans (Wrote.storeHome _ _ _ _ _)).keeps (fun u => u.port port) fun _ _ _ _ _ _ _ _ => rfl
  have hmem : ((t.storeHome .here a 64 (fld block.toNat 0 512)).storeHome .here (a + 64) 64 (fld block.toNat 512 512)).mem = mwrite (mwrite s.mem a 64 (fld block.toNat 0 512)) (a + 64) 64 (fld block.toNat 512 512) := by
    rw [hstore, State.pierWrite_mem, State.pierWrite_mem, show t.mem = s.mem from rfl]
  rw [hport, hmem, show t.port port = _ from s.port_setPort_same port _]
  refine ⟨rfl, ?_, (mread_halves hwf a block.toNat).trans (Nat.mod_eq_of_lt ?_), fun x hx => ?_⟩
  · rw [BitVec.getLsbD_or, BitVec.getLsbD_ofNat, decide_eq_true hj, Nat.testBit_two_pow_self]
    exact Bool.or_true _
  · exact lt_of_lt_of_eq block.isLt (Nat.pow_mul 2 8 128)
  · rw [mget_mwrite_outside (wf_mwrite hwf _ _ _) _ (by omega), mget_mwrite_outside hwf _ (by omega)]

theorem rqrelWrite_run {port : Nat} {v : Word} (hs : s.still = false) (hp : port < 24) : exec (.rqrelWrite port v) s = .next (s.rqrelSet port v) :=
  exec_event (decide (port < 24)) (fun s => s.rqrelSet port v) rfl (decide_eq_true hp) hs

theorem State.rqrelSet_queued {port : Nat} {v : Word} (hq : (s.port port).queued v.toNat = true) : s.rqrelSet port v = s := if_pos (.inr hq)

theorem State.rqrelSet_popped {port : Nat} {v : Word} (hv : v.toNat ≤ 255) (hq : (s.port port).queued v.toNat = false) :
    ((s.rqrelSet port v).port port).used.getLsbD v.toNat = false ∧ (∀ m, m ≠ v.toNat → ((s.rqrelSet port v).port port).used.getLsbD m = (s.port port).used.getLsbD m)
      ∧ ((s.rqrelSet port v).port port).queue = (s.port port).queue := by
  have hset : s.rqrelSet port v = s.setPort port { s.port port with used := (s.port port).used &&& ~~~(BitVec.ofNat 256 (2 ^ v.toNat)) } := if_neg (by rw [hq]; simp [hv])
  rw [hset, State.port_setPort_same]
  refine ⟨?_, fun m hm => ?_, rfl⟩
  · rw [BitVec.getLsbD_and, BitVec.getLsbD_not, BitVec.getLsbD_ofNat, Nat.testBit_two_pow_self, decide_eq_true (by omega : v.toNat < 256)]
    exact Bool.and_false _
  · rw [BitVec.getLsbD_and, BitVec.getLsbD_not, BitVec.getLsbD_ofNat, Nat.testBit_two_pow, decide_eq_false hm.symm, Bool.and_false, Bool.not_false, Bool.and_true]
    by_cases hm256 : m < 256
    · rw [decide_eq_true hm256, Bool.and_true]
    · rw [BitVec.getLsbD_of_ge _ _ (not_lt.1 hm256), Bool.false_and]

end Sys2Proof.Machine
end

section
/-! SUPPORT. Power, freeze, errors and the reference clock (R355, R381 to R384, R389 to R392). -/

set_option Elab.async false

namespace Sys2Proof.Machine

open Sys2Proof

variable {s : State}

/-! The budget period (R381). -/

/-- A duty moves by at most 2 in a period. -/
theorem nextDuty_near {old : Nat} (h : old ≤ 16) (want : Option Nat) (hot : Bool) : nextDuty old want hot ≤ old + 2 ∧ old ≤ nextDuty old want hot + 2 := by
  unfold nextDuty
  dsimp only
  omega

/-- The clusters as the sensors report them, at a budget period. -/
def State.sensed (s : State) (plan : BudgetPlan) : State := (List.range 48).foldl (fun s n =>
  let c := s.cluster n
  let hot := match planOf plan.temp n with | none => c.hot | some t => if 105 ≤ t then true else if t < 100 then false else c.hot
  let bias := match planOf plan.bias n with | none => c.bias | some b => BitVec.ofNat 4 b
  s.setCluster n { c with hot, bias, energy := c.energy + w64 ((planOf plan.energy n).getD 0) }) s

/-- The duty of a core at a budget period. -/
def State.dutySet (s : State) (plan : BudgetPlan) (k : Nat) : State :=
  s.setCore k { s.core k with fduty := BitVec.ofNat 5 (nextDuty (s.core k).fduty.toNat (planOf plan.fduty k) (s.cluster (k / 32)).hot) }

/-- The refill rates of the rows at a budget period. -/
def State.refilled (s : State) (plan : BudgetPlan) : State := (List.range 192).foldl (fun s r => match planOf plan.refill r with
  | none => s
  | some v => s.setRow r { s.row r with refill := max 1 (min v 255) }) s

/-- The end of a budget period, in which a junction of 115 °C freezes the device. -/
def State.budgeted (s : State) (plan : BudgetPlan) : State :=
  let t : State := { s with budgetAt := s.tick, regs := { s.regs with pwnow := w64 (plan.power % 2 ^ 12) } }
  if plan.temp.any (fun e => decide (115 ≤ e.2)) then t.doFreeze else t

theorem budgetPeriod_run (plan : BudgetPlan) (hs : s.still = false) (h : s.budgetAt + 1000 ≤ s.tick) :
    exec (.budgetPeriod plan) s = .next ((((List.range 1536).foldl (fun s k => s.dutySet plan k) (s.sensed plan)).refilled plan).budgeted plan) := by
  show execBudgetPeriod plan s = _
  rw [execBudgetPeriod, event_on (decide_eq_true h) hs]
  rfl

/-- What a budget period leaves of the device. -/
def State.settled (s : State) : (Mem × Mem × Tbl (BitVec 32) × List Nat) × Tbl Ctx × Word := ((s.mem, s.rmem, s.lineMeta, s.poison), s.ctxs, s.now)

theorem State.settled_setCluster (s : State) (n : Nat) (c : Cluster) : (s.setCluster n c).settled = s.settled := rfl

theorem State.sensed_beside (s : State) (plan : BudgetPlan) : (s.sensed plan).settled = s.settled ∧ (s.sensed plan).cores = s.cores := by
  unfold State.sensed
  refine ⟨foldl_keeps (P := fun u : State => u.settled = s.settled) (fun u n hu => ?_) _ rfl, foldl_keeps (P := fun u : State => u.cores = s.cores) (fun u n hu => ?_) _ rfl⟩
  · exact (State.settled_setCluster _ _ _).trans hu
  · exact (State.setCluster_cores _ _ _).trans hu

theorem State.refilled_beside (s : State) (plan : BudgetPlan) : (s.refilled plan).settled = s.settled ∧ (s.refilled plan).cores = s.cores := by
  refine ⟨foldl_keeps (P := fun u : State => u.settled = s.settled) (fun u r hu => ?_) _ rfl, foldl_keeps (P := fun u : State => u.cores = s.cores) (fun u r hu => ?_) _ rfl⟩
  · dsimp only
    split <;> exact hu
  · dsimp only
    split <;> exact hu

/-- A pass over the cores gives each one its next duty. -/
theorem dutySet_foldl (plan : BudgetPlan) (l : List Nat) (hl : l.Nodup) (s : State) : (l.foldl (fun s k => s.dutySet plan k) s).settled = s.settled
    ∧ (∀ k, k ∉ l → (l.foldl (fun s k => s.dutySet plan k) s).core k = s.core k)
    ∧ ∀ k ∈ l, ∃ hot, ((l.foldl (fun s k => s.dutySet plan k) s).core k).fduty = BitVec.ofNat 5 (nextDuty (s.core k).fduty.toNat (planOf plan.fduty k) hot) := by
  induction l generalizing s with
  | nil => exact ⟨rfl, fun _ _ => rfl, fun k hk => absurd hk List.not_mem_nil⟩
  | cons j l ih =>
    obtain ⟨hj, hl⟩ := List.nodup_cons.1 hl
    obtain ⟨hset, hout, hin⟩ := ih hl (s.dutySet plan j)
    have hother : ∀ k, k ≠ j → (s.dutySet plan j).core k = s.core k := fun k hk => s.core_setCore_other hk _
    refine ⟨hset, fun k hk => ?_, fun k hk => ?_⟩
    · exact (hout k fun h => hk (List.mem_cons_of_mem _ h)).trans (hother k fun h => hk (h ▸ List.mem_cons_self))
    · by_cases hkj : k = j
      · subst hkj
        refine ⟨_, (congrArg Core.fduty ((hout k hj).trans (s.core_setCore_same k _)))⟩
      · obtain ⟨hot, h⟩ := hin k ((List.mem_cons.1 hk).resolve_left hkj)
        rw [hother k hkj] at h
        exact ⟨hot, h⟩

theorem State.budgeted_spec (s : State) (plan : BudgetPlan) : (s.budgeted plan).budgetAt = s.tick ∧ (s.budgeted plan).regs.pwnow = BitVec.ofNat 64 (plan.power % 2 ^ 12)
    ∧ (s.budgeted plan).settled = s.settled ∧ (s.budgeted plan).cores = s.cores := by
  unfold State.budgeted
  dsimp only
  split
  · exact ⟨rfl, rfl, rfl, rfl⟩
  · exact ⟨rfl, rfl, rfl, rfl⟩

theorem State.sameMemory_of_settled {s t : State} (h : t.settled = s.settled) : sameMemory s t ∧ t.ctxs = s.ctxs ∧ t.now = s.now := by
  simp only [State.settled, Prod.mk.injEq] at h
  obtain ⟨⟨hm, hr, hl, hp⟩, hx, hn⟩ := h
  exact ⟨⟨hm, hr, hl, hp⟩, hx, hn⟩

theorem budgetPeriod_spec (plan : BudgetPlan) (hs : s.still = false) (h : s.budgetAt + 1000 ≤ s.tick) (hd : ∀ k, k < 1536 → (s.core k).fduty.toNat ≤ 16) :
    ∃ t, exec (.budgetPeriod plan) s = .next t ∧ t.budgetAt = s.tick ∧ t.regs.pwnow = BitVec.ofNat 64 (plan.power % 2 ^ 12)
      ∧ (∀ k, k < 1536 → 1 ≤ (t.core k).fduty.toNat ∧ (t.core k).fduty.toNat ≤ 16 ∧ (t.core k).fduty.toNat ≤ (s.core k).fduty.toNat + 2 ∧ (s.core k).fduty.toNat ≤ (t.core k).fduty.toNat + 2)
      ∧ sameMemory s t ∧ t.ctxs = s.ctxs := by
  have hrun := budgetPeriod_run plan hs h
  obtain ⟨hset1, hcores1⟩ := s.sensed_beside plan
  obtain ⟨hset2, -, hin⟩ := dutySet_foldl plan (List.range 1536) List.nodup_range (s.sensed plan)
  generalize (List.range 1536).foldl (fun s k => s.dutySet plan k) (s.sensed plan) = u at hrun hset2 hin
  obtain ⟨hset3, hcores3⟩ := u.refilled_beside plan
  obtain ⟨hat, hpw, hset4, hcores4⟩ := (u.refilled plan).budgeted_spec plan
  have hset := State.sameMemory_of_settled (hset4.trans (hset3.trans (hset2.trans hset1)))
  have htick : (u.refilled plan).tick = s.tick := congrArg BitVec.toNat (State.sameMemory_of_settled (hset3.trans (hset2.trans hset1))).2.2
  refine ⟨_, hrun, hat.trans htick, hpw, fun k hk => ?_, hset.1, hset.2.1⟩
  obtain ⟨hot, hduty⟩ := hin k (List.mem_range.2 hk)
  rw [State.core_congr hcores1] at hduty
  rw [State.core_congr (hcores4.trans hcores3), hduty]
  have hnear := nextDuty_near (hd k hk) (planOf plan.fduty k) hot
  have hrange := nextDuty_bounds (s.core k).fduty.toNat (planOf plan.fduty k) hot
  have hsmall : (BitVec.ofNat 5 (nextDuty (s.core k).fduty.toNat (planOf plan.fduty k) hot)).toNat = nextDuty (s.core k).fduty.toNat (planOf plan.fduty k) hot :=
    (BitVec.toNat_ofNat _ _).trans (Nat.mod_eq_of_lt (by omega))
  rw [hsmall]
  exact ⟨hrange.1, hrange.2, hnear⟩

theorem keeperTaperEnd_run {row x : Nat} (hs : s.still = false) (ht : (s.row row).taper = some x) (hx : x ≤ s.tick) :
    exec (.keeperTaperEnd row) s = .next (s.setRow row { s.row row with taper := none }) := by
  show execKeeperTaperEnd row s = _
  rw [execKeeperTaperEnd, event_on rfl hs]
  simp only [ht, hx, if_true]

/-! Freeze (R384). -/

theorem State.doFreeze_spec (s : State) : s.doFreeze.still = true ∧ s.doFreeze.selfRefresh = true ∧ sameMemory s s.doFreeze ∧ s.doFreeze.ctxs = s.ctxs ∧ s.doFreeze.cores = s.cores ∧ s.doFreeze.now = s.now :=
  ⟨State.still_of_boot (s := s.doFreeze) (s.bootState_setBoot (n := 7) (by decide)), rfl, ⟨rfl, rfl, rfl, rfl⟩, rfl, rfl, rfl⟩

theorem freeze_spec {i : Instr} {v : Word} (hs : s.still = false) (hi : i = .freeze ∨ i = .tapFreeze ∨ (i = .frzWrite v ∧ v.getLsbD 0 = true)) :
    ∃ t, exec i s = .next t ∧ t.still = true ∧ t.selfRefresh = true ∧ sameMemory s t ∧ t.ctxs = s.ctxs ∧ t.cores = s.cores ∧ t.now = s.now := by
  rcases hi with rfl | rfl | ⟨rfl, hv⟩
  · exact ⟨_, exec_event true (fun s => s.doFreeze) rfl rfl hs, s.doFreeze_spec⟩
  · exact ⟨_, exec_event true (fun s => s.doFreeze) rfl rfl hs, s.doFreeze_spec⟩
  · refine ⟨_, exec_event true (fun s => s.frzSet v) rfl rfl hs, ?_⟩
    rw [show s.frzSet v = _ from if_pos hv]
    exact State.doFreeze_spec { s with regs := { s.regs with frz := keep v 0 0 } }

theorem frzWrite_clear {v : Word} (hs : s.still = false) (hv : v.getLsbD 0 = false) : ∃ t, exec (.frzWrite v) s = .next t ∧ t.still = false ∧ t.regs.frz = 0 ∧ t.ctxs = s.ctxs := by
  refine ⟨_, exec_event true (fun s => s.frzSet v) rfl rfl hs, ?_⟩
  have hz : keep v 0 0 = 0 := by
    rw [keep_low]
    have : v.toNat % 2 ^ (0 + 1) = 0 := by
      rw [BitVec.getLsbD, Nat.testBit_zero, decide_eq_false_iff_not] at hv
      omega
    rw [this]
    rfl
  have hset : s.frzSet v = { s with regs := { s.regs with frz := keep v 0 0 } } := if_neg (by rw [hv]; decide)
  rw [hset]
  exact ⟨hs, hz, rfl⟩

/-! Errors (R389 to R392). -/

section
variable (hs : s.still = false)
include hs

theorem eccLine_run {pa : Nat} (hpa : pa < 0x8000000000) : ∃ t, exec (.eccUncorrectable (.line pa)) s = .next t ∧ pa / 64 ∈ t.poison ∧ t.regs.rasumem = bump s.regs.rasumem ∧ t.aer = s.aer + 1
    ∧ t.ring.length = s.ring.length + 1 ∧ t.mem = s.mem ∧ t.ctxs = s.ctxs := by
  have hplace : placeOf pa = .here := if_pos hpa
  refine ⟨_, exec_event (placeOf pa == .here) (fun s => ({ s with poison := if s.poison.contains (pa / 64) then s.poison else s.poison ++ [pa / 64] } : State).raiseError false 1 0x7FF (pa / 64 * 64)) rfl
    (by rw [hplace]; rfl) hs, ?_, rfl, rfl, List.length_append, rfl, rfl⟩
  show pa / 64 ∈ if s.poison.contains (pa / 64) then s.poison else s.poison ++ [pa / 64]
  split
  · exact List.contains_iff_mem.1 ‹_›
  · exact List.mem_append_right _ (List.mem_singleton.2 rfl)

theorem eccCacheLine_run {core line : Nat} (hc : core < 1536) : ∃ t, exec (.eccUncorrectable (.cacheLine core line)) s = .next t ∧ (∀ e ∈ (t.core core).dcache, e.1 ≠ line)
    ∧ t.regs.rascsram = bump s.regs.rascsram ∧ t.ctxs = s.ctxs ∧ sameMemory s t := by
  have hrun := exec_event (i := .eccUncorrectable (.cacheLine core line)) (decide (core < 1536)) (fun s =>
    let s := s.setCore core { s.core core with dcache := tdel (s.core core).dcache line }
    let cl := s.cluster (core / 32)
    let s := s.setCluster (core / 32) { cl with cache := cl.cache.filter (fun e => e.1 != line) }
    { s with regs := { s.regs with rascsram := bump s.regs.rascsram } }) rfl (decide_eq_true hc) hs
  refine ⟨_, hrun, fun e he => ?_, rfl, rfl, rfl, rfl, rfl, rfl⟩
  have hcore : e ∈ ((s.setCore core { s.core core with dcache := tdel (s.core core).dcache line }).core core).dcache := he
  rw [State.core_setCore_same] at hcore
  exact bne_iff_ne.1 (List.mem_filter.1 hcore).2

theorem eccContext_run {core slot : Nat} (hc : core < 1536) (hslot : slot < 8) (hocc : (s.ctx (8 * core + slot)).occ = true) (h0 : (s.core core).eccCount = 0) :
    ∃ t tr, exec (.eccUncorrectable (.context core slot)) s = .next t ∧ (t.ctx (8 * core + slot)).ecc = some tr ∧ tr.cause = 18 ∧ (t.core core).eccCount = 1 ∧ (t.core core).fenced = (s.core core).fenced
      ∧ t.regs.rasusram = bump s.regs.rasusram ∧ sameMemory s t ∧ sameContexts s t (8 * core + slot) := by
  have hrun : exec (.eccUncorrectable (.context core slot)) s = .next ((((s.setCtx (8 * core + slot) { s.ctx (8 * core + slot) with ecc := some { cause := 18, xinfo := info 15 15 0 } }).raiseError true 2 core 0)).setCore core
      { s.core core with eccCount := 1 }) := by
    show execEccUncorrectable (.context core slot) s = _
    rw [execEccUncorrectable, event_on (by simp [hc, hslot]) hs]
    dsimp only
    rw [if_pos hocc]
    have hcore : ((s.setCtx (8 * core + slot) { s.ctx (8 * core + slot) with ecc := some { cause := 18, xinfo := info 15 15 0 } }).raiseError true 2 core 0).core core = s.core core := rfl
    rw [hcore, h0, if_neg (by decide)]
  refine ⟨_, { cause := 18, xinfo := info 15 15 0 }, hrun, ?_, rfl, ?_, ?_, rfl, ⟨rfl, rfl, rfl, rfl⟩, fun j hj => ?_⟩
  · exact congrArg Ctx.ecc (State.ctx_setCtx_same _ _ _)
  · rw [State.core_setCore_same]
  · rw [State.core_setCore_same]
  · exact State.ctx_setCtx_other _ hj _

theorem eccCorrected_run (sram : Bool) : exec (.eccCorrected sram) s
    = .next { s with regs := if sram then { s.regs with rascsram := bump s.regs.rascsram } else { s.regs with rascmem := bump s.regs.rascmem } } :=
  exec_event true (fun s => { s with regs := if sram then { s.regs with rascsram := bump s.regs.rascsram } else { s.regs with rascmem := bump s.regs.rascmem } }) rfl rfl hs

theorem eccCoreState_run {core : Nat} (hc : core < 1536) : exec (.eccUncorrectable (.coreState core)) s = .next ((s.raiseError true 3 core 0).fence core) :=
  exec_event (decide (core < 1536)) (fun s => (s.raiseError true 3 core 0).fence core) rfl (decide_eq_true hc) hs

/-! Reports and stops (R355). -/

theorem crepClear_run {cluster : Nat} {v : Word} (hc : cluster < 48) (hv : v.getLsbD 63 = false) :
    exec (.crepClear cluster v) s = .next (s.setCluster cluster { s.cluster cluster with crepId := 0, crepPc := 0 }) := by
  refine (exec_event (decide (cluster < 48)) (fun s => s.crepSet cluster v) rfl (decide_eq_true hc) hs).trans (congrArg Host.Outcome.next (if_neg ?_))
  rw [hv]
  decide

theorem cstopClear_run {cluster : Nat} {v : Word} (hc : cluster < 48) (hv : v.getLsbD 63 = false) :
    exec (.cstopClear cluster v) s = .next (s.setCluster cluster { s.cluster cluster with cstop := 0 }) := by
  refine (exec_event (decide (cluster < 48)) (fun s => s.cstopSet cluster v) rfl (decide_eq_true hc) hs).trans (congrArg Host.Outcome.next (if_neg ?_))
  rw [hv]
  decide

/-! The reference clock (R7, R382). -/

theorem referenceTick_run (hd : s.due = false) : exec .referenceTick s = .next { s with now := s.now + 1, rows := (List.range 192).map fun r => (r, { s.row r with balance := min 256 ((s.row r).balance + (s.row r).refill) }) } :=
  exec_event (!s.due) (fun s => { s with now := s.now + 1, rows := (List.range 192).map fun r => (r, { s.row r with balance := min 256 ((s.row r).balance + (s.row r).refill) }) }) rfl (by rw [hd]; rfl) hs

end

/-- A clock that a bound holds leaves everything as it is (log 32). -/
theorem referenceTick_held (hd : s.due = true) : exec .referenceTick s = .next s := by
  show execReferenceTick s = _
  rw [execReferenceTick, event, hd]
  rfl

/-- A read of a table listed by its keys. -/
theorem tget_mapped {α : Type} (g : Nat → α) (d : α) {l : List Nat} {k : Nat} (h : k ∈ l) : tget (l.map fun r => (r, g r)) k d = g k := by
  induction l with
  | nil => exact absurd h List.not_mem_nil
  | cons j l ih =>
    rw [List.map_cons, tget]
    split
    · subst_vars
      rfl
    · exact ih ((List.mem_cons.1 h).resolve_left (Ne.symm ‹_›))

end Sys2Proof.Machine
end

section
/-! SUPPORT. What the fencing of a core and the aborts that it begins leave of the error registers and of the fences (R391, R398). -/

set_option Elab.async false

namespace Sys2Proof.Machine

open Sys2Proof

/-- What a fence that has been raised leaves: the error registers and which cores are fenced. -/
def State.alarms (s : State) : Regs × Nat × (Nat → Bool) := (s.regs, s.aer, fun k => (s.core k).fenced)

theorem State.alarms_iff {s t : State} : t.alarms = s.alarms ↔ t.regs = s.regs ∧ t.aer = s.aer ∧ ∀ k, (t.core k).fenced = (s.core k).fenced := by
  simp only [State.alarms, Prod.mk.injEq, funext_iff]

theorem Wrote.alarms {s t : State} (h : Wrote s t) : t.alarms = s.alarms :=
  State.alarms_iff.2 ⟨h.regs, h.keeps State.aer fun _ _ _ _ _ _ _ _ => rfl, fun k => by obtain ⟨dc, hc⟩ := h.core k; rw [hc]⟩

variable {s : State}

theorem State.alarms_setCtx (s : State) (k : Nat) (c : Ctx) : (s.setCtx k c).alarms = s.alarms := rfl

theorem State.alarms_setCore {k : Nat} {c : Core} (h : c.fenced = (s.core k).fenced) : (s.setCore k c).alarms = s.alarms := by
  refine State.alarms_iff.2 ⟨rfl, rfl, fun j => ?_⟩
  rw [State.core_setCore]
  split
  · subst_vars
    exact h
  · rfl

/-- A pass over the cores that fences none of them. -/
theorem State.alarms_mapCores {f : Core → Core} (h0 : f {} = {}) (hf : ∀ c, (f c).fenced = c.fenced) : ({ s with cores := s.cores.map fun (e : Nat × Core) => (e.1, f e.2) } : State).alarms = s.alarms :=
  State.alarms_iff.2 ⟨rfl, rfl, fun k => by
    have : ({ s with cores := s.cores.map fun (e : Nat × Core) => (e.1, f e.2) } : State).core k = f (s.core k) := tget_map_default h0 _ _
    rw [this, hf]⟩

theorem State.alarms_meetGangs (row : Nat) (fresh : Option Nat) : (s.meetGangs row fresh).alarms = s.alarms := by
  unfold State.meetGangs
  dsimp only
  refine foldl_keeps (P := fun u : State => u.alarms = s.alarms) (fun u e hu => ?_) _ rfl
  split
  · exact (u.alarms_setCtx _ _).trans hu
  · exact hu

theorem State.alarms_endWait (k : Nat) : (s.endWait k).alarms = s.alarms := by
  unfold State.endWait
  dsimp only
  split
  · exact (State.alarms_setCtx _ _ _).trans (State.alarms_setCore rfl)
  · exact State.alarms_setCtx _ _ _
  · exact State.alarms_setCtx _ _ _
  · exact State.alarms_setCtx _ _ _
  · exact (State.alarms_meetGangs _ _).trans (State.alarms_setCtx _ _ _)
  · split
    · rfl
    · exact State.alarms_setCtx _ _ _
  · exact State.alarms_setCtx _ _ _
  · rfl

/-- The chains of the park table as a record leaves it: writes of memory, and a wait bit that goes. -/
theorem State.alarms_setWaitBit (pa : Nat) (b : Bool) : (s.setWaitBit pa b).alarms = s.alarms := rfl

theorem State.alarms_parked (l m : List Parked) : ({ s with parked := l, wakes := m } : State).alarms = s.alarms := rfl

theorem State.alarms_unparkAll (n : Nat) : (s.unparkAll n).alarms = s.alarms := by
  unfold State.unparkAll
  refine (foldl_keeps (P := fun u : State => u.alarms = s.alarms) (fun u p hu => ?_) _ rfl :)
  refine (Wrote.freeSlot _ _).alarms.trans (Eq.trans ?_ hu)
  refine Eq.trans (State.alarms_parked (s := ite _ _ _) _ _) ?_
  have hchain : ∀ (t : State) head l e, ((t.writeChain head 56 l).wcntDown e).alarms = t.alarms := fun t head l e => ((Wrote.writeChain _ _ _ _).trans (Wrote.wcntDown _ _)).alarms
  dsimp only
  split
  · rfl
  · split
    · split
      · exact hchain _ _ _ _
      · exact (State.alarms_setWaitBit _ _).trans (hchain _ _ _ _)
    · split
      · exact ((Wrote.writeChain _ _ _ _).trans (Wrote.pierWrite _ _ _ _)).alarms
      · rfl

theorem State.alarms_removeRecords (n : Nat) : (s.removeRecords n).alarms = s.alarms := by
  unfold State.removeRecords
  extract_lets keep cl co u
  have hu : u.alarms = s.alarms := (State.alarms_mapCores (s := { s with clusters := s.clusters.map fun (e : Nat × Cluster) => (e.1, cl e.2) }) (f := co) rfl fun _ => rfl)
  exact (State.alarms_unparkAll n).trans hu

theorem State.alarms_setDctx (n : Nat) (d : DevCtx) : (s.setDctx n d).alarms = s.alarms := rfl

theorem State.alarms_beginAbort (n : Nat) : (s.beginAbort n).alarms = s.alarms := by
  unfold State.beginAbort
  split
  · rfl
  · extract_lets d t1 t2 off co u
    have h2 : t2.alarms = s.alarms := (State.alarms_removeRecords n).trans (State.alarms_setDctx _ _)
    have hu : u.alarms = t2.alarms := State.alarms_mapCores (f := co) rfl fun _ => rfl
    refine foldl_keeps (P := fun v : State => v.alarms = s.alarms) (fun v e hv => ?_) _ (hu.trans h2)
    split
    · exact (State.alarms_endWait _).trans hv
    · exact hv

theorem State.alarms_abortLaunch (n : Nat) : (s.abortLaunch n).alarms = s.alarms := by
  unfold State.abortLaunch
  split
  · exact State.alarms_beginAbort n
  · split
    · exact State.alarms_setDctx _ _
    · rfl

theorem State.alarms_latchOf (core g : Nat) : (s.latchOf core g).alarms = s.alarms := by
  unfold State.latchOf State.latch
  split <;> rfl

/-- A core that is fenced: the fence stands, and the error counters of R389 stay. -/
theorem State.fence_spec (s : State) (core : Nat) : ((s.fence core).core core).fenced = true ∧ (s.fence core).regs.rasusram = s.regs.rasusram ∧ (s.fence core).aer = s.aer := by
  unfold State.fence
  split
  · exact ⟨‹_›, rfl, rfl⟩
  · extract_lets c t1 r t2 t3
    have h3 : t3.alarms = t2.alarms := foldl_keeps (P := fun u : State => u.alarms = t2.alarms) (fun u g hu => (State.alarms_latchOf core g).trans hu) _ rfl
    have h4 : ((List.range 64).foldl (fun s n => if (s.dctx n).launch.isSome && s.onCore n core then s.abortLaunch n else s) t3).alarms = t2.alarms :=
      foldl_keeps (P := fun u : State => u.alarms = t2.alarms) (fun u n hu => by
        split
        · exact (State.alarms_abortLaunch n).trans hu
        · exact hu) _ h3
    obtain ⟨hregs, haer, hfenced⟩ := State.alarms_iff.1 h4
    refine ⟨(hfenced core).trans ?_, by rw [hregs]; rfl, haer⟩
    exact congrArg Core.fenced (s.core_setCore_same core _)

theorem eccCoreState_spec {core : Nat} (hs : s.still = false) (hc : core < 1536) : ∃ t, exec (.eccUncorrectable (.coreState core)) s = .next t ∧ (t.core core).fenced = true
    ∧ t.regs.rasusram = bump s.regs.rasusram ∧ t.aer = s.aer + 1 :=
  ⟨_, eccCoreState_run hs hc, (s.raiseError true 3 core 0).fence_spec core⟩

end Sys2Proof.Machine
end

section
open Sys2Proof Sys2Proof.Machine

/-- Settles O60, a clause from the lemma of each event. -/
theorem deviceEventsHappen : Obligations.DeviceEventsHappen := by
  unfold Obligations.DeviceEventsHappen
  refine ⟨reset_run, fun region off s => ⟨rfl, fun h => if_pos h, fun h7 hr ho => ?_, fun h7 hr hlo hhi => ?_, fun h7 hr hlo hhi => ?_, readout_pier_spec, readout_mgmt, readout_line⟩, fun s hs => ?_⟩
  · rw [readout_image h7 hr, State.imageByte]
    simp only [ho, if_true]
  · rw [readout_image h7 hr, State.imageByte]
    simp only [not_lt.2 hlo, hhi, if_true, if_false]
  · rw [readout_image h7 hr, State.imageByte]
    simp only [not_lt.2 hlo, not_lt.2 ((by decide : 0x18000 ≤ 0x38000).trans hlo), hhi, if_true, if_false]
  refine ⟨fun image h1 => ?_, fun image h2 h0 hl hw => bootFetch_image hs h2 h0 hl hw, fun h2 h0 ht => ⟨_, bootTimeout_run hs h2 h0 ht, s.bootState_bootFail 1, s.error_bootFail (by decide)⟩,
    fun hbm dev trap h3 => bootVerify_rom hs h3, fun hbm dev hlo hhi => ⟨_, bootVerify_trap hs hbm dev hlo hhi, s.bootState_bootFail 7, s.error_bootFail (by decide), s.sameMemory_bootFail 7⟩,
    fun hbm dev trap h4 => bootVerify_cethen hs h4, fun core hc hon => ⟨fun i hi ho hm => mgmtIssue_traps hc hon hi ho hm, fun u hi hu => ?_⟩,
    fun port v hp => ulctlWrite_run hs v hp, fun port lanes h1 => ⟨linkUp_run hs h1, linkTrainingTimeout_run hs h1⟩, fun port h2 => linkPeerLoss_run hs h2,
    fun core id a p dev hf hp hr hd h hocc => remoteAccessTimeout_run hs hf hp hr hd h hocc, fun pa n hpa hb hpo hp hw => remoteAccess_spec hs hpa hb hpo hp hw, fun off len v => hostAccess_spec v hs,
    fun port i j block => ?_, ?_⟩
  · have hrun := bootFetch_trains hs image h1
    by_cases hup : s.pcieUp = true
    · rw [if_pos hup] at hrun
      exact ⟨_, hrun, (State.bootState_setBoot _ (by decide)).trans (if_pos hup).symm, fun _ => rfl, fun h => absurd hup (by rw [h]; decide), rfl, rfl, rfl, rfl⟩
    · rw [if_neg hup] at hrun
      exact ⟨_, hrun, (s.bootState_bootFail 6).trans (if_neg hup).symm, fun h => absurd h hup, fun _ => ⟨s.error_bootFail (by decide), State.still_of_boot (s.bootState_bootFail 6)⟩, s.sameMemory_bootFail 6⟩
  · have hrun := mgmtIssue_issues hc hon hi hu
    refine ⟨fun h => hrun.trans (congrArg Host.Outcome.next (if_neg fun hf => ?_)), fun h4 h => hrun.trans (congrArg Host.Outcome.next (if_pos ⟨h4, ?_⟩))⟩
    · obtain ⟨h4, hany⟩ := hf
      rcases h with h5 | hquiet
      · exact absurd (h4.symm.trans h5) (by decide)
      · obtain ⟨e, he, hshows⟩ := List.any_eq_true.1 hany
        obtain ⟨hent, htrap⟩ := hquiet e he
        rw [hent, htrap] at hshows
        cases hshows
    · obtain ⟨e, he, hshows⟩ := h
      exact List.any_eq_true.2 ⟨e, he, Bool.or_eq_true_iff.2 hshows⟩
  · intro p a h2 hi hj hfree hlow ha hp hw
    have hrun := reductionBlockArrival_run block hs h2 hi hj hfree hlow ha
    refine ⟨fun hb => hrun.trans (congrArg Host.Outcome.next (if_pos hb)), fun hb => ⟨_, hrun.trans (congrArg Host.Outcome.next (if_neg (by rw [hb]; decide))), State.reduced_spec block hj hp hw⟩⟩
  refine ⟨fun port v hp hv hq => ?_, fun port v hp hv hq => ⟨_, rqrelWrite_run hs hp, State.rqrelSet_popped hv hq⟩, fun plan h hd => budgetPeriod_spec plan hs h hd,
    fun row x ht hx => ⟨_, keeperTaperEnd_run hs ht hx, s.row_setRow_same row _, ⟨rfl, rfl, rfl, rfl⟩, rfl⟩, fun pier => ?_, fun i v hi => freeze_spec hs hi, fun v hv => frzWrite_clear hs hv,
    fun pa hpa => eccLine_run hs hpa, fun core line hc => eccCacheLine_run hs hc, fun core slot hc hslot hocc h0 => eccContext_run hs hc hslot hocc h0, fun core hc => eccCoreState_spec hs hc,
    ⟨_, eccCorrected_run hs true, rfl, rfl⟩, ⟨_, eccCorrected_run hs false, rfl, rfl⟩, fun cluster v hc hv => ⟨_, crepClear_run hs hc hv, s.cluster_setCluster_same cluster _⟩,
    fun cluster v hc hv => ⟨_, cstopClear_run hs hc hv, s.cluster_setCluster_same cluster _⟩, referenceTick_held, fun hd => ?_⟩
  · rw [rqrelWrite_run hs hp, State.rqrelSet_queued hq]
  · show execRefresh pier s = _
    rw [execRefresh, event, ite_self]
  · exact ⟨_, referenceTick_run hs hd, rfl, fun r hr => tget_mapped _ _ (List.mem_range.2 hr), ⟨rfl, rfl, rfl, rfl⟩, rfl, rfl⟩

end
